-- ==== Sys2Proof/Word.lean ====
section
/-! DEFINITION. The words of the DG9: bytes, the 48-bit address, the 64-bit and 128-bit registers, the
272-bit accumulator (spec/02 R81), and plain bit-field arithmetic on natural numbers. -/
namespace Sys2Proof

/-- One byte of memory or of a message. -/
abbrev Byte := BitVec 8
/-- A 64-bit register: an address register, a CSR, a block register. -/
abbrev Word := BitVec 64
/-- A data register, R81. -/
abbrev Quad := BitVec 128
/-- An accumulator, 256 bits plus 16 guard bits, R81. -/
abbrev Acc := BitVec 272
/-- A 48-bit physical address (the pc, a loop register). -/
abbrev Addr := BitVec 48

/-- The number of an execution context: 0 to 15 a group slot, 16 + c the QM core c, 56 Labazor-S (R350). -/
abbrev CtxId := Nat

end Sys2Proof
end

