-- ==== Sys2Proof/Syntax.lean ====
section
/-! DEFINITION. The commands of the DG9: one constructor for each row of spec/opcode_table.json. An
instruction row carries the executing context and the fields of its encoding below the opcode, the
reserved bits included (spec/02 Table 02.22), so that every reserved code reaches the check of R141. An
event row carries what its occurrence brings from outside the module. -/
namespace Sys2Proof

/-- RRR format: d, s1, s2, W, FN. -/
structure Rrr where
  d : BitVec 5
  s1 : BitVec 5
  s2 : BitVec 5
  w : BitVec 3
  fn : BitVec 7
  deriving DecidableEq, Repr

/-- RRRR format: d, c, s1, s2, W and two reserved bits. -/
structure Rrrr where
  d : BitVec 5
  cond : BitVec 5
  s1 : BitVec 5
  s2 : BitVec 5
  w : BitVec 3
  rsv : BitVec 2
  deriving DecidableEq, Repr

/-- RRI format: d, s1, W, IMM12. -/
structure Rri where
  d : BitVec 5
  s1 : BitVec 5
  w : BitVec 3
  imm : BitVec 12
  deriving DecidableEq, Repr

/-- MEM format: d, base, M and the fourteen bits below M: DISP14, or K and DISP12 (M = 0b11). -/
structure Mem where
  d : BitVec 5
  base : BitVec 4
  m : BitVec 2
  disp : BitVec 14
  deriving DecidableEq, Repr

/-- BR format: t and DISP20 in words. -/
structure Br where
  t : BitVec 5
  disp : BitVec 20
  deriving DecidableEq, Repr

/-- JR format: five reserved bits, An, sixteen reserved bits. -/
structure Jr where
  rsvHi : BitVec 5
  an : BitVec 4
  rsvLo : BitVec 16
  deriving DecidableEq, Repr

/-- CALLR and RET formats: MASK, An (reserved for RET), five reserved bits. -/
structure CallR where
  mask : BitVec 16
  an : BitVec 4
  rsv : BitVec 5
  deriving DecidableEq, Repr

/-- LOOPI format: COUNT, LEN, two reserved bits. -/
structure LoopI where
  count : BitVec 12
  len : BitVec 11
  rsv : BitVec 2
  deriving DecidableEq, Repr

/-- CSR format: d, CSR number, eight reserved bits. -/
structure CsrF where
  d : BitVec 5
  csr : BitVec 12
  rsv : BitVec 8
  deriving DecidableEq, Repr

/-- SYS format below FN: ARG and two reserved bits (the row fixes FN). -/
structure Sys where
  arg : BitVec 16
  rsv : BitVec 2
  deriving DecidableEq, Repr

/-- BIT format: d, An, BDISP16. -/
structure BitF where
  d : BitVec 5
  an : BitVec 4
  disp : BitVec 16
  deriving DecidableEq, Repr

/-- REP format: S, COUNT, twelve reserved bits; and the first word of the instruction that follows the
prefix, which R123 and R124 examine. -/
structure RepF where
  s : Bool
  count : BitVec 12
  rsv : BitVec 12
  next : BitVec 32
  deriving DecidableEq, Repr

/-- LONG format below XOP: X and the second word IMM32. -/
structure Long where
  x : BitVec 16
  imm : BitVec 32
  deriving DecidableEq, Repr

/-- Queue format (R267): d, H, FN, five reserved bits. -/
structure QueF where
  d : BitVec 5
  h : BitVec 12
  fn : BitVec 3
  rsv : BitVec 5
  deriving DecidableEq, Repr

/-- What one comparison of a voter finds among the lanes it compares (Table 01.2). -/
inductive Verdict where
  /-- the lanes agree -/
  | agree
  /-- the named lane (0 A, 1 B, 2 C) differs from two that agree -/
  | minority (lane : Nat)
  /-- no two of the compared lanes agree -/
  | noMajority
  deriving DecidableEq, Repr

/-- The triple of a BIST (R446): signature, pattern count, completion marker. -/
structure Triple where
  sig : BitVec 32
  count : BitVec 32
  marker : BitVec 8
  deriving DecidableEq, Repr, Inhabited

/-- A directed link: the router it leaves and its direction (0 east, 1 west, 2 south, 3 north), R242. -/
structure Link where
  x : Nat
  y : Nat
  dir : Nat
  deriving DecidableEq, Repr

/-- What a check of a stored Palette word finds. -/
inductive Finding where
  | clean
  | corrected
  | uncorrectable
  deriving DecidableEq, Repr

/-- Stored bits that a physical upset inverts just before the read, and whether the read returns the word
of a wrong address (R306). -/
structure Upset where
  bits : BitVec 144
  wrongAddr : Bool
  deriving DecidableEq, Repr

/-- Who writes a code-store line (Table 06.4). -/
inductive Writer where
  | supervisor
  | dma
  | sec
  deriving DecidableEq, Repr

/-- A received or offered network frame (Table 11.2): FORMAT, FLAGS, ID and the data bytes. -/
structure Frame where
  format : Nat
  flags : BitVec 16
  id : BitVec 32
  data : List Byte
  deriving DecidableEq, Repr

/-- A frame at a switch port: destination, VLAN (0 untagged), PCP, stream handle if stream identification
gives one, whether its check sequence and MACsec pass it, the bytes. -/
structure EthFrame where
  dst : Nat
  vlan : Nat
  pcp : Nat
  stream : Option Nat
  fcsOk : Bool
  macsecOk : Bool
  data : List Byte
  deriving DecidableEq, Repr

/-- The check of a LIN response (R558). -/
inductive LinOk where
  | ok
  | error
  | noResponse
  deriving DecidableEq, Repr

/-- What the card exchange of METHOD 4 brings (R541): the status of SELECT and READ BINARY, the bytes of the
certificate file, the card's signature. -/
structure CardReply where
  selectOk : Bool
  readOk : Bool
  cert : List Byte
  sig : List Byte
  deriving DecidableEq, Repr

/-- What wakes the module in Park-Listen beside ignition (R590). -/
inductive Wake where
  | can (n : Nat)
  | alarm
  deriving DecidableEq, Repr

/-- An event of a flag of FAB_MY_EVT in the cycle of a write (R18): flag, queue, handle, code (Table 05.21). -/
structure FabHw where
  flag : Nat
  qid : Nat
  handle : Nat
  code : Nat
  deriving DecidableEq, Repr

/-- An INT or NMI reaction in the cycle of a write to FCR_MY_EVT (R18): NMI or INT, and the message (Table 09.17). -/
structure FcrHw where
  nmi : Bool
  lo : Word
  hi : Word
  deriving DecidableEq, Repr

/-- The commands, one constructor for each row of the opcode table. -/
inductive Instr where
  /-- ADD, R151: Element-wise modular addition of two data registers. -/
  | add (c : CtxId) (f : Rrr)
  /-- ADD_C, R153: Writes the carry out of each element-wise sum as 0 or 1. -/
  | addC (c : CtxId) (f : Rrr)
  /-- SUB, R151: Element-wise modular subtraction. -/
  | sub (c : CtxId) (f : Rrr)
  /-- SUB_B, R153: Writes the borrow out of each element-wise difference as 0 or 1. -/
  | subB (c : CtxId) (f : Rrr)
  /-- ADDSAT, R152: Element-wise saturating addition, signed or unsigned by FN. -/
  | addsat (c : CtxId) (f : Rrr)
  /-- SUBSAT, R152: Element-wise saturating subtraction, signed or unsigned by FN. -/
  | subsat (c : CtxId) (f : Rrr)
  /-- AND, R151: Bitwise AND of two data registers. -/
  | andd (c : CtxId) (f : Rrr)
  /-- OR, R151: Bitwise OR of two data registers. -/
  | orr (c : CtxId) (f : Rrr)
  /-- XOR, R151: Bitwise XOR of two data registers. -/
  | xorr (c : CtxId) (f : Rrr)
  /-- ANDN, R151: Bitwise s1 AND NOT s2. -/
  | andn (c : CtxId) (f : Rrr)
  /-- SHL, R154: Element-wise shift left by a per-element or element-0 count. -/
  | shl (c : CtxId) (f : Rrr)
  /-- SHR, R154: Element-wise logical shift right. -/
  | shr (c : CtxId) (f : Rrr)
  /-- SHRA, R154: Element-wise arithmetic shift right. -/
  | shra (c : CtxId) (f : Rrr)
  /-- ROT, R154: Element-wise rotate left by the count modulo the width. -/
  | rot (c : CtxId) (f : Rrr)
  /-- MIN, R151: Element-wise minimum, signed or unsigned. -/
  | min (c : CtxId) (f : Rrr)
  /-- MAX, R151: Element-wise maximum, signed or unsigned. -/
  | max (c : CtxId) (f : Rrr)
  /-- NEG, R155: Element-wise negation modulo 2^w. -/
  | neg (c : CtxId) (f : Rrr)
  /-- ABS, R155: Element-wise absolute value modulo 2^w. -/
  | abs (c : CtxId) (f : Rrr)
  /-- ABSSAT, R155: Element-wise saturating absolute value. -/
  | abssat (c : CtxId) (f : Rrr)
  /-- NOT, R155: Inverts every bit of the operand. -/
  | nott (c : CtxId) (f : Rrr)
  /-- CLZ, R156: Counts leading zero bits per element. -/
  | clz (c : CtxId) (f : Rrr)
  /-- CTZ, R156: Counts trailing zero bits per element. -/
  | ctz (c : CtxId) (f : Rrr)
  /-- DVINIT_U, R165: Sets up an unsigned division state in each slot. -/
  | dvinitU (c : CtxId) (f : Rrr)
  /-- DVINIT_S, R165: Sets up a signed division state from the dividend magnitude. -/
  | dvinitS (c : CtxId) (f : Rrr)
  /-- ADDI, R157: Adds a sign-extended 12-bit immediate to every element. -/
  | addi (c : CtxId) (f : Rri)
  /-- ANDI, R157: ANDs a sign-extended immediate into every element. -/
  | andi (c : CtxId) (f : Rri)
  /-- ORI, R157: ORs a sign-extended immediate into every element. -/
  | ori (c : CtxId) (f : Rri)
  /-- XORI, R157: XORs a sign-extended immediate into every element. -/
  | xori (c : CtxId) (f : Rri)
  /-- SHLI, R157: Shifts every element left by an immediate count. -/
  | shli (c : CtxId) (f : Rri)
  /-- SHRI, R157: Shifts every element right logically by an immediate count. -/
  | shri (c : CtxId) (f : Rri)
  /-- SHRAI, R157: Shifts every element right arithmetically by an immediate count. -/
  | shrai (c : CtxId) (f : Rri)
  /-- MOVI, R157: Writes a sign-extended immediate into every element. -/
  | movi (c : CtxId) (f : Rri)
  /-- MUL, R151: Writes the low w bits of each element product. -/
  | mul (c : CtxId) (f : Rrr)
  /-- MULH, R151: Writes the high w bits of each 2w-bit product, by signedness. -/
  | mulh (c : CtxId) (f : Rrr)
  /-- MAC, R161: Adds or subtracts the sum of element products to an accumulator modulo 2^272. -/
  | mac (c : CtxId) (f : Rrr)
  /-- MACS, R162: Multiply-accumulate with saturation to 256 bits. -/
  | macs (c : CtxId) (f : Rrr)
  /-- DIVS, R166: Performs one restoring division step in each slot. -/
  | divs (c : CtxId) (f : Rrr)
  /-- DIVE, R168: Forms quotient, remainder and status of each division slot. -/
  | dive (c : CtxId) (f : Rrr)
  /-- DADD, R172: Adds two packed-decimal operands with validity result. -/
  | dadd (c : CtxId) (f : Rrr)
  /-- DSUB, R172: Subtracts two packed-decimal operands with validity result. -/
  | dsub (c : CtxId) (f : Rrr)
  /-- DTOB, R171: Converts packed decimal to a 128-bit binary integer. -/
  | dtob (c : CtxId) (f : Rrr)
  /-- BTOD, R172: Converts a 128-bit binary integer to packed decimal. -/
  | btod (c : CtxId) (f : Rrr)
  /-- FADD, R184: Element-wise floating-point addition with rounding and flags. -/
  | fadd (c : CtxId) (f : Rrr)
  /-- FSUB, R184: Element-wise floating-point subtraction. -/
  | fsub (c : CtxId) (f : Rrr)
  /-- FMUL, R184: Element-wise floating-point multiplication. -/
  | fmul (c : CtxId) (f : Rrr)
  /-- FDIV, R184: Element-wise floating-point division. -/
  | fdiv (c : CtxId) (f : Rrr)
  /-- FSQRT, R195: Element-wise floating-point square root. -/
  | fsqrt (c : CtxId) (f : Rrr)
  /-- FMA, R185: Fused multiply-add with the destination as addend, rounded once. -/
  | fma (c : CtxId) (f : Rrr)
  /-- FMIN, R186: Floating-point minimum or minimumNumber per element. -/
  | fmin (c : CtxId) (f : Rrr)
  /-- FMAX, R186: Floating-point maximum or maximumNumber per element. -/
  | fmax (c : CtxId) (f : Rrr)
  /-- FCVT, R189: Converts between float formats, integers and integral values. -/
  | fcvt (c : CtxId) (f : Rrr)
  /-- FCMP, R187: Floating-point comparison writing 0 or 1 per element. -/
  | fcmp (c : CtxId) (f : Rrr)
  /-- FCLASS, R188: Writes a one-hot class mask per element. -/
  | fclass (c : CtxId) (f : Rrr)
  /-- FSGN, R184: Combines the magnitude of s1 with a sign chosen by FN. -/
  | fsgn (c : CtxId) (f : Rrr)
  /-- CMP, R111: Integer comparison writing 0 or 1 per element. -/
  | cmp (c : CtxId) (f : Rrr)
  /-- CMPI, R158: Integer comparison against an immediate. -/
  | cmpi (c : CtxId) (f : Rri)
  /-- SEL, R113: Selects each element from one of two sources by a condition. -/
  | sel (c : CtxId) (f : Rrrr)
  /-- MOV, R87: Moves between register classes in the direction FN selects. -/
  | mov (c : CtxId) (f : Rrr)
  /-- SHUF, R159: Writes each element from an indexed source element or zero. -/
  | shuf (c : CtxId) (f : Rrr)
  /-- INS, R160: Inserts a bit field into the destination. -/
  | ins (c : CtxId) (f : Rri)
  /-- EXT, R160: Extracts a bit field with zero or sign extension. -/
  | ext (c : CtxId) (f : Rri)
  /-- CRCS, R128: Advances a CRC state over the low bytes of a register. -/
  | crcs (c : CtxId) (f : Rrr)
  /-- PAR, R129: Writes the parity of each element. -/
  | par (c : CtxId) (f : Rrr)
  /-- BREV, R130: Reverses the bit order within each element. -/
  | brev (c : CtxId) (f : Rrr)
  /-- BCNT, R156: Counts the ones in each element. -/
  | bcnt (c : CtxId) (f : Rrr)
  /-- LD_B, R82: Loads a sign-extended byte into a data register. -/
  | ldB (c : CtxId) (f : Mem)
  /-- LD_BU, R82: Loads a zero-extended byte. -/
  | ldBu (c : CtxId) (f : Mem)
  /-- LD_H, R82: Loads a sign-extended halfword. -/
  | ldH (c : CtxId) (f : Mem)
  /-- LD_HU, R82: Loads a zero-extended halfword. -/
  | ldHu (c : CtxId) (f : Mem)
  /-- LD_W, R82: Loads a sign-extended word. -/
  | ldW (c : CtxId) (f : Mem)
  /-- LD_WU, R82: Loads a zero-extended word. -/
  | ldWu (c : CtxId) (f : Mem)
  /-- LD_D, R82: Loads a sign-extended doubleword, the register-space load. -/
  | ldD (c : CtxId) (f : Mem)
  /-- LD_Q, R100: Loads a 128-bit quadword, with the load delay. -/
  | ldQ (c : CtxId) (f : Mem)
  /-- ST_B, R210: Stores a byte into the store buffer at retirement. -/
  | stB (c : CtxId) (f : Mem)
  /-- ST_H, R210: Stores a halfword. -/
  | stH (c : CtxId) (f : Mem)
  /-- ST_W, R210: Stores a word. -/
  | stW (c : CtxId) (f : Mem)
  /-- ST_D, R210: Stores a doubleword, the register-space store. -/
  | stD (c : CtxId) (f : Mem)
  /-- ST_Q, R210: Stores a 128-bit quadword. -/
  | stQ (c : CtxId) (f : Mem)
  /-- STA, R93: Stores an address register. -/
  | sta (c : CtxId) (f : Mem)
  /-- LDA, R93: Loads an address register. -/
  | lda (c : CtxId) (f : Mem)
  /-- LEA, R93: Writes an effective address into an address register. -/
  | lea (c : CtxId) (f : Mem)
  /-- INDEXED_ACCESS, R93: Long-form indexed load or store with scaled index. -/
  | indexedAccess (c : CtxId) (sub : BitVec 4) (f : Long)
  /-- PC_RELATIVE_ACCESS, R93: Long-form PC-relative load or store. -/
  | pcRelativeAccess (c : CtxId) (sub : BitVec 4) (f : Long)
  /-- LI, R140: Loads a sign-extended 32-bit immediate into a register. -/
  | li (c : CtxId) (f : Long)
  /-- BZ, R112: Branches when all 128 bits of a register are zero. -/
  | bz (c : CtxId) (f : Br)
  /-- BNZ, R112: Branches when any bit of a register is one. -/
  | bnz (c : CtxId) (f : Br)
  /-- J, R139: Unconditional jump by a word displacement. -/
  | j (c : CtxId) (disp : BitVec 25)
  /-- JR, R139: Jumps to the address held in an address register. -/
  | jr (c : CtxId) (f : Jr)
  /-- JL, R140: Long-form jump by a 32-bit displacement. -/
  | jl (c : CtxId) (f : Long)
  /-- CALL, R108: Pushes a call frame and jumps to a PC-relative target. -/
  | call (c : CtxId) (f : Long)
  /-- CALLR, R108: Pushes a call frame and jumps to an address register. -/
  | callr (c : CtxId) (f : CallR)
  /-- RET, R109: Checks the frame word, restores registers and returns. -/
  | ret (c : CtxId) (f : CallR)
  /-- LOOPI, R114: Opens a hardware loop with an immediate count. -/
  | loopi (c : CtxId) (f : LoopI)
  /-- LOOP, R114: Opens a hardware loop with a count from a register. -/
  | loop (c : CtxId) (f : Long)
  /-- LBREAK, R118: Terminates the innermost hardware loop. -/
  | lbreak (c : CtxId) (rsv : BitVec 25)
  /-- REP, R122: Repeats the following instruction REPCNT times. -/
  | rep (c : CtxId) (f : RepF)
  /-- CSRR, R92: Reads a control and status register. -/
  | csrr (c : CtxId) (f : CsrF)
  /-- CSRW, R92: Writes a control and status register without behaviour of its own. -/
  | csrw (c : CtxId) (f : CsrF)
  /-- STATUS_WRITE, R89: CSRW to STATUS, checked for privilege and reserved modes. -/
  | statusWrite (c : CtxId) (f : CsrF)
  /-- PMOVF_WRITE, R241: W1C write to PMOVF clearing flags and overrun fields. -/
  | pmovfWrite (c : CtxId) (f : CsrF) (hw : BitVec 8)
  /-- SYSCALL, R143: Raises the SYSCALL exception with its argument in EADDR. -/
  | syscall (c : CtxId) (f : Sys)
  /-- ERET, R147: Restores the exception frame and returns. -/
  | eret (c : CtxId) (f : Sys) (at_ : BitVec 32)
  /-- FENCE, R214: Waits for older accesses and discards younger fetched instructions. -/
  | fence (c : CtxId) (f : Sys)
  /-- IFLUSH, R218: Writes back and invalidates one line in the group's caches and buffers. -/
  | iflush (c : CtxId) (f : Sys)
  /-- WAIT, R227: Stops fetch and retirement until an eligible interrupt. -/
  | waitt (c : CtxId) (f : Sys)
  /-- BKPT, R143: Raises BREAKPOINT or halts the group under an Easel session. -/
  | bkpt (c : CtxId) (f : Sys)
  /-- BTST, R133: Reads one bit of the bit-variable space in STR mode. -/
  | btst (c : CtxId) (f : BitF)
  /-- BSET, R133: Indivisibly sets one addressed bit. -/
  | bset (c : CtxId) (f : BitF)
  /-- BCLR, R133: Indivisibly clears one addressed bit. -/
  | bclr (c : CtxId) (f : BitF)
  /-- BINV, R133: Indivisibly inverts one addressed bit. -/
  | binv (c : CtxId) (f : BitF)
  /-- ENQ, R268: Publishes the slot at WR and returns the producer status. -/
  | enq (c : CtxId) (f : QueF)
  /-- DEQ, R270: Releases any claimed slot and claims the next visible one. -/
  | deq (c : CtxId) (f : QueF)
  /-- DEQ_REL, R270: Releases any claimed slot without claiming. -/
  | deqRel (c : CtxId) (f : QueF)
  /-- DOORBELL, R269: Publishes n slots in one operation. -/
  | doorbell (c : CtxId) (f : QueF)
  /-- QSTAT_PRODUCER, R272: Returns the producer status word without effect. -/
  | qstatProducer (c : CtxId) (f : QueF)
  /-- QSTAT_CONSUMER, R272: Returns the consumer status of the head slot without effect. -/
  | qstatConsumer (c : CtxId) (f : QueF)
  /-- LOAD_RESPONSE, R216: Load data arrives and is written once all halves are present. -/
  | loadResponse (c : CtxId) (half : Nat) (data : BitVec 128) (err : Bool)
  /-- STORE_BUFFER_DRAIN, R210: A buffered store drains to memory in program order. -/
  | storeBufferDrain (c : CtxId) (wcoll : Bool)
  /-- LINE_FETCH_COMPLETE, R200: A code-store line returns 40 ns after acceptance. -/
  | lineFetchComplete (c : CtxId) (upset : Upset)
  /-- WAIT_WAKE, R227: An eligible interrupt or NMI ends WAIT. -/
  | waitWake (c : CtxId)
  /-- INTERRUPT_SOURCE_EVENT, R223: An event of an enabled source sets or merges into its pending bit. -/
  | interruptSourceEvent (c : CtxId) (src : Nat)
  /-- INTERRUPT_TAKEN, R225: A sampled interrupt or NMI is taken at the next allowed boundary. -/
  | interruptTaken (c : CtxId)
  /-- PMC_WRAP, R240: A performance counter wraps, setting OVF and maybe interrupting or freezing. -/
  | pmcWrap (c : CtxId) (n : Nat)
  /-- LANE_DISAGREEMENT, R40: The voter finds a digest or request disagreement in a group. -/
  | laneDisagreement (g : Nat) (digest request : Verdict)
  /-- VOTER_SLICE, R36: A voter comparison slice disagrees and is outvoted. -/
  | voterSlice (g : Nat) (slice : Nat)
  /-- LANE_CORRECTED, R29: A correctable lane L1 or register-file error is corrected. -/
  | laneCorrected (core : Nat)
  /-- PLANNED_RESEAT_START, R59: A planned or commanded re-seat begins at the control-period boundary. -/
  | plannedReseatStart (g : Nat)
  /-- HELD_RESEAT_START, R55: A held re-seat is made at the first boundary after a spare becomes ready. -/
  | heldReseatStart (g : Nat)
  /-- RESEAT_QUIESCED, R49: The group freezes after loads complete and the store buffer drains. -/
  | reseatQuiesced (st : Nat)
  /-- RESEAT_RESTART, R49: After write-back and state transfer the group restarts with the newcomer. -/
  | reseatRestart (st : Nat)
  /-- NEWCOMER_FAULT, R56: A fault in the newcomer during a re-seat aborts its seating. -/
  | newcomerFault (st : Nat)
  /-- LOST_GROUP_RESTART, R44: A waiting restart of a lost group is made once enough spares are ready. -/
  | lostGroupRestart (pid : Nat)
  /-- ROTATION_DUE, R58: The rotation interval expires and a core is chosen for release. -/
  | rotationDue (st : Nat)
  /-- CORE_BIST_COMPLETE, R63: A core's logic and memory BIST finishes and sets its condition. -/
  | coreBistComplete (core : Nat) (logic mem : Triple)
  /-- STU_GRPN_EVT, R80: W1C write to a slot's event flags by the owning partition. -/
  | stuGrpnEvt (c : CtxId) (n : Nat) (v : Word) (hw : BitVec 3)
  /-- REGISTER_WRITE_DENIED, R78: A write to a register without behaviour of its own is refused and reported. -/
  | registerWriteDenied (c : CtxId) (addr : Nat) (v : Word)
  /-- PUBLICATION_CHECK, R263: The checker applies the publication checks and makes the message visible. -/
  | publicationCheck (q : Nat)
  /-- BUDGET_REFILL, R281: A class-0 token bucket gains one credit. -/
  | budgetRefill (q : Nat)
  /-- MIRROR_COPY, R286: The engine copies a visible message into its mirror target. -/
  | mirrorCopy (q : Nat)
  /-- FLIP_GROUP_BOUNDARY, R290: A flip group boundary latches and restarts its digest entries. -/
  | flipGroupBoundary (g : Nat)
  /-- FLIT_CORRECTED, R248: A single-bit flit error is corrected on a link. -/
  | flitCorrected (l : Link) (wire : Nat)
  /-- LINK_RETRY, R248: An uncorrectable flit is resent from the retry buffer. -/
  | linkRetry (l : Link)
  /-- LANE_SPARED, R248: A wire with 16 corrections in 1 ms moves onto a spare wire. -/
  | laneSpared (l : Link) (wire : Nat)
  /-- LINK_FAIL, R248: A link is disabled after repeated failures and traffic rerouted. -/
  | linkFail (l : Link)
  /-- ROUTER_SLICE, R249: A router slice disagrees and is outvoted. -/
  | routerSlice (x y slice : Nat)
  /-- PALETTE_SCRUB, R254: The Palette scrub pass checks descriptor words. -/
  | paletteScrub (q : Nat) (word : Nat) (found : Finding)
  /-- FAB_MY_EVT, R299: W1C write to the context's fabric event flags. -/
  | fabMyEvt (c : CtxId) (v : Word) (hw : List FabHw)
  /-- CANVAS_SCRUB_READ, R314: The scrubber reads the next Canvas word through port 1. -/
  | canvasScrubRead (qd : Nat) (upset : Upset)
  /-- MIGRATION_START, R317: The bank-test interval expires and a test bank starts migrating. -/
  | migrationStart (qd : Nat)
  /-- MIGRATION_LINE_COPY, R318: One 128-byte line is copied into the free physical bank. -/
  | migrationLineCopy (qd : Nat)
  /-- BANK_BIST_COMPLETE, R321: The vacated bank's memory BIST ends with PASS, FAIL or INCOMPLETE. -/
  | bankBistComplete (qd : Nat) (t : Triple)
  /-- RETENTION_SUPPLY_LOSS, R328: Retention supply falls below limit and RET_LOST is set. -/
  | retentionSupplyLoss (qd : Nat)
  /-- BANK_WAKE, R326: A retained or off bank finishes waking to ON. -/
  | bankWake (qd b : Nat)
  /-- BANK_CLEAR_DONE, R327: A bank from OFF finishes clearing to zero. -/
  | bankClearDone (qd b : Nat)
  /-- DRAM_REFRESH, R330: A DRAM refresh falls due and is performed. -/
  | dramRefresh (ch : Nat)
  /-- DRAM_PATROL_SCRUB, R334: The patrol scrubber reads the next DRAM word. -/
  | dramPatrolScrub (copy : Nat) (upset : Upset)
  /-- CODE_STORE_LINE_WRITE, R342: A code-store line write completes atomically. -/
  | codeStoreLineWrite (writer : Writer) (addr : Nat) (data : BitVec 1024)
  /-- DMA_COPY, R346: A DMA request with OP 1 is reach-checked and queued. -/
  | dmaCopy (agent slot : Nat)
  /-- DMA_FILL, R346: A DMA request with OP 2 is reach-checked and queued. -/
  | dmaFill (agent slot : Nat)
  /-- DMA_CRC, R346: A DMA request with OP 3 is reach-checked and queued. -/
  | dmaCrc (agent slot : Nat)
  /-- DMA_STEP, R344: An agent performs one round-robin step of up to 4 KiB and completes jobs. -/
  | dmaStep (agent : Nat) (wcoll : Nat)
  /-- REQUEST_CLAIM, R366: Exesh claims a visible mailbox request and applies the checks. -/
  | requestClaim (pair : Nat)
  /-- SESSION_OPEN, R375: Opens a session for a role and returns handle and challenge. -/
  | sessionOpen (pair tag : Nat)
  /-- SESSION_AUTH, R377: Proves a challenged session by signature, passphrase or card. -/
  | sessionAuth (pair tag : Nat)
  /-- SESSION_CLOSE, R382: Closes a session. -/
  | sessionClose (pair tag : Nat)
  /-- SESSION_QUERY, R376: Returns the state of the session. -/
  | sessionQuery (pair tag : Nat)
  /-- CHALLENGE_TIMEOUT, R376: A challenged session closes 30 s after SESSION_OPEN. -/
  | challengeTimeout (handle : Nat)
  /-- SESSION_IDLE_TIMEOUT, R382: An authenticated session ends after its idle time. -/
  | sessionIdleTimeout (handle : Nat)
  /-- ROLE_KEY_SET, R384: Installs a role public key. -/
  | roleKeySet (pair tag : Nat)
  /-- ROLE_KEY_REVOKE, R384: Revokes a role public key. -/
  | roleKeyRevoke (pair tag : Nat)
  /-- PASSPHRASE_SET, R378: Sets the Workshop passphrase hash. -/
  | passphraseSet (pair tag : Nat)
  /-- IDENTITY_GET, R517: Returns DEVICE_ID, FEAT0 and FEAT7. -/
  | identityGet (pair tag : Nat)
  /-- VERSION_GET, R385: Returns Exesh, application and configuration versions. -/
  | versionGet (pair tag : Nat)
  /-- ATTEST, R523: Returns a signed attestation report. -/
  | attest (pair tag : Nat)
  /-- IDENTITY_KEYS_GET, R517: Returns the two identity public keys. -/
  | identityKeysGet (pair tag : Nat)
  /-- QUEUE_CREATE, R279: Creates a queue descriptor with admission checks. -/
  | queueCreate (pair tag : Nat)
  /-- QUEUE_DESTROY, R280: Clears VALID of a queue with no bound endpoint. -/
  | queueDestroy (pair tag : Nat)
  /-- QUEUE_BIND, R279: Binds an endpoint, handle and ring window to a queue. -/
  | queueBind (pair tag : Nat)
  /-- QUEUE_UNBIND, R610: Unbinds an endpoint from a queue. -/
  | queueUnbind (pair tag : Nat)
  /-- QUEUE_RESET, R278: Resets indices, SEQ and counters of a queue. -/
  | queueReset (pair tag : Nat)
  /-- QUEUE_QUERY, R278: Returns the descriptor words of a queue. -/
  | queueQuery (pair tag : Nat)
  /-- PARTITION_QUERY, R357: Returns the state of a partition. -/
  | partitionQuery (pair tag : Nat)
  /-- PARTITION_STOP, R391: Stops a partition unless stop-protected with ignition. -/
  | partitionStop (pair tag : Nat)
  /-- PARTITION_START, R44: Starts a stopped, lost or unformed partition on ready spares. -/
  | partitionStart (pair tag : Nat)
  /-- PARTITION_RESTART, R43: Restarts a partition from its entry point. -/
  | partitionRestart (pair tag : Nat)
  /-- CONFIG_STAGE, R390: Writes a chunk of a configuration blob into the inactive slot. -/
  | configStage (pair tag : Nat)
  /-- CONFIG_DISCARD, R390: Discards a staged configuration blob. -/
  | configDiscard (pair tag : Nat)
  /-- CORE_RESEAT, R392: Commands a re-seat of a named active core. -/
  | coreReseat (pair tag : Nat)
  /-- UPDATE_STAGE, R393: Writes a chunk of an image into a bank. -/
  | updateStage (pair tag : Nat)
  /-- UPDATE_STATUS, R393: Returns the state of the four image banks. -/
  | updateStatus (pair tag : Nat)
  /-- VERIFICATION_COMPLETE, R423: Image verification ends VERIFIED or FAILED and seals the target. -/
  | verificationComplete (target : Nat)
  /-- SHADOW_START, R432: Sets up an underpainting of a triad partition. -/
  | shadowStart (pair tag : Nat)
  /-- SHADOW_STATUS, R437: Returns the underpainting state. -/
  | shadowStatus (pair tag : Nat)
  /-- SHADOW_ABORT, R438: Ends the underpainting and restores the queues. -/
  | shadowAbort (pair tag : Nat)
  /-- DIGEST_MASK_SET, R393: Sets the digest mask of a queue. -/
  | digestMaskSet (pair tag : Nat)
  /-- SHADOW_PAIR_START, R433: The shadow pair starts at the boundary after set-up. -/
  | shadowPairStart
  /-- SHADOW_PERIOD_COMPARE, R436: Exesh compares latched digests of each output queue and its twin. -/
  | shadowPeriodCompare
  /-- GLAZE, R440: Commands the glaze switch of a shadowed partition. -/
  | glaze (pair tag : Nat)
  /-- GLAZE_SWITCH, R440: At B0 the live triad freezes and the groups flip. -/
  | glazeSwitch
  /-- GLAZE_COMMIT, R440: At B1 the glaze commits and the revert point is released. -/
  | glazeCommit
  /-- REVERT, R442: Requests a revert within the revert window. -/
  | revert (pair tag : Nat)
  /-- REVERT_EXECUTE, R442: At B1 the groups flip back and the old triad resumes. -/
  | revertExecute
  /-- EXESH_SWITCH, R403: Restarts Exesh from the other verified bank. -/
  | exeshSwitch (pair tag : Nat)
  /-- FAULT_LOG_READ, R462: Returns FCR log entries with their status words. -/
  | faultLogRead (pair tag : Nat)
  /-- FAULT_CLEAR, R464: Clears uncleared kinds of a source. -/
  | faultClear (pair tag : Nat)
  /-- FAULT_POLICY_GET, R465: Returns the policy record of a source. -/
  | faultPolicyGet (pair tag : Nat)
  /-- FAULT_POLICY_SET, R466: Sets the policy record of a source. -/
  | faultPolicySet (pair tag : Nat)
  /-- FAULT_STATUS, R461: Returns the summary fault state. -/
  | faultStatus (pair tag : Nat)
  /-- SAFESTATE_RELEASE, R507: Requests release of the Fixative safe state. -/
  | safestateRelease (pair tag : Nat)
  /-- SAFE_RELEASE_EXECUTE, R507: After RAMPS_DONE the safe state is released at the next tick. -/
  | safeReleaseExecute
  /-- JOURNAL_APPEND, R528: Writes journal records with counter, time and chain link. -/
  | journalAppend (pair tag : Nat)
  /-- JOURNAL_READ, R535: Returns journal records from a counter value. -/
  | journalRead (pair tag : Nat)
  /-- JOURNAL_EXPORT, R535: Starts an export seal over a counter range. -/
  | journalExport (pair tag : Nat)
  /-- JOURNAL_EXPORT_COMPLETE, R535: The export hash pass and signatures finish. -/
  | journalExportComplete
  /-- JOURNAL_STATUS, R529: Returns journal counters and last seal time. -/
  | journalStatus (pair tag : Nat)
  /-- JOURNAL_SEAL_NOW, R532: Requests a batch seal of unsealed records. -/
  | journalSealNow (pair tag : Nat)
  /-- JOURNAL_SEAL_TIMER, R532: One hour after the oldest unsealed record a seal is triggered. -/
  | journalSealTimer
  /-- BATCH_SEAL_COMPLETE, R534: Both seal signatures complete and the seal is written. -/
  | batchSealComplete (ok : Bool)
  /-- CHAIN_AUDIT, R531: SEC re-hashes held records after start. -/
  | chainAudit
  /-- BIST_RESULTS_GET, R447: Returns core, bank or shutdown-test results. -/
  | bistResultsGet (pair tag : Nat)
  /-- CORE_BIST_RUN, R57: Runs BIST on an EXCLUDED core. -/
  | coreBistRun (pair tag : Nat)
  /-- POWER_STATUS, R587: Returns mode, inputs and temperature. -/
  | powerStatus (pair tag : Nat)
  /-- POWER_MODE_REQUEST, R589: Requests Park-Listen, Shutdown-Test or Off. -/
  | powerModeRequest (pair tag : Nat)
  /-- CLOCK_STATUS, R599: Returns PLL, crystal and time state. -/
  | clockStatus (pair tag : Nat)
  /-- RTC_SET, R536: Sets the RTC within the floor and window limits. -/
  | rtcSet (pair tag : Nat)
  /-- LOOPBACK_RUN, R577: Runs frames through a loopback path and compares them. -/
  | loopbackRun (pair tag : Nat)
  /-- LOOPBACK_ABORT, R394: Aborts a running loopback test. -/
  | loopbackAbort (pair tag : Nat)
  /-- EASEL_ATTACH, R398: Attaches a target to the Easel session. -/
  | easelAttach (pair tag : Nat)
  /-- EASEL_DETACH, R398: Detaches a target, resuming it if halted. -/
  | easelDetach (pair tag : Nat)
  /-- EASEL_HALT, R72: Halts a group at the voter. -/
  | easelHalt (pair tag : Nat)
  /-- EASEL_RESUME, R72: Resumes a halted group. -/
  | easelResume (pair tag : Nat)
  /-- EASEL_STEP, R72: Single-steps a halted target. -/
  | easelStep (pair tag : Nat)
  /-- EASEL_REG_READ, R75: Returns the voted value of a register. -/
  | easelRegRead (pair tag : Nat)
  /-- EASEL_REG_WRITE, R75: Writes a register in all lanes. -/
  | easelRegWrite (pair tag : Nat)
  /-- EASEL_MEM_READ, R400: Reads memory within the target's reach. -/
  | easelMemRead (pair tag : Nat)
  /-- EASEL_MEM_WRITE, R400: Writes memory within the target's reach. -/
  | easelMemWrite (pair tag : Nat)
  /-- EASEL_BREAK, R75: Sets a breakpoint or watchpoint. -/
  | easelBreak (pair tag : Nat)
  /-- EASEL_STR, R89: Moves a halted group into or out of STR mode. -/
  | easelStr (pair tag : Nat)
  /-- EASEL_TRACE, R400: Enables branch trace into a buffer. -/
  | easelTrace (pair tag : Nat)
  /-- EASEL_FRAME_RECEIVED, R395: An Easel Ethernet frame is turned into a pair-31 request. -/
  | easelFrameReceived (port : Nat) (mac : Nat) (payload : List Byte)
  /-- EXTEST, R396: TAP instruction driving boundary-scan lands when permitted. -/
  | extest (bits : Nat)
  /-- IDCODE, R396: TAP instruction selecting the identification register. -/
  | idcode
  /-- SAMPLE_PRELOAD, R396: TAP instruction sampling the boundary scan. -/
  | samplePreload (bits : Nat)
  /-- BYPASS, R396: TAP instruction selecting the 1-bit bypass register. -/
  | bypass
  /-- MBOX_WR, R397: An Update-DR appends four bytes to the Easel request buffer. -/
  | mboxWr (w : BitVec 32)
  /-- MBOX_RD, R397: A Capture-DR loads the next four response bytes. -/
  | mboxRd
  /-- MBOX_STATUS, R397: A capture returns and clears the TAP mailbox status. -/
  | mboxStatus
  /-- MBX_MY_EVT, R410: W1C write to the context's mailbox event flags. -/
  | mbxMyEvt (c : CtxId) (v : Word) (hw : BitVec 3)
  /-- RESTART_DRAIN_END, R404: Before a planned restart, outstanding commands finish or are aborted after 1 s. -/
  | restartDrainEnd
  /-- RESTART_LANE_RESET, R405: The supervisor lanes reset and the Exesh restart begins. -/
  | restartLaneReset
  /-- BRIDGE_BUSY_RESPONSE, R405: During a restart the bridge answers a request BUSY. -/
  | bridgeBusyResponse (pair : Nat)
  /-- RESTART_COMPLETE, R405: Exesh claims requests again and sets RESTARTED. -/
  | restartComplete (okA okB : Bool)
  /-- SUP_LANE_MINORITY, R477: A supervisor lane disagrees and the supervisor runs on two. -/
  | supLaneMinority (lane : Nat)
  /-- LANE_RESYNC, R404: Lane resynchronisation begins once no update window is open. -/
  | laneResync
  /-- SUP_NO_MAJORITY, R477: No supervisor majority: lanes reset and Exesh restarts. -/
  | supNoMajority
  /-- SUP_WDG_SERVICE, R482: Labazor-S services the supervisor watchdog. -/
  | supWdgService
  /-- SUP_WDG_TIMEOUT, R482: The supervisor watchdog expires and resets the lanes. -/
  | supWdgTimeout
  /-- S00_SUPPLY_CHECK, R411: Start begins with the supply check. -/
  | s00SupplyCheck (ok : Bool)
  /-- S01_GESSO_SELF_CHECK, R412: Gesso checks its ROM and lane SRAMs and extends MEAS0. -/
  | s01GessoSelfCheck (ok : Bool)
  /-- S02_KEY_STORE_UNLOCK, R516: SEC unlocks the key store and derives device keys. -/
  | s02KeyStoreUnlock (ok : Bool) (kat : BitVec 7)
  /-- S03_LANE_SYNC, R412: Supervisor lanes synchronise on 1,024 digests. -/
  | s03LaneSync (ok : Bool)
  /-- S04_RESULT_CHECK, R449: Shutdown-test results are read and start-up BISTs scheduled. -/
  | s04ResultCheck (t : Triple)
  /-- S05_CODE_STORE_INTEGRITY, R429: Bank headers and seals are checked and the bank order chosen. -/
  | s05CodeStoreIntegrity
  /-- S06_EXESH_LOAD, R351: The Exesh resident image is loaded and measured. -/
  | s06ExeshLoad (okA okB : Bool)
  /-- S07_PLL_LOCK, R597: PLLs lock and Exesh loads the FCR policies. -/
  | s07PllLock (lock : BitVec 4)
  /-- S08_DRAM_TRAINING, R412: Cached or full DRAM training completes. -/
  | s08DramTraining (cachedOk fullOk : Bool)
  /-- S09_CANVAS_INIT, R305: Canvas banks are cleared and march-tested. -/
  | s09CanvasInit (bad : List Nat)
  /-- S10_PALETTE_INIT, R255: The Palette is zeroed and blob queues created. -/
  | s10PaletteInit (ok : Bool)
  /-- S11_STUDIO_BRINGUP, R22: Cores are seated into groups. -/
  | s11StudioBringup (bad : List Nat)
  /-- S12_NETWORK_BRINGUP, R506: Network controllers and PHYs are brought up or checked. -/
  | s12NetworkBringup (bad : List Nat)
  /-- S13_APPLICATION_MEASURE, R414: Application banks are checked, measured and bound. -/
  | s13ApplicationMeasure
  /-- S14_PARTITION_START, R220: Partitions are loaded, bound and started. -/
  | s14PartitionStart (bad : List Nat)
  /-- S15_COMPLETE, R413: Start completes and Exesh enters Supervisor mode. -/
  | s15Complete
  /-- STARTUP_BIST_COMPLETE, R450: A start-up BIST of a domain completes. -/
  | startupBistComplete (dom : Nat) (t : Triple)
  /-- AUDIT_DIGEST, R414: Background recomputation of bound bank payload digests. -/
  | auditDigest (bank : Nat) (mismatch : Bool)
  /-- SHUTDOWN_TEST_START, R445: Shutdown test starts after partitions stop and the journal is sealed. -/
  | shutdownTestStart
  /-- DOMAIN_TEST_COMPLETE, R447: A domain's shutdown test ends and its triple is recorded. -/
  | domainTestComplete (dom : Nat) (t : Triple)
  /-- SHUTDOWN_TEST_END, R588: Shutdown test completes and the module enters Park-Listen or Off. -/
  | shutdownTestEnd
  /-- SHUTDOWN_TEST_KEY_ON, R448: Ignition during shutdown test abandons it and starts. -/
  | shutdownTestKeyOn
  /-- FAULT_MESSAGE_ACCEPT, R468: FCR accepts, logs and classifies a fault message and applies reactions. -/
  | faultMessageAccept (src : Nat)
  /-- FAULT_OVERFLOW, R456: A source with room again reports dropped messages. -/
  | faultOverflow (src : Nat)
  /-- FAULTNET_RESEND, R457: A fault message failing its check is sent again. -/
  | faultnetResend (src : Nat)
  /-- CONDITION_END, R463: A source signals that a condition kind has ended. -/
  | conditionEnd (src kind : Nat)
  /-- RESET_SHADOW_END, R471: A reset shadow closes. -/
  | resetShadowEnd (tag : Nat)
  /-- CHIP_RESET_EXECUTE, R469: The chip resets 20 µs after engagement completes. -/
  | chipResetExecute
  /-- FCR_SLICE, R474: An FCR slice disagrees and is corrected. -/
  | fcrSlice (slice : Nat)
  /-- FCR_SELF, R475: FCR state cannot be voted and the chip-level safe state is entered. -/
  | fcrSelf
  /-- CLK_MAIN_CHECK, R476: The monitor oscillator checks CLK_MAIN every 10 µs. -/
  | clkMainCheck (khz : Nat)
  /-- FCR_MY_EVT, R512: W1C write to the context's FCR event flags. -/
  | fcrMyEvt (c : CtxId) (v : Word) (hw : List FcrHw)
  /-- WDG_WN_SERVICE, R484: A keyed service of a partition watchdog ends its frame. -/
  | wdgWnService (c : CtxId) (n : Nat) (v : Word)
  /-- WDG_TIMEOUT, R484: The watchdog count reaches CLOSE without a service. -/
  | wdgTimeout (n : Nat) (second : Bool)
  /-- WDG_WN_CHECKIN, R490: A task checks in a checkpoint. -/
  | wdgWnCheckin (c : CtxId) (n : Nat) (v : Word)
  /-- WDG_WN_EVT, R493: W1C write to a watchdog's event flags. -/
  | wdgWnEvt (c : CtxId) (n : Nat) (v : Word) (hw : BitVec 4)
  /-- FIXATIVE_TICK, R498: Each 100 µs tick advances the profiles and queues frames. -/
  | fixativeTick
  /-- ARM_CHANNEL_VALUE, R500: An arming entry sets a channel's armed value. -/
  | armChannelValue (q : Nat)
  /-- ARM_TEMPLATE_BYTES, R500: An arming entry writes template bytes of a frame. -/
  | armTemplateBytes (q : Nat)
  /-- SSQ_SLICE, R510: A Fixative slice disagrees and is corrected. -/
  | ssqSlice (slice : Nat)
  /-- SSQ_SELF, R510: An uncorrectable Fixative item drives S or stops the frame. -/
  | ssqSelf (frame : Bool) (n : Nat)
  /-- SSQ_OSC, R495: The Fixative oscillator deviates beyond 1 %. -/
  | ssqOsc
  /-- INJECT_MESSAGE, R514: Factory injection of an arbitrary fault message. -/
  | injectMessage (src kind detail addr subject : Nat)
  /-- INJECT_DIGEST_CORRUPTION, R514: Corrupts one lane's commit digest for a cycle. -/
  | injectDigestCorruption (g lane : Nat)
  /-- INJECT_BIT_INVERSION, R514: Inverts stored bits of a Canvas or DRAM word. -/
  | injectBitInversion (addr copy bit1 bit2 : Nat)
  /-- INJECT_FLIT_CORRUPTION, R514: Corrupts one flit on a link. -/
  | injectFlitCorruption (l : Link) (wires : Nat)
  /-- INJECT_CLOCK_STOP, R514: Stops the clock of a named core. -/
  | injectClockStop (core : Nat)
  /-- INJECT_SERVICE_SUPPRESS, R514: Suppresses services of a named watchdog. -/
  | injectServiceSuppress (n : Nat)
  /-- SHA_384, R521: SEC job computing SHA-384. -/
  | sha384 (q : Nat) (mismatch : Bool)
  /-- SHA3_384, R521: SEC job computing SHA3-384. -/
  | sha3384 (q : Nat) (mismatch : Bool)
  /-- HMAC_SHA_384, R521: SEC job computing HMAC-SHA-384. -/
  | hmacSha384 (q : Nat) (mismatch : Bool)
  /-- AES_256_GCM_ENCRYPT, R521: SEC job encrypting with AES-256-GCM. -/
  | aes256GcmEncrypt (q : Nat) (mismatch : Bool)
  /-- AES_256_GCM_DECRYPT, R522: SEC job decrypting and checking a GCM tag. -/
  | aes256GcmDecrypt (q : Nat) (mismatch : Bool)
  /-- AES_256_CTR, R521: SEC job in AES-256-CTR mode. -/
  | aes256Ctr (q : Nat) (mismatch : Bool)
  /-- AES_256_CMAC, R521: SEC job computing AES-256-CMAC. -/
  | aes256Cmac (q : Nat) (mismatch : Bool)
  /-- ECDSA_P_384_VERIFY, R522: SEC job verifying an ECDSA signature. -/
  | ecdsaP384Verify (q : Nat) (mismatch : Bool)
  /-- ML_DSA_65_VERIFY, R522: SEC job verifying an ML-DSA-65 signature. -/
  | mlDsa65Verify (q : Nat) (mismatch : Bool)
  /-- ECDSA_P_384_SIGN, R521: SEC job signing with ECDSA P-384. -/
  | ecdsaP384Sign (q : Nat) (mismatch : Bool)
  /-- ML_DSA_65_SIGN, R521: SEC job signing with ML-DSA-65. -/
  | mlDsa65Sign (q : Nat) (mismatch : Bool)
  /-- ML_KEM_1024_ENCAPSULATE, R521: SEC job performing ML-KEM encapsulation. -/
  | mlKem1024Encapsulate (q : Nat) (mismatch : Bool)
  /-- ML_KEM_1024_DECAPSULATE, R521: SEC job performing ML-KEM decapsulation. -/
  | mlKem1024Decapsulate (q : Nat) (mismatch : Bool)
  /-- ML_KEM_1024_KEY_GENERATION, R521: SEC job generating an ML-KEM key pair. -/
  | mlKem1024KeyGeneration (q : Nat) (mismatch : Bool)
  /-- RANDOM_BYTES, R521: SEC job returning random bytes. -/
  | randomBytes (q : Nat) (mismatch : Bool)
  /-- TRNG_HEALTH, R520: A TRNG health test fails and output stops. -/
  | trngHealth
  /-- CARD_REMOVAL, R540: A falling CARDn_DET deactivates the card and ends its session. -/
  | cardRemoval (n : Nat)
  /-- CARD_SUPPLY_FAULT, R540: Overcurrent deactivates the card. -/
  | cardSupplyFault (n : Nat)
  /-- CARD_APDU, R543: An APDU message is exchanged with the authenticated card. -/
  | cardApdu (n : Nat) (reply : List Byte)
  /-- CAN_FRAME_RECEIVED, R551: A checked CAN frame is filtered and published to its queue. -/
  | canFrameReceived (n : Nat) (f : Frame)
  /-- CAN_TRANSMIT_CLAIM, R556: A controller claims a transmit message and offers it to arbitration. -/
  | canTransmitClaim (n : Nat)
  /-- CAN_FRAME_TRANSMITTED, R556: A frame completes on the bus and its message is released. -/
  | canFrameTransmitted (n : Nat) (ok : Bool)
  /-- CAN_ERROR_PASSIVE, R557: A controller becomes error-passive. -/
  | canErrorPassive (n : Nat) (tec rec_ : Nat)
  /-- CAN_BUS_OFF, R557: A controller goes bus-off and stops claiming messages. -/
  | canBusOff (n : Nat)
  /-- BUSOFF_RECOVERY, R557: After the configured delay the controller begins recovery and rejoins. -/
  | busoffRecovery (n : Nat)
  /-- LIN_SCHEDULE_SLOT, R558: A master schedule slot publishes or requests a frame. -/
  | linScheduleSlot (n : Nat)
  /-- LIN_FRAME_RECEIVED, R558: A received LIN response is checked and published. -/
  | linFrameReceived (n : Nat) (id : Nat) (data : List Byte) (res : LinOk)
  /-- ETH_FRAME_RECEIVED, R563: A checked Ethernet frame is forwarded or mapped to a queue. -/
  | ethFrameReceived (port : Nat) (f : EthFrame)
  /-- ETH_INTERNAL_TRANSMIT, R563: An internal port claims a transmit message into the switch. -/
  | ethInternalTransmit (port : Nat) (q : Nat)
  /-- MACSEC_KEY_MESSAGE, R561: The key partition installs or retires a SAK. -/
  | macsecKeyMessage (port : Nat)
  /-- MAILBOX_FRAME_RECEIVED, R564: An internal-port mailbox frame becomes a request. -/
  | mailboxFrameReceived (port : Nat) (payload : List Byte)
  /-- PHY_CALIBRATION_STEP, R562: A PHY calibration or SQI step runs in an idle interval. -/
  | phyCalibrationStep (port : Nat) (sqi : Nat)
  /-- ETH_LINK_DOWN, R578: A port loses its link. -/
  | ethLinkDown (port : Nat)
  /-- GPTP_UNSYNC, R560: A gPTP domain loses synchronisation. -/
  | gptpUnsync (dom : Nat)
  /-- PCIE_CPL_TIMEOUT, R566: A PCIe read without completion in 50 ms ends with an error. -/
  | pcieCplTimeout (c : CtxId)
  /-- PCIE_INBOUND_REQUEST, R567: A device request is checked against 0x3E windows. -/
  | pcieInboundRequest (write : Bool) (addr len : Nat) (data : List Byte)
  /-- QUEUE_PAGE_DOORBELL, R568: A queue-page write performs DOORBELL for a handle. -/
  | queuePageDoorbell (h n : Nat)
  /-- QUEUE_PAGE_DEQ, R568: A queue-page write performs DEQ for a handle. -/
  | queuePageDeq (h : Nat)
  /-- QUEUE_PAGE_DEQ_REL, R568: A queue-page write performs DEQ.REL for a handle. -/
  | queuePageDeqRel (h : Nat)
  /-- PWM_DUTY, R573: Command entry setting a PWM duty. -/
  | pwmDuty (q : Nat)
  /-- PWM_PERIOD, R573: Command entry setting a PWM period. -/
  | pwmPeriod (q : Nat)
  /-- COMPARE_VALUE, R573: Command entry setting a compare value. -/
  | compareValue (q : Nat)
  /-- GPIO_OUTPUT, R573: Command entry setting a GPIO output. -/
  | gpioOutput (q : Nat)
  /-- ADC_SCAN_START, R573: Command entry starting an ADC scan list. -/
  | adcScanStart (q : Nat)
  /-- PWM_PERIOD_END, R569: A PWM period ends and pending duty and period take effect. -/
  | pwmPeriodEnd (n : Nat)
  /-- TIMER_CAPTURE, R569: A capture edge records the counter and emits a sample. -/
  | timerCapture (n : Nat) (rising : Bool) (count : BitVec 32)
  /-- TIMER_COMPARE_MATCH, R569: The counter matches and the output acts. -/
  | timerCompareMatch (n : Nat)
  /-- PULSE_SUMMARY, R570: A pulse input delivers its periodic summary. -/
  | pulseSummary (n : Nat) (edges period : Nat) (count : BitVec 32)
  /-- ADC_CONVERSION_DONE, R571: An ADC conversion completes and a sample is emitted. -/
  | adcConversionDone (ch sample : Nat) (count : BitVec 32)
  /-- ADC_REFERENCE_CHECK, R571: The 100 ms reference conversion checks the converter. -/
  | adcReferenceCheck (conv : Nat) (ok : Bool)
  /-- GPIO_INPUT_CHANGE, R572: A debounced input change emits an event. -/
  | gpioInputChange (n : Nat) (level : Bool) (count : BitVec 32)
  /-- OUTPUT_READBACK, R572: Output lands are read back every 10 µs. -/
  | outputReadback (levels : BitVec 48)
  /-- GNSS_MESSAGE_CLOSE, R576: Received GNSS bytes are closed into a message after 64 bytes or 5 ms. -/
  | gnssMessageClose (data : List Byte)
  /-- GNSS_PPS_EDGE, R576: A PPS edge is timestamped and binds a UTC second. -/
  | gnssPpsEdge (utc : Option Nat)
  /-- GNSS_PPS_LOSS, R576: A late or out-of-tolerance pulse invalidates PPS. -/
  | gnssPpsLoss
  /-- IGNITION_CHANGE, R588: A filtered ignition input changes and may wake or start key-off. -/
  | ignitionChange (pin : Nat) (level : Bool)
  /-- KEY_OFF_DELAY_EXPIRY, R588: The key-off delay expires and the module goes to Shutdown-Test. -/
  | keyOffDelayExpiry
  /-- PARK_TIME_EXPIRY, R588: The park time expires and the module goes Off. -/
  | parkTimeExpiry
  /-- PARK_WAKE, R590: A CAN dominant level or RTC alarm wakes the module. -/
  | parkWake (w : Wake)
  /-- SUPPLY_LOW, R580: The higher input falls below 7 V. -/
  | supplyLow (mv : Nat)
  /-- SUPPLY_LOSS, R580: Supply loss is signalled and the module runs from VRES. -/
  | supplyLoss
  /-- SUPPLY_HIGH, R580: An input above 60 V or 65 V is reported or switched out. -/
  | supplyHigh (input mv : Nat)
  /-- INPUT_LOST, R582: One input falls below 6 V while the other stays. -/
  | inputLost (input mv : Nat)
  /-- SUPPLY_RETURN, R583: The supply returns for 1 ms and a start follows. -/
  | supplyReturn
  /-- HOLDUP_LOW, R586: VRES stays below 39.5 V beyond 1 s. -/
  | holdupLow
  /-- DOMAIN_RELEASE, R593: A switched-on domain leaves reset when its rails regulate. -/
  | domainRelease (dom : Nat)
  /-- RAIL_FAULT, R594: A regulator out of regulation switches off its domains. -/
  | railFault (dom : Nat)
  /-- DOMAIN_SWITCH_FAULT, R594: A domain switch fails to reach its commanded state. -/
  | domainSwitchFault (dom : Nat)
  /-- PLL_UNLOCK, R596: A PLL unlocks or deviates and fails over to its twin. -/
  | pllUnlock (p : Nat)
  /-- XTAL_FAIL, R598: A crystal stops or deviates. -/
  | xtalFail (x : Nat)
  /-- THERMAL_WARN, R603: A junction exceeds 125 °C. -/
  | thermalWarn (tj : Int)
  /-- THERMAL_CRIT, R603: A junction exceeds 140 °C. -/
  | thermalCrit (tj : Int)
  /-- EXT3V3_FAULT, R604: V3V3_EXT out of regulation for 100 µs is switched off. -/
  | ext3v3Fault
  /-- EXT3V3_RETRY, R604: V3V3_EXT is retried every 100 ms. -/
  | ext3v3Retry (ok : Bool)
  /-- UNDEFINED_OPCODE, R139: An instruction word with an undefined primary or extended opcode executes and raises ILLEGAL. -/
  | undefinedOpcode (c : CtxId) (word : BitVec 32)
  /-- CARD_INSERTION, R539: A card is detected on CARDn_DET and the slot leaves EMPTY for PRESENT. -/
  | cardInsertion (n : Nat) (cls proto : Bool)
  /-- CARD_AUTHENTICATION_COMPLETE, R541: The card APDU exchange of METHOD 4 ends and the session is authenticated or refused, with CARD_IN written. -/
  | cardAuthenticationComplete (n : Nat) (reply : CardReply)
  /-- ATTESTATION_COMPLETE, R523: The report signatures finish and ATTEST receives its final response. -/
  | attestationComplete (pair tag : Nat)
  /-- LOOPBACK_COMPLETE, R577: The last loopback frame returns and LOOPBACK_RUN is answered with its RESULT. -/
  | loopbackComplete (pair tag : Nat) (bad : Nat)
  /-- PARTITION_RUNNING, R483: A started or restarted partition finishes loading and enters RUNNING, enabling its watchdogs with key 0xACE1. -/
  | partitionRunning (pid : Nat)
  /-- ETH_LINK_UP, R559: A switch port's link comes up and its state goes from LINK_DOWN to LINK_UP. -/
  | ethLinkUp (port : Nat)
  /-- PCIE_LINK_DOWN, R578: The PCIe link goes down and PCIE_LINK_DOWN is raised. -/
  | pcieLinkDown
  /-- PCIE_LINK_UP, R565: The PCIe link trains and comes up, setting PCI_STATUS.LINK_UP. -/
  | pcieLinkUp (gen width : Nat)
  /-- PCIE_AER_ERROR, R565: An AER error report arrives from the PCIe link or device and is counted and reported. -/
  | pcieAerError (uncorrectable : Bool)
  /-- ETH_FRAME_TRANSMITTED, R503: An Ethernet frame completes transmission at its egress port. -/
  | ethFrameTransmitted (port : Nat)
  /-- LIN_HEADER_RECEIVED, R558: A LIN slave synchronises to a received header and publishes its response for that frame ID. -/
  | linHeaderReceived (n : Nat) (id : Nat)
  /-- LIN_WAKE_UP, R558: A wake-up pulse on a sleeping LIN bus returns the controller from SLEEP to ACTIVE. -/
  | linWakeUp (n : Nat)
  /-- GNSS_TRANSMIT_CLAIM, R576: The GNSS UART claims a receiver-configuration message from its transmit queue and sends it. -/
  | gnssTransmitClaim
  /-- INPUT_RESTORED, R580: A battery input returns into range, ending SUPPLY_LOW, SUPPLY_HIGH or INPUT_LOST and closing its switch again. -/
  | inputRestored (input mv : Nat)
  /-- HOLDUP_END, R584: VRES falls to 2.0 V, the hold-up converter stops and the always-on domain loses its supply. -/
  | holdupEnd
  deriving DecidableEq, Repr

end Sys2Proof
end

