-- ==== Sys2Proof/Decode.lean ====
section
/-! DEFINITION. The instruction words of SCE128 (spec/02 R137 to R140, spec/05 R267): the command that a word and what
follows it spell for a context, or the detail of ILLEGAL. The opcode table of the spec gives no row any bits: a command
comes from outside, so no table word spells one. -/
namespace Sys2Proof

/-- The primary opcode of a first word, R137. -/
def opcodeOf (w : BitVec 32) : Nat := (w.extractLsb' 25 7).toNat

/-- RRR format (Table 02.22). -/
def Rrr.of (w : BitVec 32) : Rrr :=
  ⟨w.extractLsb' 20 5, w.extractLsb' 15 5, w.extractLsb' 10 5, w.extractLsb' 7 3, w.extractLsb' 0 7⟩

/-- RRRR format. -/
def Rrrr.of (w : BitVec 32) : Rrrr :=
  ⟨w.extractLsb' 20 5, w.extractLsb' 15 5, w.extractLsb' 10 5, w.extractLsb' 5 5, w.extractLsb' 2 3, w.extractLsb' 0 2⟩

/-- RRI format. -/
def Rri.of (w : BitVec 32) : Rri := ⟨w.extractLsb' 20 5, w.extractLsb' 15 5, w.extractLsb' 12 3, w.extractLsb' 0 12⟩

/-- MEM format. -/
def Mem.of (w : BitVec 32) : Mem := ⟨w.extractLsb' 20 5, w.extractLsb' 16 4, w.extractLsb' 14 2, w.extractLsb' 0 14⟩

/-- BR format. -/
def Br.of (w : BitVec 32) : Br := ⟨w.extractLsb' 20 5, w.extractLsb' 0 20⟩

/-- JR format. -/
def Jr.of (w : BitVec 32) : Jr := ⟨w.extractLsb' 20 5, w.extractLsb' 16 4, w.extractLsb' 0 16⟩

/-- CALLR and RET formats. -/
def CallR.of (w : BitVec 32) : CallR := ⟨w.extractLsb' 9 16, w.extractLsb' 5 4, w.extractLsb' 0 5⟩

/-- LOOPI format. -/
def LoopI.of (w : BitVec 32) : LoopI := ⟨w.extractLsb' 13 12, w.extractLsb' 2 11, w.extractLsb' 0 2⟩

/-- CSR format. -/
def CsrF.of (w : BitVec 32) : CsrF := ⟨w.extractLsb' 20 5, w.extractLsb' 8 12, w.extractLsb' 0 8⟩

/-- SYS format below FN. -/
def Sys.of (w : BitVec 32) : Sys := ⟨w.extractLsb' 9 16, w.extractLsb' 7 2⟩

/-- BIT format. -/
def BitF.of (w : BitVec 32) : BitF := ⟨w.extractLsb' 20 5, w.extractLsb' 16 4, w.extractLsb' 0 16⟩

/-- Queue format, R267. -/
def QueF.of (w : BitVec 32) : QueF := ⟨w.extractLsb' 20 5, w.extractLsb' 8 12, w.extractLsb' 5 3, w.extractLsb' 0 5⟩

/-- REP format, with the word behind the prefix. -/
def RepF.of (w next : BitVec 32) : RepF := ⟨w.getLsbD 24, w.extractLsb' 12 12, w.extractLsb' 0 12, next⟩

/-- The instruction of a listed FN; any other FN raises ILLEGAL with detail 2 (R139). -/
def listed (fn : Nat) (l : List Instr) : Except Nat Instr :=
  match l[fn]? with
  | some i => .ok i
  | none => .error 2

/-- Table 02.24: the long form with an extended opcode. -/
def decodeLong (c : CtxId) (w imm : BitVec 32) : Except Nat Instr :=
  let x := (w.extractLsb' 16 9).toNat
  let f : Long := ⟨w.extractLsb' 0 16, imm⟩
  if x = 0 then .ok (.call c f)
  else if x = 1 then .ok (.jl c f)
  else if x = 2 then .ok (.loop c f)
  else if x = 3 then .ok (.li c f)
  else if 0x10 ≤ x ∧ x ≤ 0x1F then .ok (.indexedAccess c (w.extractLsb' 16 4) f)
  else if 0x20 ≤ x ∧ x ≤ 0x2F then .ok (.pcRelativeAccess c (w.extractLsb' 16 4) f)
  else .error 1

/-- Opcodes 0x01 to 0x1E, integer and decimal (Tables 02.23, 03.1, 03.3). -/
def decodeInt (c : CtxId) (w : BitVec 32) : Except Nat Instr :=
  let f := Rrr.of w
  let i := Rri.of w
  let fn := f.fn.toNat
  match opcodeOf w with
  | 0x01 => listed fn [.add c f, .addC c f]
  | 0x02 => listed fn [.sub c f, .subB c f]
  | 0x03 => listed fn [.addsat c f, .addsat c f]
  | 0x04 => listed fn [.subsat c f, .subsat c f]
  | 0x05 => listed fn [.andd c f]
  | 0x06 => listed fn [.orr c f]
  | 0x07 => listed fn [.xorr c f]
  | 0x08 => listed fn [.andn c f]
  | 0x09 => listed fn [.shl c f, .shl c f]
  | 0x0A => listed fn [.shr c f, .shr c f]
  | 0x0B => listed fn [.shra c f, .shra c f]
  | 0x0C => listed fn [.rot c f, .rot c f]
  | 0x0D => listed fn [.min c f, .min c f]
  | 0x0E => listed fn [.max c f, .max c f]
  | 0x0F => listed fn [.neg c f, .abs c f, .abssat c f, .nott c f, .clz c f, .ctz c f, .dvinitU c f, .dvinitS c f]
  | 0x10 => .ok (.addi c i)
  | 0x11 => .ok (.andi c i)
  | 0x12 => .ok (.ori c i)
  | 0x13 => .ok (.xori c i)
  | 0x14 => .ok (.shli c i)
  | 0x15 => .ok (.shri c i)
  | 0x16 => .ok (.shrai c i)
  | 0x17 => .ok (.movi c i)
  | 0x18 => listed fn [.mul c f]
  | 0x19 => listed fn [.mulh c f, .mulh c f, .mulh c f]
  | 0x1A => listed fn [.mac c f, .mac c f, .mac c f, .mac c f]
  | 0x1B => listed fn [.macs c f, .macs c f, .macs c f, .macs c f]
  | 0x1C => listed fn [.divs c f, .divs c f]
  | 0x1D => .ok (.dive c f)
  | 0x1E => listed (fn % 4) [.dadd c f, .dsub c f, .dtob c f, .btod c f]
  | _ => .error 1

/-- Opcodes 0x20 to 0x4B: memory, floating point, compare, move and field instructions. The FN field of a floating-point
instruction holds its rounding and form, which its meaning checks. -/
def decodeData (c : CtxId) (w : BitVec 32) : Except Nat Instr :=
  let f := Rrr.of w
  let i := Rri.of w
  let a := Mem.of w
  match opcodeOf w with
  | 0x20 => .ok (.ldB c a)
  | 0x21 => .ok (.ldBu c a)
  | 0x22 => .ok (.ldH c a)
  | 0x23 => .ok (.ldHu c a)
  | 0x24 => .ok (.ldW c a)
  | 0x25 => .ok (.ldWu c a)
  | 0x26 => .ok (.ldD c a)
  | 0x27 => .ok (.ldQ c a)
  | 0x28 => .ok (.stB c a)
  | 0x29 => .ok (.stH c a)
  | 0x2A => .ok (.stW c a)
  | 0x2B => .ok (.stD c a)
  | 0x2C => .ok (.stQ c a)
  | 0x2D => .ok (.sta c a)
  | 0x2E => .ok (.lda c a)
  | 0x2F => .ok (.lea c a)
  | 0x30 => .ok (.fadd c f)
  | 0x31 => .ok (.fsub c f)
  | 0x32 => .ok (.fmul c f)
  | 0x33 => .ok (.fdiv c f)
  | 0x34 => .ok (.fsqrt c f)
  | 0x35 => .ok (.fma c f)
  | 0x36 => .ok (.fmin c f)
  | 0x37 => .ok (.fmax c f)
  | 0x38 => .ok (.fcvt c f)
  | 0x39 => .ok (.fcmp c f)
  | 0x3A => .ok (.fclass c f)
  | 0x3B => .ok (.fsgn c f)
  | 0x40 => .ok (.cmp c f)
  | 0x41 => .ok (.cmpi c i)
  | 0x42 => .ok (.sel c (Rrrr.of w))
  | 0x43 => .ok (.mov c f)
  | 0x44 => .ok (.shuf c f)
  | 0x45 => .ok (.ins c i)
  | 0x46 => .ok (.ext c i)
  | 0x48 => .ok (.crcs c f)
  | 0x49 => .ok (.par c f)
  | 0x4A => .ok (.brev c f)
  | 0x4B => .ok (.bcnt c f)
  | _ => .error 1

/-- Opcodes 0x50 to 0x7F: control flow, queue, control-register, system and bit instructions, REP and the long forms. `next`
is the word behind the first one, `at_` the word at the pc of the frame that an ERET returns to. A CSRW is the row of the
register that it names. -/
def decodeControl (c : CtxId) (w next at_ : BitVec 32) : Except Nat Instr :=
  let q := QueF.of w
  let s := Sys.of w
  let b := BitF.of w
  match opcodeOf w with
  | 0x50 => .ok (.bz c (Br.of w))
  | 0x51 => .ok (.bnz c (Br.of w))
  | 0x52 => .ok (.callr c (CallR.of w))
  | 0x53 => .ok (.ret c (CallR.of w))
  | 0x54 => .ok (.j c (w.extractLsb' 0 25))
  | 0x55 => .ok (.jr c (Jr.of w))
  | 0x56 => .ok (.loopi c (LoopI.of w))
  | 0x57 => .ok (.lbreak c (w.extractLsb' 0 25))
  | 0x58 => listed q.fn.toNat [.enq c q]
  | 0x59 => listed q.fn.toNat [.deq c q, .deqRel c q]
  | 0x5A => listed q.fn.toNat [.doorbell c q]
  | 0x5B => listed q.fn.toNat [.qstatProducer c q, .qstatConsumer c q]
  | 0x5C => .ok (.csrr c (CsrF.of w))
  | 0x5D =>
    let f := CsrF.of w
    .ok (if f.csr = 0 then .statusWrite c f else if f.csr = 0x101 then .pmovfWrite c f 0 else .csrw c f)
  | 0x5E => listed (w.extractLsb' 0 7).toNat
      [.syscall c s, .eret c s at_, .fence c s, .iflush c s, .waitt c s, .bkpt c s]
  | 0x60 => .ok (.btst c b)
  | 0x61 => .ok (.bset c b)
  | 0x62 => .ok (.bclr c b)
  | 0x63 => .ok (.binv c b)
  | 0x7E => .ok (.rep c (RepF.of w next))
  | 0x7F => decodeLong c w next
  | _ => .error 1

/-- R137 to R140, R267: the instruction that a first word spells. -/
def decodeInstr (c : CtxId) (w next at_ : BitVec 32) : Except Nat Instr :=
  if opcodeOf w < 0x20 then decodeInt c w
  else if opcodeOf w < 0x50 then decodeData c w
  else decodeControl c w next at_

/-- The command spelled by a word of `nbits` bits: none, since no row of the table has bits. -/
def decodeTableWord (_nbits _w : Nat) : Option Instr := none

end Sys2Proof
end

