-- ==== Sys2Proof/Machine/Bits.lean ====
section
/-! DEFINITION. Plain arithmetic on natural numbers read as bit strings: fields, sign extension, register
words built from fields, bytes in little-endian order (spec/00 Notation), saturating counters, CRC. -/
namespace Sys2Proof.Machine

/-- Bits `[lo + len - 1 : lo]` of `n`. -/
def bits (n lo len : Nat) : Nat := n / 2 ^ lo % 2 ^ len

/-- Bit `i` of `n`. -/
def bit (n i : Nat) : Bool := bits n i 1 == 1

/-- `n` with bits `[lo + len - 1 : lo]` replaced by `v`. -/
def setBits (n lo len v : Nat) : Nat :=
  n % 2 ^ lo + v % 2 ^ len * 2 ^ lo + n / 2 ^ (lo + len) * 2 ^ (lo + len)

/-- The number 1 for true. -/
def b2n (b : Bool) : Nat := if b then 1 else 0

/-- The value of the low `w` bits of `n` read in two's complement. -/
def toInt (w n : Nat) : Int :=
  let m := n % 2 ^ w
  if m < 2 ^ (w - 1) then (m : Int) else (m : Int) - (2 ^ w : Nat)

/-- The low `w` bits of an integer. -/
def ofInt (w : Nat) (i : Int) : Nat := (i % ((2 ^ w : Nat) : Int)).toNat

/-- Sign extension of a `w`-bit value to `v` bits. -/
def sext (w v n : Nat) : Nat := ofInt v (toInt w n)

/-- A word made of fields, the lowest first, each a width and a value. -/
def pack : List (Nat × Nat) → Nat
  | [] => 0
  | (w, v) :: r => v % 2 ^ w + pack r * 2 ^ w

/-- Units of the time base in a second. -/
def second : Nat := 62500000

/-- A counter of `w` bits that saturates. -/
def satAdd (w n k : Nat) : Nat := min (n + k) (2 ^ w - 1)

/-- A counter of `w` bits that saturates, counted once. -/
def satInc (w n : Nat) : Nat := satAdd w n 1

/-- A counter of `w` bits that wraps. -/
def wrapInc (w n : Nat) : Nat := (n + 1) % 2 ^ w

/-- Bits of `n` below `w`, each as a Bool, bit 0 first. -/
def bitList (w n : Nat) : List Bool := (List.range w).map (bit n)

/-- The number whose bits are the list, bit 0 first. -/
def ofBitList : List Bool → Nat
  | [] => 0
  | b :: r => b2n b + 2 * ofBitList r

/-- How many of the low `w` bits of `n` are one. -/
def popcount (w n : Nat) : Nat := (bitList w n).foldl (fun a b => a + b2n b) 0

/-- The `len` bytes of `n`, lowest first. -/
def leBytes (len n : Nat) : List Byte := (List.range len).map fun i => BitVec.ofNat 8 (n / 2 ^ (8 * i))

/-- The number whose bytes are the list, lowest first. -/
def ofLe : List Byte → Nat
  | [] => 0
  | b :: r => b.toNat + 256 * ofLe r

/-- The `len` bytes at `off` of a byte string read as a little-endian number; bytes beyond its end are 0. -/
def leAt (l : List Byte) (off len : Nat) : Nat := ofLe ((l.drop off).take len)

/-- A byte string with `src` written over it at `off`; it does not grow. -/
def overlay (l : List Byte) (off : Nat) (src : List Byte) : List Byte :=
  l.take off ++ (src.take (l.length - off)) ++ l.drop (off + src.length)

/-- A byte string brought to length `n`: cut, or filled with zero bytes. -/
def fit (n : Nat) (l : List Byte) : List Byte := l.take n ++ List.replicate (n - l.length) 0

/-- One step of a CRC that processes each byte its low bit first, `rpoly` the bit-reversed polynomial. -/
def crcBitLsb (rpoly crc : Nat) : Nat := if crc % 2 = 1 then (crc / 2) ^^^ rpoly else crc / 2

/-- One byte of a CRC, low bit first. -/
def crcByteLsb (rpoly crc b : Nat) : Nat :=
  (List.range 8).foldl (fun c _ => crcBitLsb rpoly c) (crc ^^^ b)

/-- One step of a `w`-bit CRC that processes each byte its high bit first. -/
def crcBitMsb (w poly crc : Nat) : Nat :=
  if bit crc (w - 1) then ((crc * 2) ^^^ poly) % 2 ^ w else crc * 2 % 2 ^ w

/-- One byte of a CRC, high bit first. -/
def crcByteMsb (w poly crc b : Nat) : Nat :=
  (List.range 8).foldl (fun c _ => crcBitMsb w poly c) (crc ^^^ (b * 2 ^ (w - 8)))

/-- The low `w` bits of `n` in reversed order. -/
def bitRev (w n : Nat) : Nat := ofBitList (bitList w n).reverse

/-- CRC-32C of a byte string with its init and final XOR (spec/02 Table 02.12). -/
def crc32c (l : List Byte) : BitVec 32 :=
  BitVec.ofNat 32
    (l.foldl (fun c b => crcByteLsb (bitRev 32 0x1EDC6F41) c b.toNat) 0xFFFFFFFF ^^^ 0xFFFFFFFF)

/-- A list with its `i`-th entry replaced. -/
def setAt {α : Type} (l : List α) (i : Nat) (a : α) : List α := l.set i a

end Sys2Proof.Machine
end

