-- ==== Sys2Proof/Machine/Map.lean ====
section
/-! DEFINITION. Sparse data by key: a list of key and value pairs in one canonical form (keys strictly
rising, no entry equal to what an unlisted key reads as). Registers, queues and memory are held so. -/
namespace Sys2Proof.Machine

/-- A map from numbers to values; a key that is not listed reads as the default value. -/
abbrev SMap (α : Type) := List (Nat × α)

namespace SMap
variable {α : Type} [Inhabited α]

/-- The value at a key. -/
def get : SMap α → Nat → α
  | [], _ => default
  | (k', v) :: r, k => if k' = k then v else get r k

/-- Lists a value at a key, in key order. -/
def put : SMap α → Nat → α → SMap α
  | [], k, v => [(k, v)]
  | (k', v') :: r, k, v =>
    if k' < k then (k', v') :: put r k v
    else if k' = k then (k, v) :: r
    else (k, v) :: (k', v') :: r

/-- Takes a key off the list. -/
def del (m : SMap α) (k : Nat) : SMap α := m.filter fun e => e.1 != k

/-- Writes a value at a key. The default value is not listed. -/
def set [DecidableEq α] (m : SMap α) (k : Nat) (v : α) : SMap α :=
  if v = default then m.del k else m.put k v

/-- Changes the value at a key. -/
def upd [DecidableEq α] (m : SMap α) (k : Nat) (f : α → α) : SMap α := m.set k (f (m.get k))

/-- The keys rise strictly. -/
def rising : SMap α → Bool
  | [] => true
  | [_] => true
  | (k, _) :: (k', v') :: r => k < k' && rising ((k', v') :: r)

/-- The canonical form. -/
def wf [DecidableEq α] (m : SMap α) : Bool := m.rising && m.all fun e => e.2 ≠ default

/-- A map that lists the keys below `n` with the given values. -/
def tab [DecidableEq α] (n : Nat) (f : Nat → α) : SMap α :=
  ((List.range n).map fun i => (i, f i)).filter fun e => e.2 ≠ default

/-- The keys whose values pass a test, in order. -/
def keysWhere (m : SMap α) (p : α → Bool) : List Nat := (m.filter fun e => p e.2).map (·.1)

end SMap
end Sys2Proof.Machine
end

