-- ==== Sys2Proof/Machine/StateCore.lean ====
section
/-! DEFINITION. State of an execution context: the registers of SCE128 (spec/02 Tables 02.1, 02.4), what the pipeline
holds (spec/04), its interrupt controller, and the event flags with overrun counters that many blocks share. -/
namespace Sys2Proof.Machine

/-- W1C event flags and their 8-bit (or 4-bit) overrun counters (R18, R80, R241). -/
structure Evt where
  flags : Nat
  ovr : SMap Nat
  deriving DecidableEq, Repr, Inhabited

/-- STATUS.MODE (Table 02.5). The reserved code cannot be held. -/
inductive Mode where
  | str
  | user
  | supervisor
  deriving DecidableEq, Repr, Inhabited

/-- The registers of one context (R81, Tables 02.4, 03.5, 04.9), and the repeat prefix in force. What an exception in
a load's shadow takes back is exactly this record (R103). -/
structure Regs where
  /-- D0 to D31 -/
  d : SMap Quad
  /-- A0 to A14 -/
  a : SMap Word
  /-- A15 as Supervisor and STR modes see it (R83) -/
  a15s : Word
  /-- A15 as User mode sees it; CSR USP -/
  a15u : Word
  acc : SMap Acc
  ls : SMap Addr
  le : SMap Addr
  lc : SMap (BitVec 32)
  bk : SMap (BitVec 16)
  repcnt : BitVec 16
  /-- address of the next instruction to execute -/
  pc : Addr
  mode : Mode
  ie : Bool
  ipl : Nat
  ldepth : Nat
  repact : Bool
  det : Bool
  ecause : Word
  eaddr : Word
  evbase : Word
  slimu : Word
  slims : Word
  crcpoly : Word
  crcpolyv : Word
  fpcr : Word
  fpsr : Word
  fpti : Word
  pmctl : Word
  pmovf : Word
  pmc : SMap Word
  pmsel : SMap Word
  /-- address of the REP prefix whose iterations are under way (R122) -/
  rep : Option Addr
  /-- handler instructions still to retire before a maskable interrupt is taken (R226) -/
  holdoff : Nat
  deriving DecidableEq, Repr, Inhabited

/-- An endpoint's dequeue that takes effect when the DEQ retires (R213, R270): it releases every claimed slot of its queue, and
claims one slot or none. -/
structure DeqDefer where
  q : Nat
  claim : Nat
  /-- the consumer and its handle, for VOID_RX (R266) -/
  pid : Nat
  handle : Nat
  deriving DecidableEq, Repr, Inhabited

/-- A load that has executed and whose shadow has not (R100): its destination and value, the halves whose data have
not arrived (R216), the registers as before it, and its deferred dequeue. -/
structure PendLoad where
  isA : Bool
  reg : Nat
  value : Quad
  wait : List Nat
  before : Regs
  deq : Option DeqDefer
  deriving DecidableEq, Repr, Inhabited

/-- A load issued to the PCIe window and not answered (R212): opcode, destination, address, base update, halves
answered so far. -/
structure PcieLoad where
  op : Nat
  reg : Nat
  addr : Nat
  base : Option (Nat × Word)
  /-- address of the instruction after the load -/
  next : Addr
  got : SMap (Option Quad)
  errs : List Nat
  deriving DecidableEq, Repr, Inhabited

/-- One entry of the store buffer: an aligned 16-byte word and a byte mask (R210). -/
structure SbEntry where
  addr : Nat
  mask : BitVec 16
  data : Quad
  deriving DecidableEq, Repr, Inhabited

/-- An access window of a context: [base, base + size), the accesses it allows, cacheable, traffic class (R93, R207,
R247). -/
structure Window where
  base : Nat
  size : Nat
  read : Bool
  write : Bool
  exec : Bool
  cacheable : Bool
  cls : Nat
  deriving DecidableEq, Repr, Inhabited

/-- Routing of one interrupt source (R222): enabled, level, class-0. -/
structure IrqCfg where
  enabled : Bool
  level : Nat
  class0 : Bool
  deriving DecidableEq, Repr, Inhabited

/-- The taken branches that the branch target buffer records (R198). -/
inductive BrKind where
  | bz
  | bnz
  | j
  | jl
  | jr
  | call
  | callr
  | ret
  deriving DecidableEq, Repr, Inhabited

/-- An entry of the branch target buffer: PC[47:12], type and target (R198). -/
structure BtbEntry where
  tag : Nat
  kind : BrKind
  target : Addr
  deriving DecidableEq, Repr, Inhabited

/-- One execution context. -/
structure Ctx where
  r : Regs
  load : Option PendLoad
  pcie : Option PcieLoad
  sb : List SbEntry
  /-- lines held in the four line buffers, most recently used first, those requested, oldest first, and those of the L1
  instruction cache, most recently filled first (R197, R201) -/
  lines : List Nat
  lineReq : List Nat
  l1i : List Nat
  /-- branch target buffer by set, most recently used first; return stack, top first; direction predictor by PC[11:2]
  (R198) -/
  btb : SMap (List BtbEntry)
  ras : List Addr
  dir : SMap Bool
  /-- words that the L1 data cache or the L2 holds for the context, by address / 16 (R207, R208) -/
  dcache : SMap (Option Quad)
  /-- words of the L1 data cache that memory does not hold yet, by address / 16 (R218) -/
  dirty : SMap Bool
  /-- line in which the last instruction began (R234) -/
  curLine : Option Nat
  irqPend : SMap Bool
  irqCfg : SMap IrqCfg
  nmi : Bool
  /-- stopped by WAIT (R227) -/
  waiting : Bool
  /-- stopped by a failed exception entry (R148) -/
  stopped : Bool
  /-- partition that runs on the context -/
  pid : Nat
  windows : List Window
  /-- application bank that the window of Table 06.4 reaches: 0 none, 1 A, 2 B (R339) -/
  appWin : Nat
  deriving DecidableEq, Repr, Inhabited

/-- A record of the active configuration blob: TYPE, LEN and the body as a little-endian number (Tables 08.15, 08.16). -/
structure CfgRec where
  ty : Nat
  len : Nat
  body : Nat
  deriving DecidableEq, Repr, Inhabited

/-- The part: stepping, DRAM option and life-cycle state (Tables 02.13, 02.14, 02.21, R513). -/
structure Part where
  stepLetter : Nat
  stepDigit : Nat
  /-- TVP-DG9-40B (8 GiB of DRAM) rather than 40A -/
  dramB : Bool
  /-- FEAT7.LIFECYCLE is factory -/
  factory : Bool
  deriving DecidableEq, Repr, Inhabited

end Sys2Proof.Machine
end

