-- ==== Sys2Proof/Machine/StateStudio.lean ====
section
/-! DEFINITION. State of the voting core complex: group slots, cores, re-seats, rotation and partitions (spec/01). -/
namespace Sys2Proof.Machine

/-- STU_GRPn_STATUS.STATE (Table 01.12). -/
inductive GState where
  | unused
  | full
  | degraded
  | reseating
  | halted
  | lost
  deriving DecidableEq, Repr, Inhabited

/-- STU_MODE codes (Table 01.8). -/
inductive StMode where
  | t
  | d
  | q
  deriving DecidableEq, Repr, Inhabited

/-- STU_COREc.ROLE (Table 01.18). -/
inductive Role where
  | active
  | ready
  | testing
  | excluded
  | qm
  | shadow
  | untested
  deriving DecidableEq, Repr, Inhabited

/-- Results of a test (RESULT of Table 01.18). -/
inductive TestRes where
  | none
  | pass
  | fail
  | incomplete
  deriving DecidableEq, Repr, Inhabited

/-- A group slot (Tables 01.12 to 01.17). -/
structure Group where
  state : GState
  det : Bool
  pair : Bool
  pid : Nat
  /-- the slot holds the shadow pair of an underpainting, or a frozen revert point (R433, R441) -/
  shadow : Bool
  /-- cores in lanes A, B, C -/
  laneA : Option Nat
  laneB : Option Nat
  laneC : Option Nat
  cntFault : Nat
  cntPlanned : Nat
  lastCause : Nat
  lastLane : Nat
  lastAborted : Bool
  lastOld : Nat
  lastNew : Nat
  lastPause : Nat
  lastTime : Nat
  evt : Evt
  /-- an Easel session has halted the group, or a debug halt is deferred by a re-seat (R72, R73) -/
  halt : Bool
  haltDefer : Bool
  /-- the state that a re-seat or a halt interrupts -/
  under : GState
  /-- named re-seats that wait for a READY spare: lane and cause (R47) -/
  held : List (Nat × Nat)
  /-- core that the missing lane of a degraded triad held -/
  missing : Option Nat
  deriving DecidableEq, Repr, Inhabited

/-- A core (Table 01.18), the last triples of its BIST (R62, R447), consecutive INCOMPLETE results (R64), and the QM
partition to restart when it passes (R48). -/
structure Core where
  role : Role
  slot : Nat
  lane : Nat
  result : TestRes
  lastPass : Nat
  incomplete : Nat
  logic : Option Triple
  mem : Option Triple
  qmPid : Nat
  clockStopped : Bool
  overdue : Bool
  /-- rotations that a restart of Exesh has deferred since the last PASS (R402) -/
  grace : Nat
  deriving DecidableEq, Repr, Inhabited

/-- A re-seat under way in a studio (Table 01.3). -/
structure Reseat where
  slot : Nat
  lane : Nat
  /-- core that leaves; none where the lane is vacant -/
  old : Option Nat
  new : Nat
  /-- 1 fault, 2 rotation, 3 Exesh command -/
  cause : Nat
  /-- the leaving lane is fenced: it no longer takes part -/
  fenced : Bool
  t0 : Nat
  frozen : Option Nat
  /-- the newcomer that Table 08.9 names -/
  prefer : Option Nat
  deriving DecidableEq, Repr, Inhabited

/-- A studio: mode, suspension of rotation, the re-seat under way and those that wait, planned re-seats chosen for the next
boundary of their groups, and how many due times of the rotation have passed since S15 (R58). -/
structure Studio where
  mode : StMode
  susp : Nat
  reseat : Option Reseat
  waiting : List Reseat
  planned : List Reseat
  /-- the studio's next rotation is due for the group that releases its partner-studio core (R443) -/
  returnFirst : Option Nat
  rotDone : Nat
  deriving DecidableEq, Repr, Inhabited

/-- Run states of a partition (Table 07.12). -/
inductive PState where
  | stopped
  | starting
  | running
  | lost
  deriving DecidableEq, Repr, Inhabited

/-- A partition: run state, restarts since start, a restart request waiting for spares (R44). -/
structure Partn where
  state : PState
  restarts : Nat
  waitRestart : Bool
  deriving DecidableEq, Repr, Inhabited

/-- The voting core complex. -/
structure Stu where
  studio : SMap Studio
  grp : SMap Group
  core : SMap Core
  rotInterval : Nat
  /-- S11 has filled the studio registers (R77) -/
  filled : Bool
  part : SMap Partn
  deriving DecidableEq, Repr, Inhabited

end Sys2Proof.Machine
end

