-- ==== Sys2Proof/Machine/StateBoot.lean ====
section
/-! DEFINITION. State of start, staging, underpainting, glaze and shutdown test (spec/08). -/
namespace Sys2Proof.Machine

/-- STATE of UPDATE_STATUS (Table 07.13). -/
inductive BankSt where
  | empty
  | staging
  | verified
  | failed
  | active
  deriving DecidableEq, Repr, Inhabited

/-- A code-store bank or configuration slot: state, end of the chunks staged, TOTAL, its staging seal (R430), and the
command whose last chunk is being verified. -/
structure CodeBank where
  st : BankSt
  next : Nat
  size : Nat
  mac : Option Nat
  cmd : Option (Nat × Nat)
  deriving DecidableEq, Repr, Inhabited

/-- A pentimento record (Table 08.3). -/
structure Pent where
  step : Nat
  attempt : Nat
  cause : Nat
  unit : Nat
  utc : Nat
  start : Nat
  action : Nat
  deriving DecidableEq, Repr, Inhabited

/-- An entry of the shutdown-test record (R447). -/
structure DomRes where
  result : TestRes
  triple : Triple
  deriving DecidableEq, Repr, Inhabited

/-- Status of the shutdown-test record (R447). -/
inductive RecStatus where
  | complete
  | abortedIgn
  | abortedSupply
  deriving DecidableEq, Repr, Inhabited

/-- A start-up BIST of a domain (R449, R450). -/
inductive StartBist where
  | none
  /-- running; the flag tells that it is the repeat of an INCOMPLETE -/
  | due (again : Bool)
  | pass
  | fail
  deriving DecidableEq, Repr, Inhabited

/-- A shutdown test under way: domains still to end, domains repeated once. -/
structure ShutTest where
  left : List Nat
  repeated : List Nat
  deriving DecidableEq, Repr, Inhabited

/-- STATE of SHADOW_STATUS (Table 07.13). -/
inductive UnderSt where
  | idle
  | settingUp
  | running
  | passed
  | revertWindow
  | aborted
  | mismatch
  deriving DecidableEq, Repr, Inhabited

/-- A queue of an underpainting: the queue, its mirror target or twin, which of them it is, digest entries of the queue
and of the twin, and the fields that an end of the run restores. -/
structure UnderQ where
  q : Nat
  link : Nat
  output : Bool
  dig : Nat
  digTwin : Nat
  prod1 : Nat
  cons1 : Nat
  flipgrp : Nat
  digest : Bool
  digidx : Nat
  deriving DecidableEq, Repr, Inhabited

/-- The underpainting, glaze and revert window (R432 to R443). -/
structure Under where
  st : UnderSt
  pid : Nat
  bank : Nat
  auto : Bool
  probation : Nat
  compared : Nat
  /-- boundaries of the warm-up still to pass (R436) -/
  warm : Nat
  period : Nat
  cause : Nat
  misQid : Nat
  misPeriod : Nat
  /-- the partition's live slot -/
  slot : Nat
  qs : List UnderQ
  startCmd : Option (Nat × Nat)
  /-- a glaze commanded: by GLAZE (its pair and tag) or by AUTO_GLAZE -/
  glazing : Bool
  glazeCmd : Option (Nat × Nat)
  /-- time at which the engine accepted a revert, and the command that asked for it -/
  revertAt : Option Nat
  revertCmd : Option (Nat × Nat)
  /-- the revert point has been released -/
  released : Bool
  /-- a minority of the new triad has taken the old lane A core: lane C is not replaced at B1 (Table 08.11) -/
  keepC : Bool
  /-- the glaze has committed, and the re-seat of lane C is under way (Table 08.9 steps 4 and 5) -/
  closing : Bool
  /-- core that took lane B at the glaze -/
  laneB : Nat
  /-- time at which the set-up was complete, and the boundaries of the flip group that the run has dealt with -/
  setAt : Nat
  seen : Nat
  deriving DecidableEq, Repr, Inhabited

/-- Start, images and tests. -/
structure Boot where
  /-- start step that is due -/
  due : Option Nat
  t0 : Nat
  /-- end of S15 (R68) -/
  doneAt : Nat
  /-- lines of the application banks that have answered an uncorrectable read and are to be rewritten (R343) -/
  rewrite : List Nat
  attempts : SMap Nat
  pent : List Pent
  /-- slot that is active and the fallback (R429) -/
  cfgActive : Nat
  cfgFallback : Option Nat
  /-- Exesh bank that S05 and S06 try first (R444) -/
  exeshFirst : Nat
  meas : SMap Nat
  recovery : Bool
  /-- 0 and 1 the Exesh banks, 2 and 3 the application banks, 4 and 5 the configuration slots -/
  bank : SMap CodeBank
  /-- application bank of a partition persisted by a glaze (R339, R440): 1 A, 2 B, 0 as the blob says -/
  bind : SMap Nat
  /-- a glaze has exchanged the live and the shadow windows of a partition since the last start (R441) -/
  winSwap : SMap Bool
  /-- partitions whose window this start has bound to the other bank (the alternative of S13) -/
  alt : SMap Bool
  /-- the latest shutdown-test record, by domain (R447) -/
  shutRec : SMap DomRes
  shutStatus : RecStatus
  /-- start-up BISTs by domain -/
  bist : SMap StartBist
  test : Option ShutTest
  /-- banks whose payload digests are still to be recomputed after S15 (R414) -/
  audit : List Nat
  under : Under
  deriving DecidableEq, Repr, Inhabited

end Sys2Proof.Machine
end

