-- ==== Sys2Proof/Machine/StateFabric.lean ====
section
/-! DEFINITION. State of the queue fabric: descriptors with what the fabric holds of each queue, handle tables,
digest entries, flip groups, links and the event registers of each context (spec/05). -/
namespace Sys2Proof.Machine

/-- A publication accepted and not yet checked: expected sequence number, endpoint that published, its handle. -/
structure Pub where
  seq : Nat
  ep : Nat
  handle : Nat
  deriving DecidableEq, Repr, Inhabited

/-- A message that the mirror engine has still to copy: the slot's bytes and the void code (R286). -/
structure MirrorItem where
  bytes : List Byte
  code : Nat
  deriving DecidableEq, Repr, Inhabited

/-- A queue: its descriptor (Tables 05.3, 05.4), its token bucket (R281), publications in flight, void codes of its
visible slots by index, and copies still to be made. -/
structure Queue where
  valid : Bool
  cls : Nat
  slotLog : Nat
  depthLog : Nat
  /-- ring in DRAM -/
  dram : Bool
  check : Bool
  notify : Bool
  /-- bits [47:6] of the ring base -/
  base : Nat
  flipgrp : Nat
  prod0 : Nat
  cons0 : Nat
  prod1 : Nat
  cons1 : Nat
  link : Nat
  linkmode : Nat
  digest : Bool
  digidx : Nat
  twin : Bool
  wr : Nat
  vis : Nat
  rd : Nat
  rel : Nat
  seq : Nat
  budget : Nat
  budgetWin : Nat
  crcErr : Nat
  seqErr : Nat
  otherErr : Nat
  broken : Bool
  credits : Nat
  /-- when the bucket was filled, and the refill intervals that have passed since (R281) -/
  filledAt : Nat
  refills : Nat
  pubs : List Pub
  voids : SMap Nat
  mirror : List MirrorItem
  deriving DecidableEq, Repr, Inhabited

/-- A digest entry (R289, R290). -/
structure Digest where
  acc : Nat
  count : Nat
  latAcc : Nat
  latCount : Nat
  mask : Nat
  deriving DecidableEq, Repr, Inhabited

/-- A flip group (R291, R292): generation bit, the time at which the engine accepted a commanded flip, period and phase in µs
(period 0 for a group that Exesh has not set), and how many of its boundaries have been taken. -/
structure FlipGrp where
  gen : Bool
  pending : Option Nat
  period : Nat
  phase : Nat
  taken : Nat
  deriving DecidableEq, Repr, Inhabited

/-- An entry of a handle table (R253): queue, direction (0 unbound, 1 producer, 2 consumer), and the interrupt source
routed for it (0 for none). -/
structure Handle where
  q : Nat
  dir : Nat
  irq : Nat
  deriving DecidableEq, Repr, Inhabited

/-- A directed link (R248): wires moved to spares, the times of each wire's last corrections, disabled. -/
structure LinkSt where
  spared : List Nat
  corr : SMap (List Nat)
  failed : Bool
  deriving DecidableEq, Repr, Inhabited

/-- FAB_MY_* of a partition (Tables 05.20, 05.21). -/
structure FabMy where
  evt : Evt
  lastErr : Nat
  lastTime : Nat
  deriving DecidableEq, Repr, Inhabited

/-- The fabric. Handle tables are keyed by 4096 × endpoint + handle, FAB_MY by partition ID, links by
6 × (6 × y + x) + direction with 0 east, 1 west, 2 south, 3 north. -/
structure Fab where
  q : SMap Queue
  handles : SMap Handle
  digest : SMap Digest
  /-- the mask that DIGEST_MASK_SET gave a queue -/
  qmask : SMap Nat
  flip : SMap FlipGrp
  links : SMap LinkSt
  weights : Nat
  my : SMap FabMy
  deriving DecidableEq, Repr, Inhabited

end Sys2Proof.Machine
end

