-- ==== Sys2Proof/Machine/StateMbx.lean ====
section
/-! DEFINITION. State of the supervisor's command interface: sessions, role keys, outstanding commands, the mailbox
bridge and Easel (spec/07). -/
namespace Sys2Proof.Machine

/-- An open session (R375, R376, R382). -/
structure Session where
  handle : Nat
  role : Nat
  pair : Nat
  ep : Nat
  /-- card slot of a Driver session -/
  card : Nat
  /-- 48 challenge bytes as a number -/
  challenge : Nat
  auth : Bool
  openTime : Nat
  /-- time of the last claimed request that carried the handle -/
  lastTime : Nat
  idleS : Nat
  /-- KEYIDX of the key that proved it -/
  key : Option Nat
  deriving DecidableEq, Repr, Inhabited

/-- What an outstanding command waits for (R367). -/
inductive Phase where
  /-- claimed, its effect not yet made -/
  | claimed
  /-- under way: the event of its family completes it -/
  | running
  deriving DecidableEq, Repr, Inhabited

/-- An outstanding command: request header fields and payload, requester, and the Ethernet port and source address of
an Easel request received so (R395). -/
structure Cmd where
  pair : Nat
  tag : Nat
  op : Nat
  session : Nat
  ep : Nat
  payload : List Byte
  phase : Phase
  deriving DecidableEq, Repr, Inhabited

/-- A role's public key (R384): ALG, 0 for none, and its bytes. -/
structure RoleKey where
  alg : Nat
  key : List Byte
  deriving DecidableEq, Repr, Inhabited

/-- Why Exesh restarts (Table 07.1). -/
inductive RestartKind where
  | switch
  | resync
  | unplanned
  deriving DecidableEq, Repr, Inhabited

/-- A restart of Exesh (R404, R405): kind, bank selected, tag of EXESH_SWITCH and its pair, whether the lanes have been
reset, time of the start of the drain, whether the drain has ended. -/
structure Restart where
  kind : RestartKind
  bank : Nat
  cmd : Option (Nat × Nat)
  reset : Bool
  t0 : Nat
  drained : Bool
  deriving DecidableEq, Repr, Inhabited

/-- The mailboxes and Exesh (Tables 07.19 to 07.23). -/
structure Mbx where
  /-- MBX_STATUS.STATE -/
  state : Nat
  bank : Nat
  step : Nat
  /-- supervisor lanes that agree -/
  lanes : Nat
  restarts : Nat
  ver : Nat
  out : List Cmd
  sessions : List Session
  /-- consecutive AUTH_FAILED and end of the lockout, key 8 × pair + role (R383) -/
  fails : SMap Nat
  lockUntil : SMap Nat
  /-- key 4 × role + KEYIDX -/
  keys : SMap RoleKey
  /-- salt and hash of the Workshop passphrase -/
  pass : Option (Nat × Nat)
  my : SMap Evt
  restart : Option Restart
  /-- Exesh runs in Supervisor mode from S15 (R352) -/
  supervisor : Bool
  /-- pair at which the round robin of Exesh stands (R366) -/
  turn : Nat
  deriving DecidableEq, Repr, Inhabited

/-- An attachment of an Easel session: target (kind, index) and session handle (R398). -/
structure Attach where
  tkind : Nat
  index : Nat
  session : Nat
  deriving DecidableEq, Repr, Inhabited

/-- A breakpoint or watchpoint unit (Table 07.24). -/
structure Break where
  enable : Bool
  access : Nat
  addr : Nat
  mask : Nat
  deriving DecidableEq, Repr, Inhabited

/-- Branch trace of a target: enabled, buffer, bytes written since it was enabled. -/
structure Trace where
  enable : Bool
  buf : Nat
  len : Nat
  written : Nat
  deriving DecidableEq, Repr, Inhabited

/-- Single steps under way on a context: steps left, instructions retired, tag of EASEL_STEP. -/
structure StepRun where
  left : Nat
  done : Nat
  tag : Nat
  deriving DecidableEq, Repr, Inhabited

/-- Easel: its transports (R395 to R397), attachments, break units and traces. -/
structure Easel where
  /-- TAP instruction register -/
  ir : Nat
  /-- boundary-scan register -/
  bsr : Nat
  /-- levels that EXTEST holds for the lands while it is selected; whether they are driven is `landsDriven` (R396) -/
  driven : Option Nat
  reqBuf : List Byte
  overrun : Bool
  /-- bytes of the oldest response already captured -/
  respPos : Nat
  /-- last word that a capture loaded -/
  dr : Nat
  /-- the requests without a final response, in the order in which the bridge published them: tag, and for a request from an
  Ethernet frame its port and source MAC address -/
  macs : List (Nat × Option (Nat × Nat))
  attach : List Attach
  /-- QM cores that a session has halted, by core -/
  qmHalt : SMap Bool
  /-- key 8 × context + unit -/
  brk : SMap Break
  /-- a resumed context passes the breakpoint that it stands on, by context -/
  pass : SMap Bool
  /-- by context -/
  trace : SMap Trace
  /-- by context -/
  step : SMap StepRun
  deriving DecidableEq, Repr, Inhabited

end Sys2Proof.Machine
end

