-- ==== Sys2Proof/Machine/StateMem.lean ====
section
/-! DEFINITION. State of Canvas RAM, DRAM, the code store and the DMA agents beside the stored bytes (spec/06). -/
namespace Sys2Proof.Machine

/-- CNV_BANKq_b.STATE (Table 06.9). -/
inductive BankPower where
  | off
  | on
  | retain
  | waking
  deriving DecidableEq, Repr, Inhabited

/-- A logical Canvas bank (Table 06.9). -/
structure Bank where
  power : BankPower
  noTest : Bool
  /-- selected for retention -/
  retSel : Bool
  /-- ON in Drive -/
  onSel : Bool
  retLost : Bool
  /-- RET_LOST has still to be reported at a wake (R328) -/
  lostDue : Bool
  corr : Nat
  wcoll : Nat
  uncorr : Nat
  /-- waking with its contents kept; otherwise it is cleared before it is ON (R327) -/
  keeps : Bool
  /-- its 30 µs wake has ended, and its clear has not -/
  woken : Bool
  deriving DecidableEq, Repr, Inhabited

/-- What the quadrant knows of a physical bank: last test (0 none since start, 1 PASS, 2 FAIL, 3 INCOMPLETE), time of
the last PASS. -/
structure PhysBank where
  test : Nat
  lastPass : Option Nat
  triple : Triple
  deriving DecidableEq, Repr, Inhabited

/-- A Canvas quadrant (Table 06.8). -/
structure Quadrant where
  remap : SMap Nat
  /-- free physical bank, 0x3F for none -/
  free : Nat
  /-- logical bank being migrated, 0x3F for none -/
  migBank : Nat
  migLine : Nat
  /-- 0 idle, 1 migrating, 2 testing, 3 stopped -/
  phase : Nat
  failed : Nat
  phys : SMap PhysBank
  /-- physical bank under test -/
  testing : Option Nat
  /-- consecutive INCOMPLETE results of that test -/
  incomplete : Nat
  noFreeReported : Bool
  /-- the shutdown test runs: no-test banks are migrated too (R323), and these physical banks are tested -/
  shutAll : Bool
  shutDone : List Nat
  /-- next word that the scrubber reads -/
  scrubPos : Nat
  /-- power state of the free physical bank (R324); every other physical bank has that of its logical bank -/
  freePower : BankPower
  /-- due times of migrations that have passed since S15 (R317) -/
  migDone : Nat
  deriving DecidableEq, Repr, Inhabited

/-- Canvas RAM. Banks are keyed 32 × quadrant + bank. -/
structure Cnv where
  quad : SMap Quadrant
  bank : SMap Bank
  scrubS : Nat
  testS : Nat
  /-- S09 has set up the quadrants: CNV_QUAD.FAILED and CNV_BANK.PHYS read 0 before it (Tables 06.8, 06.9) -/
  filled : Bool
  deriving DecidableEq, Repr, Inhabited

/-- The DRAM controller (Table 06.10). -/
structure Drc where
  tmrFirst : Nat
  tmrHidden : Nat
  corr : Nat
  uncorr : Nat
  tmrRepair : Nat
  /-- all-bank refreshes issued on each channel -/
  refresh : SMap Nat
  /-- next word of the patrol scrubber -/
  patrolPos : Nat
  trained : Bool
  /-- cached training values are held (R412) -/
  cached : Bool
  /-- the DRAM domain is supplied and started -/
  up : Bool
  deriving DecidableEq, Repr, Inhabited

/-- A DMA job (Table 06.13). -/
structure DmaJob where
  tag : Nat
  op : Nat
  fence : Bool
  src : Nat
  dst : Nat
  len : Nat
  pattern : Nat
  done : Nat
  /-- CRC register of OP 3, before the final XOR -/
  crc : Nat
  deriving DecidableEq, Repr, Inhabited

/-- A DMA agent: jobs of each of its 16 request queue slots, oldest first, and the slot whose turn is next. -/
structure DmaAgent where
  jobs : SMap (List DmaJob)
  next : Nat
  deriving DecidableEq, Repr, Inhabited

end Sys2Proof.Machine
end

