-- ==== Sys2Proof/Machine/StateNet.lean ====
section
/-! DEFINITION. State of the vehicle networks and of plant I/O (spec/11). -/
namespace Sys2Proof.Machine

/-- CAN_STAT.STATE (Table 11.14). -/
inductive CanSt where
  | disabled
  | active
  | passive
  | busOff
  | loopback
  deriving DecidableEq, Repr, Inhabited

/-- A frame offered to arbitration (R503, R556): whether it is a last-word frame, its frame number or transmit queue, its
bytes. -/
structure Offer where
  fix : Bool
  n : Nat
  bytes : List Byte
  deriving DecidableEq, Repr, Inhabited

/-- A CAN controller: its registers, the frame offered to arbitration, and the time at which it went bus-off. -/
structure CanCtl where
  st : CanSt
  tec : Nat
  rec_ : Nat
  busoff : Nat
  rxDrop : Nat
  offered : Option Offer
  offAt : Nat
  deriving DecidableEq, Repr, Inhabited

/-- LIN_STAT.STATE (Table 11.14). -/
inductive LinSt where
  | disabled
  | active
  | sleep
  | loopback
  deriving DecidableEq, Repr, Inhabited

/-- A LIN controller: data last sent for each frame ID (R558), the next schedule entry, the frame ID whose response is
awaited, the response put on the bus. -/
structure LinCtl where
  st : LinSt
  master : Bool
  errs : Nat
  sent : SMap (Option (List Byte))
  pos : Nat
  await : Option Nat
  out : Option (Nat × List Byte)
  deriving DecidableEq, Repr, Inhabited

/-- ETH_P.STATE (Table 11.14); FIXATIVE is shown while Fixative holds the port. -/
inductive EthSt where
  | disabled
  | down
  | up
  | loopback
  deriving DecidableEq, Repr, Inhabited

/-- The credit of an 802.1Qav class at a port (R560), in bits × ticks of 16 ns per second, at a time. -/
structure Credit where
  val : Int
  at_ : Nat
  deriving DecidableEq, Repr, Inhabited

/-- An 802.1Qci flow meter (R560): what is spent of its two buckets, in bits × ticks per second, at a time. -/
structure Meter where
  green : Nat
  yellow : Nat
  at_ : Nat
  deriving DecidableEq, Repr, Inhabited

/-- An 802.1CB recovery function (R560): whether it has taken a frame since its reset, the sequence number taken last, the history
behind it (bit 0 that number), how far the history reaches, the time of the last frame taken. -/
structure Frer where
  live : Bool
  seq : Nat
  hist : Nat
  depth : Nat
  at_ : Nat
  deriving DecidableEq, Repr, Inhabited

/-- A frame that waits at the egress of a port: the mark that it entered the switch at an internal port (R495), its priority, its
bytes. -/
structure EgressFrame where
  internal : Bool
  prio : Nat
  data : List Byte
  deriving DecidableEq, Repr, Inhabited

/-- A switch port: its registers, the frames that wait at its egress, oldest first, the credits of its 802.1Qav classes by
priority, its secure associations (key 2 × channel + association). -/
structure EthPort where
  st : EthSt
  speed : Nat
  macsec : Bool
  sqi : Nat
  /-- ETH_SQI_LOW is live -/
  sqiLow : Bool
  linkdown : Nat
  drops : Nat
  egress : List EgressFrame
  credit : SMap Credit
  /-- the frame sent last -/
  sent : List Byte
  saks : SMap (Option (List Byte))
  /-- the secure associations at engagement, which protect the last-word frames (R503) -/
  fixSaks : SMap (Option (List Byte))
  deriving DecidableEq, Repr, Inhabited

/-- The PCIe root port (PCI_STATUS), and the memory writes that it accepted last: PCIe address and bytes. -/
structure Pci where
  up : Bool
  gen : Nat
  width : Nat
  aerCorr : Nat
  aerUncorr : Nat
  cplTimeout : Nat
  wrote : List (Nat × List Byte)
  deriving DecidableEq, Repr, Inhabited

/-- A timer channel: mode as in PIO_TMR.MODE, option of its TIMER record, commanded duty and period or compare value,
those in use, and the level of its output. -/
structure Timer where
  mode : Nat
  opt : Nat
  duty : Nat
  value : Nat
  curDuty : Nat
  curValue : Nat
  level : Bool
  /-- count at the last capture -/
  capture : Nat
  deriving DecidableEq, Repr, Inhabited

/-- A GPIO: mode 0 input, 1 push-pull, 2 open-drain, or none when not set up; commanded level and drive, the land's
sensed level, consecutive differing readbacks (R572). -/
structure Gpio where
  mode : Option Nat
  level : Bool
  driven : Bool
  /-- level and drive that have reached the land: while Fixative is engaged commands do not (R574) -/
  curLevel : Bool
  curDriven : Bool
  sensed : Bool
  differ : Nat
  deriving DecidableEq, Repr, Inhabited

/-- An ADC channel's last sample. -/
structure AdcCh where
  sample : Nat
  invalid : Bool
  deriving DecidableEq, Repr, Inhabited

/-- A pulse input: edges since start, last period, edges of the previous summary once there is one. -/
structure Pulse where
  edges : Nat
  period : Nat
  last : Option Nat
  deriving DecidableEq, Repr, Inhabited

/-- A loopback test under way: its command, class and index of the interface (R577). -/
structure Loop where
  cmd : Nat × Nat
  cls : Nat
  index : Nat
  depth : Nat
  frames : Nat
  deriving DecidableEq, Repr, Inhabited

/-- Networks and plant I/O. -/
structure Net where
  can : SMap CanCtl
  lin : SMap LinCtl
  eth : SMap EthPort
  /-- ETH_GPTP.SYNC and GM_PORT -/
  gptpSync : Nat
  gmPort : Nat
  /-- flow meters, recovery functions and sequence generators, by INDEX of their ETH_TSN records (R560) -/
  meter : SMap Meter
  frer : SMap Frer
  seqGen : SMap Nat
  pci : Pci
  tmr : SMap Timer
  gpio : SMap Gpio
  adc : SMap AdcCh
  /-- converters under ADC_REFERENCE -/
  adcBad : Nat
  /-- scan lists that run -/
  scan : SMap Bool
  pulse : SMap Pulse
  /-- ignition inputs active after the filter -/
  ign : Nat
  /-- bytes last sent by the GNSS UART -/
  gnssTx : List Byte
  loops : List Loop
  deriving DecidableEq, Repr, Inhabited

end Sys2Proof.Machine
end

