-- ==== Sys2Proof/Machine/StatePwr.lean ====
section
/-! DEFINITION. State of the power controller and the clocks (spec/12). -/
namespace Sys2Proof.Machine

/-- Power modes (R587). -/
inductive PMode where
  | drive
  | park
  | shutdownTest
  | off
  deriving DecidableEq, Repr, Inhabited

/-- A battery input: in range, its level in mV, its switch opened above 65 V. -/
structure Input where
  ok : Bool
  mv : Nat
  opened : Bool
  deriving DecidableEq, Repr, Inhabited

/-- A switched domain (R592 to R594). -/
structure Domain where
  on : Bool
  /-- switched on and still held in reset -/
  held : Bool
  failed : Bool
  deriving DecidableEq, Repr, Inhabited

/-- Power and clocks. -/
structure Pwr where
  mode : PMode
  inA : Input
  inB : Input
  supplyLow : Bool
  /-- the supply-loss signal has been given and the sequence of Table 10.10 runs -/
  loss : Bool
  /-- after a loss in Drive or Shutdown-Test FCR and Fixative run from VRES (Table 10.10) -/
  holdup : Bool
  /-- the always-on domain has lost its supply since the last S02 (R537, R584) -/
  aonLost : Bool
  holdupLow : Bool
  /-- hottest junction in 0.1 °C -/
  tj : Int
  thermWarn : Bool
  thermCrit : Bool
  ext3v3 : Bool
  dom : SMap Domain
  /-- PLL p locked, and PLL p's outputs carried by its twin -/
  lock : Nat
  failover : Nat
  xtal : Nat
  /-- crystals that have stopped or deviate -/
  xtalFail : Nat
  /-- the mode that follows shutdown test is Off -/
  thenOff : Bool
  /-- a request for a mode that waits for S15, for Fixative or for B1: true for Off (R589, R509) -/
  request : Option Bool
  /-- ignition inactive, the key-off delay runs since -/
  keyOff : Option Nat
  /-- entry into Park-Listen -/
  parkAt : Nat
  deriving DecidableEq, Repr, Inhabited

end Sys2Proof.Machine
end

