-- ==== Sys2Proof/Machine/StateSafe.lean ====
section
/-! DEFINITION. State of the fault network, FCR, the watchdog block and Fixative (spec/09). -/
namespace Sys2Proof.Machine

/-- A fault message (Table 09.1) with its subject tag (R455). -/
structure FaultMsg where
  src : Nat
  kind : Nat
  sev : Nat
  detail : Nat
  addr : Nat
  time : Nat
  seq : Nat
  subject : Nat
  injected : Bool
  /-- a condition that has ended before FCR accepted the message (R462) -/
  ended : Bool
  deriving DecidableEq, Repr, Inhabited

/-- What a source of fault messages holds: last SEQ, its FIFO of 8 (oldest first), messages dropped since the FIFO
was full, failed sends of the oldest message (R454, R456, R457). -/
structure FaultSrc where
  seq : Nat
  fifo : List FaultMsg
  dropped : Nat
  fails : Nat
  deriving DecidableEq, Repr, Inhabited

/-- An entry of the FCR log: the message and its status word (Table 09.4). -/
structure LogEntry where
  msg : FaultMsg
  live : Bool
  transient : Bool
  shadowed : Bool
  cleared : Bool
  severe : Bool
  escalated : Bool
  cond : Bool
  reactions : Nat
  override : Bool
  count : Nat
  timeHi : Nat
  /-- a read has returned the entry with LIVE = 1 -/
  readLive : Bool
  deriving DecidableEq, Repr, Inhabited

/-- A policy record (Table 09.5). -/
structure Policy where
  normal : Nat
  severe : Nat
  threshold : Nat
  countSev : Nat
  reactSev : Nat
  windowUs : Nat
  irq : Nat
  target : Nat
  ovrKind : Nat
  ovrNormal : Nat
  ovrSevere : Nat
  deriving DecidableEq, Repr, Inhabited

/-- The reset policy (R467). -/
def Policy.reset : Policy :=
  { normal := 0, severe := 0x20, threshold := 16, countSev := 1, reactSev := 0, windowUs := 1000000,
    irq := 0, target := 0, ovrKind := 0, ovrNormal := 0, ovrSevere := 0 }

/-- Classification state of a source (R468). -/
structure SrcClass where
  severe : Bool
  count : Nat
  wstart : Nat
  deriving DecidableEq, Repr, Inhabited

/-- An open reset shadow (R471): the source and subject tag of the reset block, the unit in ADDRESS where the block is one
of several that share a source, and the time at which it ends (none while the reset lasts until an event). -/
structure Shadow where
  src : Nat
  tag : Nat
  unit : Option Nat
  ends : Option Nat
  deriving DecidableEq, Repr, Inhabited

/-- FCR_MY_* of one context (Table 09.17). -/
structure FcrMy where
  evt : Evt
  last0 : Nat
  last1 : Nat
  deriving DecidableEq, Repr, Inhabited

/-- FCR. -/
structure Fcr where
  log : SMap LogEntry
  logNext : Nat
  /-- entries held, at most 1,024 -/
  logHeld : Nat
  overwritten : Nat
  /-- kinds not cleared, key 256 × source + kind; the value tells whether a set applied to it included PIN (R464, R478) -/
  uncleared : SMap (Option Bool)
  cls : SMap SrcClass
  policy : SMap (Option Policy)
  policyLoaded : Bool
  pinSev : Nat
  /-- the chip-level safe state (R473) -/
  chipSafe : Bool
  /-- a chip reset that is to come: true when by a CHIP_RESET reaction, false when by the chip-level safe state -/
  chipReset : Option Bool
  /-- times of the counted reactions of the last 1 ms (R472) -/
  counted : List Nat
  shadows : List Shadow
  my : SMap FcrMy
  /-- level of ERR_N when the module left Shutdown-Test (R481) -/
  parkErr : Bool
  /-- FCR runs on the monitor oscillator: CLK_MAIN has been lost and S07 has not restored it (R476) -/
  clkLost : Bool
  deriving DecidableEq, Repr, Inhabited

/-- A watchdog's running set (R483, R488). -/
structure WdgRun where
  /-- time units counted before the last hold -/
  base : Nat
  /-- running since this time; none while held -/
  since : Option Nat
  first : Bool
  pos : Nat
  nextKey : Nat
  seen : BitVec 32
  deriving DecidableEq, Repr, Inhabited

/-- A partition watchdog with its task-sequence monitor (Table 09.9). -/
structure Wdg where
  configured : Bool
  owner : Nat
  seqMode : Bool
  source : Nat
  /-- prescaler minus 1 -/
  prescM1 : Nat
  openT : Nat
  closeT : Nat
  firstClose : Nat
  cpmask : BitVec 32
  order : List Nat
  /-- deadlines in ticks -/
  late : SMap (Option Nat)
  run : WdgRun
  second : Option WdgRun
  evt : Evt
  /-- services suppressed by fault injection (R514) -/
  suppressed : Bool
  deriving DecidableEq, Repr, Inhabited

/-- The supervisor watchdog (R482). -/
structure SupWdg where
  /-- time of the last accepted service, or of the last reset of the supervisor lanes -/
  last : Nat
  first : Bool
  /-- stopped with CLK_MAIN since this time (R476) -/
  stop : Option Nat
  deriving DecidableEq, Repr, Inhabited

/-- A Fixative channel (R496, R497, Table 09.15). -/
structure FixCh where
  configured : Bool
  safe : Nat
  holdMs : Nat
  rampMs : Nat
  staleMs : Nat
  owner : Nat
  armed : Nat
  armTime : Nat
  hasArmed : Bool
  /-- NEVER, set by a start and cleared by arming -/
  never : Bool
  staleHeld : Bool
  holdVal : Nat
  out : Nat
  /-- drives S at once (R510) -/
  forced : Bool
  deriving DecidableEq, Repr, Inhabited

/-- An inserted channel value of a last-word frame (Table 09.13). -/
structure FixVal where
  ch : Nat
  off : Nat
  wide : Bool
  big : Bool
  deriving DecidableEq, Repr, Inhabited

/-- The check field of a last-word frame: CRC-16 rather than CRC-8, offset, DATA_ID, first and last byte covered. -/
structure FixCrc where
  crc16 : Bool
  off : Nat
  dataId : Nat
  first : Nat
  last : Nat
  deriving DecidableEq, Repr, Inhabited

/-- A last-word frame (Table 09.13) and its state (Table 09.15). -/
structure FixFr where
  configured : Bool
  /-- CAN controller 0 to 15, or 16 + an external Ethernet port -/
  port : Nat
  format : Nat
  canId : Nat
  len : Nat
  periodMs : Nat
  offsetMs : Nat
  val0 : Option FixVal
  val1 : Option FixVal
  /-- byte offset, and 4-bit rather than 8-bit -/
  cnt : Option (Nat × Bool)
  crc : Option FixCrc
  owner : Nat
  template : List Byte
  txcount : Nat
  counter : Nat
  txerr : Bool
  queued : Option (List Byte)
  stopped : Bool
  deriving DecidableEq, Repr, Inhabited

/-- Fixative (Table 09.15). -/
structure Fix where
  engaged : Bool
  chipLvl : Bool
  rampsDone : Bool
  releasing : Bool
  causeSrc : Nat
  causeKind : Nat
  engageTime : Nat
  /-- the number of the next tick since engagement -/
  tick : Nat
  ch : SMap FixCh
  fr : SMap FixFr
  oscBad : Bool
  /-- the chip reset of this engagement has been made (R473) -/
  resetDone : Bool
  deriving DecidableEq, Repr, Inhabited

/-- Factory test mode (R513): FTEST_N was low at the last chip reset; the words whose stored bits an injection has
inverted (R514), by error key. -/
structure Ftest where
  low : Bool
  words : SMap Bool
  deriving DecidableEq, Repr, Inhabited

end Sys2Proof.Machine
end

