-- ==== Sys2Proof/Machine/StateSec.lean ====
section
/-! DEFINITION. State of SEC: engines, counters, journal, legal time and the card slots (spec/10). -/
namespace Sys2Proof.Machine

/-- One copy of a monotonic counter: its value, and whether its HMAC does not verify (R524, R525). The key record in the code store
holds both. -/
structure CtrCopy where
  value : Nat
  bad : Bool
  deriving DecidableEq, Repr, Inhabited

/-- CARDn.STATE (Table 10.15). -/
inductive CardSt where
  | empty
  | present
  | active
  | authenticated
  | fault
  deriving DecidableEq, Repr, Inhabited

/-- A card slot (Table 10.15, R539): CLASS and PROTO in force, what the card in it answers (class B, T=1), the lands CARDn_VCCA_EN
and CARDn_VCCB_EN, the card clock in kHz (0 while it stands), Fi and Di in force, and the SESSION_AUTH whose METHOD 4 exchange
runs on it (R541). -/
structure CardSlot where
  st : CardSt
  clsB : Bool
  protoT1 : Bool
  answersB : Bool
  answersT1 : Bool
  vccA : Bool
  vccB : Bool
  clkKHz : Nat
  fi : Nat
  di : Nat
  ref : Nat
  authCmd : Option (Nat × Nat)
  deriving DecidableEq, Repr, Inhabited

/-- A batch seal under way (R532): first and last record of the batch, its flags (bit 0 RECOVERED, bit 1 SUPPLY_LOSS), and
the time at which its first record was written. -/
structure Sealing where
  first : Nat
  last : Nat
  flags : Nat
  since : Nat
  deriving DecidableEq, Repr, Inhabited

/-- An export under way (R535): the command, TO, seal kind, role and card register entry, and what its hash pass gives:
records covered, first and last of them, H_BEFORE and H_LAST. -/
structure Export where
  cmd : Nat × Nat
  upTo : Nat
  kind : Nat
  role : Nat
  ref : Nat
  count : Nat
  first : Nat
  last : Nat
  hBefore : Nat
  hLast : Nat
  deriving DecidableEq, Repr, Inhabited

/-- SEC. The journal's records are bytes of the code store. -/
structure Sec where
  keysReady : Bool
  trngOk : Bool
  journalReady : Bool
  /-- engines out of service, bits as in SEC_ID.ENGINES (R520) -/
  katFail : Nat
  /-- key 3 × counter + copy -/
  ctr : SMap CtrCopy
  hHead : Nat
  hTail : Nat
  /-- the first CTR of the records not yet covered by a batch -/
  unsealed : Nat
  /-- time at which the oldest of them was written -/
  unsealedAt : Nat
  sealing : Option Sealing
  /-- flags of the batch that a trigger has asked for during a seal (R532) -/
  sealNext : Option Nat
  /-- JOURNAL_SEAL_NOW commands that wait, each with the record that their seal covers last -/
  sealCmds : List (Nat × Nat × Nat)
  /-- batch seals of the ring of 256, newest first (R532, R534) -/
  seals : List (List Byte)
  exporting : Option Export
  exportMark : Nat
  nearFull : Bool
  /-- first record whose chain disagrees (R531) -/
  chainBreak : Option Nat
  /-- JOURNAL_NEXT at the last supply loss (R532, R533) -/
  lossNext : Nat
  /-- RTC in µs at the time `rtcAt` -/
  rtcUs : Nat
  rtcAt : Nat
  rtcValid : Bool
  restored : Bool
  disagree : Bool
  /-- a TIME_RESTORED is due at S15 (R537) -/
  restoredDue : Bool
  /-- 802.1AS time in ns at time 0, modulo 2^64 -/
  asOff : Nat
  /-- GNSS PPS: valid, pulses in tolerance so far, time of the last pulse (R576) -/
  pps : Bool
  ppsCount : Nat
  ppsAt : Option Nat
  card : SMap CardSlot
  /-- card number of a card register entry (R542) -/
  cardReg : SMap (Option Nat)
  /-- the place in the list of job queues at which the round robin goes on (R521) -/
  turn : Nat
  /-- bytes 0 to 631 of the report of each ATTEST, built at its claim (R523), by pair and tag -/
  attest : List ((Nat × Nat) × List Byte)
  deriving DecidableEq, Repr, Inhabited

end Sys2Proof.Machine
end

