-- ==== Sys2Proof/Machine/State.lean ====
section
/-! DEFINITION. The state of the DG9 as plain data, the reasons a step can stop, and the state after reset. -/
namespace Sys2Proof.Machine

/-- The module: everything the spec gives the DG9. -/
structure Dg where
  part : Part
  /-- contexts: 0 to 15 the group slots, 16 + c the QM core c, 56 Labazor-S -/
  ctx : SMap Ctx
  /-- bytes of Canvas RAM, DRAM, the code store and the lane SRAM by physical address (R302, R350) -/
  mem : List Host.Cell
  /-- wrong stored bits of a word, key 4 × (address / 16) + copy (R306, R332, R337, R338) -/
  errs : SMap (BitVec 144)
  /-- records of the active configuration blob (R424) -/
  cfg : List CfgRec
  stu : Stu
  mbx : Mbx
  easel : Easel
  boot : Boot
  fab : Fab
  cnv : Cnv
  drc : Drc
  dma : SMap DmaAgent
  srcs : SMap FaultSrc
  fcr : Fcr
  wdg : SMap Wdg
  supWdg : SupWdg
  fix : Fix
  ftest : Ftest
  sec : Sec
  net : Net
  pwr : Pwr
  /-- expected triples of the BISTs: 0 core logic, 1 core memory, 2 Canvas bank, 3 + d power domain d (R446) -/
  bistExp : SMap Triple
  /-- module time base in 16 ns units (R599) -/
  now : Nat
  /-- draws of free values so far: the model's own counter (notes/assumptions/7.md) -/
  freeCount : Nat
  deriving DecidableEq, Repr

/-- The state: the module, and the commands that wait, first in, first out. -/
structure State where
  dg : Dg
  pending : List Instr
  deriving DecidableEq, Repr

/-- Reasons a step can end in a fault: none, since the spec gives every command an effect. -/
inductive Fault where
  deriving DecidableEq, Repr

/-- Reasons a step can refuse. -/
inductive Refusal where
  /-- raised by `exec` for a command whose meaning is not written; safe -/
  | notModelled (mnemonic : String)
  deriving DecidableEq, Repr

/-- The registers of a context when its core leaves reset (R84, Tables 02.5, 03.5, 04.9). -/
def Regs.reset : Regs := { (default : Regs) with mode := .str, fpcr := 1 }

/-- A context whose core has been reset and that runs nothing. -/
def Ctx.reset : Ctx := { (default : Ctx) with r := Regs.reset }

/-- The part that the model stands for where a statement names none: stepping B0, option 40A (Table 02.13), in the field. -/
def Part.reset : Part := { stepLetter := 0x42, stepDigit := 0, dramB := false, factory := false }

/-- The module right after its first chip reset, as the spec gives each register's reset value; the others have the
values of notes/assumptions/1.md. Start step S00 is due. -/
def Dg.reset : Dg :=
  { part := Part.reset
    ctx := (List.range 57).map fun c => (c, Ctx.reset)
    mem := []
    errs := []
    cfg := []
    stu := default
    mbx := default
    easel := { (default : Easel) with ir := 0x01 }
    boot := { (default : Boot) with due := some 0 }
    fab := { (default : Fab) with weights := 0x0001081018203040 }
    cnv := default
    drc := default
    dma := []
    srcs := []
    fcr := { (default : Fcr) with pinSev := 2 }
    wdg := []
    supWdg := { last := 0, first := true, stop := none }
    fix := default
    ftest := { low := false, words := [] }
    sec := { (default : Sec) with
      ctr := [(9, ⟨1, false⟩), (10, ⟨1, false⟩), (11, ⟨1, false⟩)], unsealed := 1 }
    net := default
    pwr := { (default : Pwr) with ext3v3 := true, dom := (List.range 61).map fun d => (d, ⟨true, false, false⟩) }
    bistExp := (List.range 64).map fun k => (k, ⟨0, 0, 0x5A⟩)
    now := 0
    freeCount := 0 }

/-- The machine right after reset; no command waits. -/
def State.reset : State := { dg := Dg.reset, pending := [] }

/-- Only the always-on domain is supplied, and SEC and the code store after a supply-loss signal (R583, R591). -/
def unpowered (m : Dg) : Bool := m.pwr.mode == .park || m.pwr.mode == .off || m.pwr.loss

/-- A switched domain (Table 08.12) is on. -/
def domOn (m : Dg) (d : Nat) : Bool := (SMap.get m.pwr.dom d).on

/-- A command whose effect is a change of the module. -/
def run (s : State) (f : Dg → Dg) : Host.Outcome State Fault Refusal := .next { s with dg := f s.dg }

end Sys2Proof.Machine
end

