-- ==== Sys2Proof/Machine/Cfg.lean ====
section
/-! DEFINITION. The active configuration blob as its records (spec/08 Tables 08.14 to 08.16): fields by offset and size,
and the records by type and key. -/
namespace Sys2Proof.Machine

/-- The field `off:size` of a record's body. -/
def CfgRec.f (r : CfgRec) (off size : Nat) : Nat := bits r.body (8 * off) (8 * size)

/-- The records of one TYPE, in order. -/
def recs (m : Dg) (ty : Nat) : List CfgRec := m.cfg.filter fun r => r.ty == ty

/-- The record of a TYPE whose field `off:size` is `v`. -/
def recBy (m : Dg) (ty off size v : Nat) : Option CfgRec := (recs m ty).find? fun r => r.f off size == v

/-- The MODULE record. -/
def modRec (m : Dg) : Option CfgRec := (recs m 0x0001).head?

/-- A field of the MODULE record, or its default when the record is absent (R426). -/
def modField (m : Dg) (off size dflt : Nat) : Nat :=
  match modRec m with
  | some r => r.f off size
  | none => dflt

/-- The PARTITION record of a partition. -/
def partRec (m : Dg) (pid : Nat) : Option CfgRec := recBy m 0x0002 0 1 pid

/-- The owner of a resource by its OWNER record: class and index (R426, R546). -/
def ownerOf (m : Dg) (cls idx : Nat) : Option Nat :=
  ((recs m 0x000F).find? fun r => r.f 0 1 == cls && r.f 2 2 == idx).map fun r => r.f 4 1

/-- A flag of a partition's FLAGS byte (bit 0 stop-protected, 1 window granted, 2 bank B, 3 restart when lost). -/
def partFlag (m : Dg) (pid i : Nat) : Bool :=
  match partRec m pid with
  | some r => bit (r.f 5 1) i
  | none => false

/-- The WINDOW records of a partition, shadow windows or not (bit 4 of ACCESS). -/
def windowRecs (m : Dg) (pid : Nat) (shadow : Bool) : List CfgRec :=
  (recs m 0x0003).filter fun r => r.f 0 1 == pid && bit (r.f 1 1) 4 == shadow

/-- A WINDOW record as an access window. -/
def windowOf (r : CfgRec) : Window :=
  { base := r.f 8 8, size := r.f 16 8, read := bit (r.f 1 1) 0, write := bit (r.f 1 1) 1, exec := bit (r.f 1 1) 2,
    cacheable := bit (r.f 1 1) 3, cls := r.f 2 1 }

end Sys2Proof.Machine
end

