-- ==== Sys2Proof/Config.lean ====
section
/-! DEFINITION. What the spec leaves to a source it does not carry, as constants without a body: nothing in Lean can
evaluate one or prove a value of it (notes/assumptions/6.md and 7.md). -/
namespace Sys2Proof.Config

/-- A value the spec leaves open, drawn at a place of the model's counter (random numbers, unstated values). -/
opaque freeValue : Nat → Nat

/-- A byte of the Gesso ROM; the spec gives its address range and not its contents. -/
opaque romByte : Nat → Byte

/-- The key-store root in the anti-fuse array of SEC (R515): drawn at manufacture, read by the key-derivation engine alone. -/
opaque keyRoot : BitVec 256

/-- Does a day, numbered from 1970-01-01, end with an inserted leap second (R536). -/
opaque leapSecond : Nat → Bool

/-- What a storage code does with an error beyond its guarantees (R306), by the pattern of wrong stored bits: none when
it is detected, otherwise the pattern by which the data returned differ. -/
opaque eccBeyond : BitVec 144 → Option (BitVec 128)

/-- The signal quality below which ETH_SQI_LOW is live; the spec gives no threshold (notes/assumptions/7.md). -/
opaque sqiLow : Nat

/-- The manufacturer code of IDCODE (Table 07.25), which the spec leaves to JEDEC JEP106 (notes/assumptions/7.md). -/
opaque jepCode : BitVec 11

/-- The DETAIL of a fault message for which no block lays one down (Table 09.1), by source, kind, time and the sequence
number before it (notes/assumptions/13.md). -/
opaque openDetail : (source kind time seq : Nat) → BitVec 10

/-- Signature and pattern count that the resource part of an Exesh bank holds for a BIST (R446, notes/assumptions/120.md). -/
opaque expectedTriple : (resource : List Byte) → (bist : Nat) → BitVec 64

end Sys2Proof.Config
end

