-- ==== Sys2Proof/Machine/Report.lean ====
section
/-! DEFINITION. Fault kinds with their severities and types (spec/09 Table 09.3 and the tables of spec/10, 11, 12), and
the sending of a fault message into the FIFO of its source (R452 to R456). -/
namespace Sys2Proof.Machine

/-! The kind codes. -/

/-- REG_LOCKED, notice, type E. -/
def kRegLocked : Nat := 0x01
/-- REG_RESERVED, notice, type E. -/
def kRegReserved : Nat := 0x02
/-- ACCESS_DENIED, notice, type E. -/
def kAccessDenied : Nat := 0x03
/-- RESOURCE_CONFLICT, notice, type E. -/
def kResourceConflict : Nat := 0x04
/-- FAULT_OVERFLOW, minor, type E. -/
def kFaultOverflow : Nat := 0x05
/-- FAULTNET_ERROR, minor, type E. -/
def kFaultnetError : Nat := 0x06
/-- LANE_CORRECTED, notice, type E. -/
def kLaneCorrected : Nat := 0x10
/-- LANE_MINORITY, minor, type E. -/
def kLaneMinority : Nat := 0x11
/-- NO_MAJORITY, critical, type E. -/
def kNoMajority : Nat := 0x12
/-- PAIR_MISMATCH, major, type E. -/
def kPairMismatch : Nat := 0x13
/-- VOTER_SLICE, minor, type E. -/
def kVoterSlice : Nat := 0x14
/-- RESEAT_START, notice, type E. -/
def kReseatStart : Nat := 0x15
/-- RESEAT_DONE, notice, type E. -/
def kReseatDone : Nat := 0x16
/-- SPARE_UNAVAILABLE, minor, type C. -/
def kSpareUnavailable : Nat := 0x17
/-- SPARE_FAULT, major, type E. -/
def kSpareFault : Nat := 0x18
/-- CORE_BIST_FAIL, major, type E. -/
def kCoreBistFail : Nat := 0x19
/-- CORE_BIST_INCOMPLETE, notice, type E. -/
def kCoreBistIncomplete : Nat := 0x1A
/-- ROTATION_OVERDUE, minor, type C. -/
def kRotationOverdue : Nat := 0x1B
/-- EXC_DOUBLE, major, type E. -/
def kExcDouble : Nat := 0x1C
/-- L2_CORRECTED, notice, type E. -/
def kL2Corrected : Nat := 0x1D
/-- L2_UNCORRECTABLE, major, type E. -/
def kL2Uncorrectable : Nat := 0x1E
/-- SUP_LANE_MINORITY, major, type E. -/
def kSupLaneMinority : Nat := 0x30
/-- SUP_NO_MAJORITY, critical, type E. -/
def kSupNoMajority : Nat := 0x31
/-- SUP_SRAM_CORRECTED, notice, type E. -/
def kSupSramCorrected : Nat := 0x32
/-- MBX_MALFORMED, notice, type E. -/
def kMbxMalformed : Nat := 0x33
/-- SESSION_AUTH_FAIL, notice, type E. -/
def kSessionAuthFail : Nat := 0x34
/-- SESSION_LOCKOUT, minor, type E. -/
def kSessionLockout : Nat := 0x35
/-- EXESH_RESTART, minor, type E. -/
def kExeshRestart : Nat := 0x36
/-- FLIT_CORRECTED, notice, type E. -/
def kFlitCorrected : Nat := 0x40
/-- LINK_RETRY, notice, type E. -/
def kLinkRetry : Nat := 0x41
/-- LANE_SPARED, minor, type E. -/
def kLaneSpared : Nat := 0x42
/-- LINK_FAIL, major, type C. -/
def kLinkFail : Nat := 0x43
/-- ROUTER_SLICE, minor, type E. -/
def kRouterSlice : Nat := 0x44
/-- PALETTE_CORRECTED, notice, type E. -/
def kPaletteCorrected : Nat := 0x45
/-- PALETTE_UNCORRECTABLE, major, type E. -/
def kPaletteUncorrectable : Nat := 0x46
/-- E2E_CRC, minor, type E. -/
def kE2eCrc : Nat := 0x47
/-- E2E_SEQ, minor, type E. -/
def kE2eSeq : Nat := 0x48
/-- E2E_LENGTH, minor, type E. -/
def kE2eLength : Nat := 0x49
/-- E2E_SRC, minor, type E. -/
def kE2eSrc : Nat := 0x4A
/-- E2E_HEADER, minor, type E. -/
def kE2eHeader : Nat := 0x4B
/-- Q0_BUDGET, minor, type E. -/
def kQ0Budget : Nat := 0x4C
/-- RING_GUARD, notice, type E. -/
def kRingGuard : Nat := 0x4D
/-- MIRROR_OVERFLOW, minor, type E. -/
def kMirrorOverflow : Nat := 0x4E
/-- CANVAS_CORRECTED, notice, type E. -/
def kCanvasCorrected : Nat := 0x60
/-- CANVAS_UNCORRECTABLE, major, type E. -/
def kCanvasUncorrectable : Nat := 0x61
/-- CANVAS_ADDR, major, type E. -/
def kCanvasAddr : Nat := 0x62
/-- CANVAS_WCOLL, notice, type E. -/
def kCanvasWcoll : Nat := 0x63
/-- CANVAS_RET_LOST, minor, type E. -/
def kCanvasRetLost : Nat := 0x64
/-- CANVAS_BANK_FAIL, major, type E. -/
def kCanvasBankFail : Nat := 0x65
/-- CANVAS_BANK_INCOMPLETE, notice, type E. -/
def kCanvasBankIncomplete : Nat := 0x66
/-- CANVAS_NO_FREE_BANK, minor, type C. -/
def kCanvasNoFreeBank : Nat := 0x67
/-- DRAM_CORRECTED, notice, type E. -/
def kDramCorrected : Nat := 0x68
/-- DRAM_UNCORRECTABLE, major, type E. -/
def kDramUncorrectable : Nat := 0x69
/-- DRAM_TMR_MINORITY, notice, type E. -/
def kDramTmrMinority : Nat := 0x6A
/-- DRAM_TMR_NO_MAJORITY, major, type E. -/
def kDramTmrNoMajority : Nat := 0x6B
/-- CST_CORRECTED, notice, type E. -/
def kCstCorrected : Nat := 0x6C
/-- CST_UNCORRECTABLE, major, type E. -/
def kCstUncorrectable : Nat := 0x6D
/-- CST_WRITE_PROTECT, notice, type E. -/
def kCstWriteProtect : Nat := 0x6E
/-- DMA_REFUSED, notice, type E. -/
def kDmaRefused : Nat := 0x6F
/-- CAN_ERROR_PASSIVE, minor, type C. -/
def kCanErrorPassive : Nat := 0x80
/-- CAN_BUS_OFF, major, type C. -/
def kCanBusOff : Nat := 0x81
/-- CAN_PROTOCOL, notice, type E. -/
def kCanProtocol : Nat := 0x82
/-- LIN_ERROR, notice, type E. -/
def kLinError : Nat := 0x83
/-- LIN_NO_RESPONSE, minor, type E. -/
def kLinNoResponse : Nat := 0x84
/-- RX_DROP, minor, type E. -/
def kRxDrop : Nat := 0x85
/-- TX_REFUSED, notice, type E. -/
def kTxRefused : Nat := 0x86
/-- ETH_LINK_DOWN, major, type C. -/
def kEthLinkDown : Nat := 0x87
/-- ETH_SQI_LOW, minor, type C. -/
def kEthSqiLow : Nat := 0x88
/-- ETH_FCS, notice, type E. -/
def kEthFcs : Nat := 0x89
/-- MACSEC_DROP, notice, type E. -/
def kMacsecDrop : Nat := 0x8A
/-- PSFP_DROP, notice, type E. -/
def kPsfpDrop : Nat := 0x8B
/-- FRER_LOSS, minor, type E. -/
def kFrerLoss : Nat := 0x8C
/-- GPTP_UNSYNC, minor, type C. -/
def kGptpUnsync : Nat := 0x8D
/-- PCIE_LINK_DOWN, major, type C. -/
def kPcieLinkDown : Nat := 0x8E
/-- PCIE_AER_CORRECTED, notice, type E. -/
def kPcieAerCorrected : Nat := 0x8F
/-- PCIE_AER_UNCORRECTABLE, major, type E. -/
def kPcieAerUncorrectable : Nat := 0x90
/-- PCIE_CPL_TIMEOUT, minor, type E. -/
def kPcieCplTimeout : Nat := 0x91
/-- PCIE_INBOUND_DENIED, notice, type E. -/
def kPcieInboundDenied : Nat := 0x92
/-- GNSS_PPS_LOSS, minor, type C. -/
def kGnssPpsLoss : Nat := 0x93
/-- ADC_REFERENCE, major, type C. -/
def kAdcReference : Nat := 0x94
/-- PIO_CMD_INVALID, notice, type E. -/
def kPioCmdInvalid : Nat := 0x95
/-- PIO_OUTPUT_MISMATCH, major, type E. -/
def kPioOutputMismatch : Nat := 0x96
/-- PULSE_IMPLAUSIBLE, minor, type E. -/
def kPulseImplausible : Nat := 0x97
/-- LOOPBACK_FAIL, notice, type E. -/
def kLoopbackFail : Nat := 0x98
/-- KEYSTORE_CORRECTED, notice, type E. -/
def kKeystoreCorrected : Nat := 0xA0
/-- KEYSTORE_UNCORRECTABLE, major, type E. -/
def kKeystoreUncorrectable : Nat := 0xA1
/-- TRNG_HEALTH, major, type C. -/
def kTrngHealth : Nat := 0xA2
/-- ENGINE_KAT_FAIL, major, type E. -/
def kEngineKatFail : Nat := 0xA3
/-- ENGINE_MISMATCH, major, type E. -/
def kEngineMismatch : Nat := 0xA4
/-- COUNTER_REPAIRED, notice, type E. -/
def kCounterRepaired : Nat := 0xA5
/-- COUNTER_NO_MAJORITY, critical, type E. -/
def kCounterNoMajority : Nat := 0xA6
/-- JOURNAL_CHAIN_BREAK, major, type E. -/
def kJournalChainBreak : Nat := 0xA7
/-- JOURNAL_NEAR_FULL, minor, type C. -/
def kJournalNearFull : Nat := 0xA8
/-- ROLLBACK_REFUSED, minor, type E. -/
def kRollbackRefused : Nat := 0xA9
/-- TIME_DISAGREE, minor, type C. -/
def kTimeDisagree : Nat := 0xAA
/-- TIME_RESTORED, minor, type E. -/
def kTimeRestored : Nat := 0xAB
/-- CARD_AUTH_FAIL, notice, type E. -/
def kCardAuthFail : Nat := 0xAC
/-- CARD_PROTOCOL_ERROR, notice, type E. -/
def kCardProtocolError : Nat := 0xAD
/-- CARD_SUPPLY_FAULT, minor, type E. -/
def kCardSupplyFault : Nat := 0xAE
/-- SEAL_FAIL, major, type E. -/
def kSealFail : Nat := 0xAF
/-- PLL_UNLOCK, major, type C. -/
def kPllUnlock : Nat := 0xB0
/-- PLL_FAILOVER, minor, type E. -/
def kPllFailover : Nat := 0xB1
/-- XTAL_FAIL, major, type C. -/
def kXtalFail : Nat := 0xB2
/-- SUPPLY_LOW, minor, type C. -/
def kSupplyLow : Nat := 0xB3
/-- SUPPLY_HIGH, major, type C. -/
def kSupplyHigh : Nat := 0xB4
/-- INPUT_LOST, minor, type C. -/
def kInputLost : Nat := 0xB5
/-- SUPPLY_LOSS, minor, type E. -/
def kSupplyLoss : Nat := 0xB6
/-- RAIL_FAULT, critical, type E. -/
def kRailFault : Nat := 0xB7
/-- DOMAIN_SWITCH_FAULT, major, type E. -/
def kDomainSwitchFault : Nat := 0xB8
/-- HOLDUP_LOW, major, type C. -/
def kHoldupLow : Nat := 0xB9
/-- THERMAL_WARN, minor, type C. -/
def kThermalWarn : Nat := 0xBA
/-- THERMAL_CRIT, critical, type C. -/
def kThermalCrit : Nat := 0xBB
/-- EXT3V3_FAULT, major, type C. -/
def kExt3v3Fault : Nat := 0xBC
/-- SUP_WDG_TIMEOUT, major, type E. -/
def kSupWdgTimeout : Nat := 0xC0
/-- WDG_TIMEOUT, major, type E. -/
def kWdgTimeout : Nat := 0xC1
/-- WDG_EARLY, major, type E. -/
def kWdgEarly : Nat := 0xC2
/-- WDG_BAD_KEY, major, type E. -/
def kWdgBadKey : Nat := 0xC3
/-- TSM_DUPLICATE, minor, type E. -/
def kTsmDuplicate : Nat := 0xC4
/-- TSM_MISSING, major, type E. -/
def kTsmMissing : Nat := 0xC5
/-- TSM_ORDER, minor, type E. -/
def kTsmOrder : Nat := 0xC6
/-- TSM_LATE, minor, type E. -/
def kTsmLate : Nat := 0xC7
/-- TSM_UNKNOWN, minor, type E. -/
def kTsmUnknown : Nat := 0xC8
/-- SAFE_ENGAGED, major, type C. -/
def kSafeEngaged : Nat := 0xD0
/-- SAFE_RELEASED, notice, type E. -/
def kSafeReleased : Nat := 0xD1
/-- SSQ_ARM_INVALID, notice, type E. -/
def kSsqArmInvalid : Nat := 0xD2
/-- SSQ_TX_FAIL, minor, type E. -/
def kSsqTxFail : Nat := 0xD3
/-- SSQ_SLICE, minor, type E. -/
def kSsqSlice : Nat := 0xD4
/-- SSQ_OSC, minor, type C. -/
def kSsqOsc : Nat := 0xD5
/-- SSQ_SELF, critical, type E. -/
def kSsqSelf : Nat := 0xD6
/-- FCR_SLICE, minor, type E. -/
def kFcrSlice : Nat := 0xE0
/-- FCR_SELF, critical, type E. -/
def kFcrSelf : Nat := 0xE1
/-- ESCALATION, critical, type E. -/
def kEscalation : Nat := 0xE2
/-- CLK_MAIN_LOSS, critical, type C. -/
def kClkMainLoss : Nat := 0xE3
/-- BST_ENGINE_FAULT, major, type E. -/
def kBstEngineFault : Nat := 0xE8

/-- Kinds of severity minor. -/
def kindsMinor : List Nat :=
  [0x05, 0x06, 0x11, 0x14, 0x17, 0x1B, 0x35, 0x36, 0x42, 0x44, 0x47, 0x48, 0x49, 0x4A, 0x4B, 0x4C, 0x4E, 0x64, 0x67, 0x80, 0x84, 0x85, 0x88, 0x8C, 0x8D, 0x91, 0x93, 0x97, 0xA8, 0xA9, 0xAA, 0xAB, 0xAE, 0xB1, 0xB3, 0xB5, 0xB6, 0xBA, 0xC4, 0xC6, 0xC7, 0xC8, 0xD3, 0xD4, 0xD5, 0xE0]
/-- Kinds of severity major. -/
def kindsMajor : List Nat :=
  [0x13, 0x18, 0x19, 0x1C, 0x1E, 0x30, 0x43, 0x46, 0x61, 0x62, 0x65, 0x69, 0x6B, 0x6D, 0x81, 0x87, 0x8E, 0x90, 0x94, 0x96, 0xA1, 0xA2, 0xA3, 0xA4, 0xA7, 0xAF, 0xB0, 0xB2, 0xB4, 0xB8, 0xB9, 0xBC, 0xC0, 0xC1, 0xC2, 0xC3, 0xC5, 0xD0, 0xE8]
/-- Kinds of severity critical. -/
def kindsCritical : List Nat := [0x12, 0x31, 0xA6, 0xB7, 0xBB, 0xD6, 0xE1, 0xE2, 0xE3]
/-- Kinds of severity notice. -/
def kindsNotice : List Nat :=
  [0x01, 0x02, 0x03, 0x04, 0x10, 0x15, 0x16, 0x1A, 0x1D, 0x32, 0x33, 0x34, 0x40, 0x41, 0x45, 0x4D, 0x60, 0x63, 0x66, 0x68, 0x6A, 0x6C, 0x6E, 0x6F, 0x82, 0x83, 0x86, 0x89, 0x8A, 0x8B, 0x8F, 0x92, 0x95, 0x98, 0xA0, 0xA5, 0xAC, 0xAD, 0xD1, 0xD2]
/-- Condition kinds (type C). -/
def kindsCond : List Nat := [0x17, 0x1B, 0x43, 0x67, 0x80, 0x81, 0x87, 0x88, 0x8D, 0x8E, 0x93, 0x94, 0xA2, 0xA8, 0xAA, 0xB0, 0xB2, 0xB3, 0xB4, 0xB5, 0xB9, 0xBA, 0xBB, 0xBC, 0xD0, 0xD5, 0xE3]

/-- R453: the severity that Table 09.3 gives a kind. -/
def sevOf (k : Nat) : Nat :=
  if kindsCritical.contains k then 3 else if kindsMajor.contains k then 2
  else if kindsMinor.contains k then 1 else 0

/-- A kind of type C. -/
def isCond (k : Nat) : Bool := kindsCond.contains k

/-- A code that is a kind (Table 09.3). -/
def isKind (k : Nat) : Bool :=
  kindsNotice.contains k || kindsMinor.contains k || kindsMajor.contains k || kindsCritical.contains k

/-- The subject tag "none" (R455). -/
def tagNone : Nat := 0xFFF
/-- The subject tag of a partition (R455). -/
def tagPid (pid : Nat) : Nat := 0x400 + pid

/-- A source's next message enters its FIFO; it is dropped and counted when the FIFO holds eight (R454, R456). -/
def FaultSrc.push (f : FaultSrc) (msg : Nat → FaultMsg) : FaultSrc :=
  let s := wrapInc 16 f.seq
  if f.fifo.length < 8 then { f with seq := s, fifo := f.fifo ++ [msg s] }
  else { f with seq := s, dropped := satInc 10 f.dropped }

/-- A source reports: the message takes the time of detection and the severity of its kind (R452 to R456). -/
def reportI (m : Dg) (injected : Bool) (src kind detail addr subject : Nat) : Dg :=
  { m with srcs := SMap.upd m.srcs src fun f =>
      f.push fun s =>
        { src := src, kind := kind, sev := sevOf kind, detail := detail % 2 ^ 10, addr := addr % 2 ^ 48,
          time := m.now % 2 ^ 32, seq := s, subject := subject, injected := injected, ended := false } }

/-- A report with its DETAIL, ADDRESS and subject tag. -/
def report (m : Dg) (src kind detail addr subject : Nat) : Dg := reportI m false src kind detail addr subject

/-- A block's report of a fault of its own: it carries its own source ID as subject (R455). -/
def reportOwn (m : Dg) (src kind detail addr : Nat) : Dg := report m src kind detail addr src

/-- The DETAIL of a message for which no block lays one down (Table 09.1; notes/assumptions/13.md). -/
def openDetail (m : Dg) (src kind : Nat) : Nat := (Config.openDetail src kind m.now (SMap.get m.srcs src).seq).toNat

/-- A block's report of a fault of its own whose DETAIL the spec does not state. -/
def reportOpen (m : Dg) (src kind addr : Nat) : Dg := reportOwn m src kind (openDetail m src kind) addr

/-- R463: a condition of a source ends: the messages that a test picks are no longer LIVE, and TRANSIENT unless a read has
returned them so; one that FCR has not accepted yet is marked. -/
def endCondIf (m : Dg) (src kind : Nat) (p : FaultMsg → Bool) : Dg :=
  let hit (x : FaultMsg) : Bool := x.src == src && x.kind == kind && p x
  { m with
    fcr := { m.fcr with log := m.fcr.log.map fun e =>
      if e.2.live && hit e.2.msg then (e.1, { e.2 with live := false, transient := !e.2.readLive }) else e }
    srcs := SMap.upd m.srcs src fun f => { f with fifo := f.fifo.map fun x => if hit x then { x with ended := true } else x } }

/-- A message of one of some kinds has ended. -/
def FaultMsg.endOf (ks : List Nat) (x : FaultMsg) : FaultMsg := if ks.contains x.kind then { x with ended := true } else x

/-- An entry of one of some kinds is no longer LIVE. -/
def LogEntry.endOf (ks : List Nat) (e : LogEntry) : LogEntry :=
  if e.live && ks.contains e.msg.kind then { e with live := false, transient := !e.readLive } else e

/-- The conditions of some kinds end at every source. -/
def endKinds (m : Dg) (ks : List Nat) : Dg :=
  { m with fcr := { m.fcr with log := m.fcr.log.map fun e => (e.1, e.2.endOf ks) },
           srcs := m.srcs.map fun e => (e.1, { e.2 with fifo := e.2.fifo.map (FaultMsg.endOf ks) }) }

/-- A condition of a source ends. -/
def endCond (m : Dg) (src kind : Nat) : Dg := endCondIf m src kind fun _ => true

/-! ### Policy records -/

/-- Is BLOCK_RESET selectable for a source (R459). -/
def resettable (src : Nat) : Bool :=
  src < 0x028 || (0x060 ≤ src && src < 0x064) || (0x090 ≤ src && src < 0x0B4) || src == 0x0B7 || src == 0x0B8 ||
  (0x0C0 ≤ src && src < 0x0C5) || (0x0D1 ≤ src && src < 0x0D6) || src == 0x0D8 || src == 0x0D9 ||
  (0x0E1 ≤ src && src < 0x0EF) || src == 0x104

/-- The bytes of a policy record (Table 09.5), and the record of 16 bytes. -/
def Policy.bytes (p : Policy) : List Byte :=
  leBytes 16 (pack [(8, p.normal), (8, p.severe), (8, p.threshold), (2, p.countSev), (2, p.reactSev), (4, 0),
    (32, p.windowUs), (16, p.irq), (8, p.target), (8, 0), (8, p.ovrKind), (8, p.ovrNormal), (8, p.ovrSevere), (8, 0)])

def Policy.ofBytes (l : List Byte) : Policy :=
  { normal := leAt l 0 1, severe := leAt l 1 1, threshold := leAt l 2 1, countSev := bits (leAt l 3 1) 0 2,
    reactSev := bits (leAt l 3 1) 2 2, windowUs := leAt l 4 4, irq := leAt l 8 2, target := leAt l 10 1,
    ovrKind := leAt l 12 1, ovrNormal := leAt l 13 1, ovrSevere := leAt l 14 1 }

/-- R466: the message offset of the first field at fault, if any. -/
def policyFault (src : Nat) (l : List Byte) : Option Nat :=
  let p := Policy.ofBytes l
  let sets := [p.normal, p.severe, p.ovrNormal, p.ovrSevere]
  let badSet (v : Nat) : Bool := bit v 7 || (bit v 3 && 0x028 ≤ src) || (bit v 2 && !resettable src)
  let has (i : Nat) : Bool := sets.any fun v => bit v i
  ([(36, badSet p.normal), (37, badSet p.severe), (38, p.threshold == 0), (39, bits (leAt l 3 1) 4 4 != 0),
    (40, p.windowUs == 0 || 65000000 < p.windowUs), (44, has 0 && !(8 ≤ p.irq && p.irq ≤ 511)),
    (46, (has 0 || has 1) && 0x34 < p.target), (47, leAt l 11 1 != 0), (48, p.ovrKind != 0 && !isKind p.ovrKind),
    (49, badSet p.ovrNormal), (50, badSet p.ovrSevere), (51, leAt l 15 1 != 0)].find? (·.2)).map (·.1)

end Sys2Proof.Machine
end

