-- ==== Sys2Proof/Machine/Irq.lean ====
section
/-! DEFINITION. W1C event flags with overrun counters (R18, R80), and the pending bits of the interrupt controllers with
the routing of sources (R221 to R223). -/
namespace Sys2Proof.Machine

/-- The context number of Labazor-S. -/
def supCtx : CtxId := 56

def getCtx (m : Dg) (c : CtxId) : Ctx := SMap.get m.ctx c
def setCtx (m : Dg) (c : CtxId) (x : Ctx) : Dg := { m with ctx := SMap.set m.ctx c x }
def updCtx (m : Dg) (c : CtxId) (f : Ctx → Ctx) : Dg := setCtx m c (f (getCtx m c))

/-- Hardware sets flag `i`; a second event while it is set counts in its overrun counter, `w` bits wide. -/
def Evt.setW (w : Nat) (e : Evt) (i : Nat) : Evt :=
  if bit e.flags i then { e with ovr := SMap.upd e.ovr i fun n => satInc w n }
  else { e with flags := setBits e.flags i 1 1 }

/-- Hardware sets flag `i` (8-bit overrun counter). -/
def Evt.set (e : Evt) (i : Nat) : Evt := e.setW 8 i

/-- A write clears flag `i` and its overrun counter (R80). -/
def Evt.clear (e : Evt) (i : Nat) : Evt :=
  { flags := setBits e.flags i 1 0, ovr := SMap.set e.ovr i 0 }

/-- R18: a W1C write of `v` to the `n` flags while hardware sets the flags `hw` in the same cycle: a set wins. -/
def Evt.w1cW (w : Nat) (e : Evt) (n v hw : Nat) : Evt :=
  (List.range n).foldl (fun e i => if bit hw i then e.setW w i else if bit v i then e.clear i else e) e

/-- R18 with 8-bit overrun counters. -/
def Evt.w1c (e : Evt) (n v hw : Nat) : Evt := e.w1cW 8 n v hw

/-- The overrun register: counter `i` in bits [8i + 7 : 8i]. -/
def Evt.ovrWord (e : Evt) (n : Nat) : Nat := pack ((List.range n).map fun i => (8, SMap.get e.ovr i))

/-- Has a flag become set. -/
def Evt.newly (old new : Evt) (n : Nat) : Bool := (List.range n).any fun i => bit new.flags i && !bit old.flags i

/-- R223: an event of a source sets its pending bit when the source is enabled; sources 0 and 1 are enabled where they
arise (notes/assumptions/19.md). -/
def raiseIrq (m : Dg) (c : CtxId) (src : Nat) : Dg :=
  let x := getCtx m c
  if src < 2 || (SMap.get x.irqCfg src).enabled then setCtx m c { x with irqPend := SMap.set x.irqPend src true } else m

/-- The context that runs a partition: Labazor-S for 0x00, otherwise the lowest context that holds the partition
(its live slot rather than the shadow slot 4 × s + 3). -/
def ctxOfPid (m : Dg) (pid : Nat) : Option CtxId :=
  if pid = 0 then some supCtx
  else ((List.range 56).find? fun c => (SMap.get m.ctx c).pid == pid)

/-- Raises a source of the context that runs a partition; source 0 stands for none where a record gives it. -/
def raisePid (m : Dg) (pid src : Nat) : Dg :=
  if src = 0 then m else match ctxOfPid m pid with
    | some c => raiseIrq m c src
    | none => m

/-- The IRQ records of an ORIGIN and UNIT raise their sources (Table 08.16). -/
def raiseOrigin (m : Dg) (origin unit : Nat) : Dg :=
  ((recs m 0x0009).filter fun r => r.f 4 1 == origin && r.f 6 2 == unit).foldl
    (fun m r => raisePid m (r.f 0 1) (r.f 2 2)) m

/-- The same for one receiving partition: events of its own context (ORIGIN 4 and 5). -/
def raiseOriginPid (m : Dg) (origin pid : Nat) : Dg :=
  ((recs m 0x0009).filter fun r => r.f 4 1 == origin && r.f 0 1 == pid).foldl
    (fun m r => raisePid m pid (r.f 2 2)) m

end Sys2Proof.Machine
end

