-- ==== Sys2Proof/Machine/Mem.lean ====
section
/-! DEFINITION. Canvas RAM, DRAM and the code store as addressed words with their storage code (spec/06 R302 to R343):
the memory map, reads with correction and voting, whole and partial writes. -/
namespace Sys2Proof.Machine

/-- A draw of a free value: random numbers and values the spec leaves open (notes/assumptions/7.md). -/
def draw (m : Dg) : Dg × Nat := ({ m with freeCount := m.freeCount + 1 }, Config.freeValue m.freeCount)

/-- The ranges of Table 06.1, and the lane SRAM of Labazor-S (R350). -/
inductive Region where
  | rom
  | sram
  | window
  | canvas
  | palette
  | regs
  | store
  | dram
  | pcie
  | unmapped
  deriving DecidableEq, Repr

def canvasBase : Nat := 0x20000000
def paletteBase : Nat := 0x30000000
def regBase : Nat := 0x40000000
def storeBase : Nat := 0x60000000
/-- The key records begin here: the last MiB of the configuration region (notes/assumptions/30.md). -/
def keyRecBase : Nat := 0x75F00000
def dramBase : Nat := 0x1000000000
def sramBase : Nat := 0x08000000
def windowBase : Nat := 0x10000000
def pcieBase : Nat := 0x10000000000

/-- Segments of the usable DRAM range (R331). -/
def dramSegs (m : Dg) : Nat := if m.part.dramB then 14 else 28

/-- The segment of a DRAM address. -/
def dramSeg (a : Nat) : Nat := (a - dramBase) / 0x20000000

/-- The range an address lies in (Table 06.1); `sup` for Labazor-S, which alone sees the lane SRAM. -/
def regionOf (m : Dg) (sup : Bool) (a : Nat) : Region :=
  if a < 0x80000 then .rom
  else if sramBase ≤ a ∧ a < sramBase + 0x100000 then (if sup then .sram else .unmapped)
  else if windowBase ≤ a ∧ a < 0x18000000 then .window
  else if canvasBase ≤ a ∧ a < 0x24000000 then .canvas
  else if paletteBase ≤ a ∧ a < 0x30800000 then .palette
  else if regBase ≤ a ∧ a < 0x50000000 then .regs
  else if storeBase ≤ a ∧ a < 0x78000000 then .store
  else if dramBase ≤ a ∧ a < dramBase + dramSegs m * 0x20000000 then
    (if bit m.drc.tmrHidden (dramSeg a) then .unmapped else .dram)
  else if 0x10000000000 ≤ a ∧ a < 0x20000000000 then .pcie
  else .unmapped

/-- Every byte of a span lies in one range; in DRAM every segment that it touches is mapped (R335). -/
def spanIn (m : Dg) (sup : Bool) (reg : Region) (a len : Nat) : Bool :=
  regionOf m sup a == reg && regionOf m sup (a + len - 1) == reg &&
  (reg != .dram || (List.range (dramSeg (a + len - 1) - dramSeg a)).all fun i => !bit m.drc.tmrHidden (dramSeg a + i))

/-- Memory.wf: the stored bytes are in canonical form. -/
def Memory.wf (mem : List Host.Cell) : Bool := SMap.wf mem

/-- A byte of the stored memories; an unlisted byte reads 0 (notes/assumptions/2.md). -/
def peek (m : Dg) (a : Nat) : Byte := SMap.get m.mem a

/-- A byte stored. -/
def poke (m : Dg) (a : Nat) (b : Byte) : Dg := { m with mem := SMap.set m.mem a b }

/-- Bytes stored at consecutive addresses. -/
def pokes (m : Dg) (a : Nat) : List Byte → Dg
  | [] => m
  | b :: r => pokes (poke m a b) (a + 1) r

/-- Consecutive bytes as stored. -/
def peeks (m : Dg) (a len : Nat) : List Byte := (List.range len).map fun i => peek m (a + i)

/-- Every byte of a range cleared to 0. -/
def clearRange (m : Dg) (a len : Nat) : Dg :=
  { m with mem := m.mem.filter (fun e => !(a ≤ e.1 && e.1 < a + len)),
           errs := m.errs.filter (fun e => !(a ≤ e.1 / 4 * 16 && e.1 / 4 * 16 < a + len)) }

/-- What the storage code makes of a word whose stored bits differ by a pattern (R306). -/
inductive Ecc where
  | clean
  | corrected
  /-- beyond the guarantees and not detected: the data read differ by the pattern -/
  | wrong (x : BitVec 128)
  | uncorrectable
  deriving DecidableEq, Repr

/-- R306: single errors are corrected; double errors and errors confined to four adjacent bits are detected; what
happens beyond is open (notes/assumptions/12.md). -/
def eccOf (e : BitVec 144) : Ecc :=
  if e = 0 then .clean else
  let ones := (List.range 144).filter fun i => e.getLsbD i
  match ones with
  | [] => .clean
  | [_] => .corrected
  | [_, _] => .uncorrectable
  | lo :: r =>
    if r.getLastD lo - lo ≤ 3 then .uncorrectable
    else match Config.eccBeyond e with
      | none => .uncorrectable
      | some x => .wrong x

/-- Who makes an access, as far as reports tell: the Canvas port (0 studios and fabric, 1 DMA agents, supervisor, Easel,
scrubber), and the studio whose code-store port is used (4 for the supervisor and DMA port). -/
structure Via where
  port : Nat
  studio : Nat
  deriving DecidableEq, Repr

/-- The fabric and the hardware endpoints. -/
def viaFabric : Via := ⟨0, 4⟩
/-- The supervisor, the DMA agents, Easel and the scrubber. -/
def viaPort1 : Via := ⟨1, 4⟩

/-- The logical bank of a Canvas address, 32 × quadrant + bank (R304). -/
def bankOf (a : Nat) : Nat := (a - canvasBase) / 0x80000

/-- The physical bank that holds a Canvas word: the free bank for the lines already copied (R318). -/
def physOf (m : Dg) (a : Nat) : Nat :=
  let qd := SMap.get m.cnv.quad (bankOf a / 32)
  let b := bankOf a % 32
  if qd.phase == 1 && qd.migBank == b && (a - canvasBase) % 0x80000 / 128 < qd.migLine then qd.free
  else SMap.get qd.remap b

/-- The power state of the bank of a Canvas address. -/
def bankPower (m : Dg) (a : Nat) : BankPower := (SMap.get m.cnv.bank (bankOf a)).power

/-- The bank of a Canvas address is waking: an access waits (R325). -/
def wakingAt (m : Dg) (a : Nat) : Bool := regionOf m true a == .canvas && bankPower m a == .waking

/-- An access to the bank completes with an error response (R325). -/
def bankDark (m : Dg) (a : Nat) : Bool :=
  match bankPower m a with
  | .off => true
  | .retain => true
  | _ => false

def errKey (wa copy : Nat) : Nat := 4 * (wa / 16) + copy

/-- The word whose error marks an address has: the aligned 16-byte word. -/
def wordOf (a : Nat) : Nat := a / 16 * 16

/-- The 128 stored data bits of a word. -/
def peekWord (m : Dg) (wa : Nat) : Nat := ofLe (peeks m (wordOf wa) 16)

/-- The error marks of a stored copy; a copy that is right again is no longer an injected one (R514). -/
def setErr (m : Dg) (wa copy : Nat) (e : BitVec 144) : Dg :=
  { m with errs := SMap.set m.errs (errKey wa copy) e,
           ftest := if e = 0 then { m.ftest with words := SMap.set m.ftest.words (errKey wa copy) false } else m.ftest }

/-- A report about a stored word is marked as injected when an injection inverted its bits (R514). -/
def wordReport (m : Dg) (src kind detail wa copy : Nat) : Dg :=
  reportI m (SMap.get m.ftest.words (errKey wa copy)) src kind detail wa src

def getErr (m : Dg) (wa copy : Nat) : BitVec 144 := SMap.get m.errs (errKey wa copy)

def pokeWord (m : Dg) (wa n : Nat) : Dg := pokes m (wordOf wa) (leBytes 16 n)

/-- A Canvas report (R348). -/
def canvasReport (m : Dg) (v : Via) (kind wa : Nat) : Dg :=
  wordReport m (0x070 + bankOf wa / 32) kind (physOf m wa + 64 * v.port) (wordOf wa) 0

def updBank (m : Dg) (k : Nat) (f : Bank → Bank) : Dg :=
  { m with cnv := { m.cnv with bank := SMap.upd m.cnv.bank k f } }

/-- R306 to R308: a read of a Canvas word. -/
def readCanvas (m : Dg) (v : Via) (wrongAddr : Bool) (wa : Nat) : Dg × Option Nat :=
  let bad (m : Dg) (k : Nat) : Dg × Option Nat :=
    (updBank (canvasReport m v k wa) (bankOf wa) fun b => { b with uncorr := satInc 8 b.uncorr }, none)
  let fixed (m : Dg) (n : Nat) : Dg × Option Nat :=
    (updBank (setErr (canvasReport m v kCanvasCorrected wa) wa 0 0) (bankOf wa) fun b =>
      { b with corr := satInc 16 b.corr }, some n)
  if wrongAddr then bad m kCanvasAddr
  else match eccOf (getErr m wa 0) with
    | .clean => (m, some (peekWord m wa))
    | .corrected => fixed m (peekWord m wa)
    | .wrong x => fixed (pokeWord m wa (peekWord m wa ^^^ x.toNat)) (peekWord m wa ^^^ x.toNat)
    | .uncorrectable => bad m kCanvasUncorrectable

/-- The DRAM channel of a copy of a word (R331, R336); copy 0 of a word outside a triplicated group. -/
def dramChannel (m : Dg) (a copy : Nat) : Nat :=
  let g := (a - dramBase) % 0x20000000 / 256
  if bit m.drc.tmrFirst (dramSeg a) then (g + copy) % 4 else (g + dramSeg a * 2) % 4

def updDrc (m : Dg) (f : Drc → Drc) : Dg := { m with drc := f m.drc }

/-- A DRAM report under the channel's source (R348). -/
def dramReport (m : Dg) (kind wa copy : Nat) : Dg :=
  let c := dramChannel m wa copy
  wordReport m (0x080 + c) kind c (wordOf wa) copy

/-- R332, R333: one copy of a DRAM word: the value read, none when uncorrectable. -/
def readDramCopy (m : Dg) (wa copy : Nat) : Dg × Option Nat :=
  let fixed (n : Nat) : Dg × Option Nat :=
    (setErr (dramReport (updDrc m fun d => { d with corr := satInc 32 d.corr }) kDramCorrected wa copy) wa copy 0, some n)
  match eccOf (getErr m wa copy) with
  | .clean => (m, some (peekWord m wa))
  | .corrected => fixed (peekWord m wa)
  | .wrong x => fixed (peekWord m wa ^^^ x.toNat)
  | .uncorrectable => (m, none)

/-- The value that two of three copies give (Table 06.3). -/
def voteCopies : Option Nat → Option Nat → Option Nat → Option Nat
  | some a, some b, c => if a = b then some a else if c = some a then some a else if c = some b then some b else none
  | some a, none, some c => if a = c then some a else none
  | none, some b, some c => if b = c then some b else none
  | _, _, _ => none

/-- A word made to hold a value; nothing changes where it holds it already. -/
def restore (m : Dg) (wa n : Nat) : Dg := if peekWord m wa = n then m else pokeWord m wa n

/-- R336, R337: the copies of a triplicated word as read are voted, and a copy that differs is rewritten. -/
def voteDram (m : Dg) (wa : Nat) (a b c : Option Nat) : Dg × Option Nat :=
  let inj := [0, 1, 2].any fun k => SMap.get m.ftest.words (errKey wa k)
  match voteCopies a b c with
  | none => (reportI m inj 0x084 kDramTmrNoMajority (openDetail m 0x084 kDramTmrNoMajority) (wordOf wa) 0x084, none)
  | some x =>
    if a = some x ∧ b = some x ∧ c = some x then (m, some x)
    else
      let m := restore (setErr (setErr (setErr m wa 0 0) wa 1 0) wa 2 0) wa x
      let bad := if a ≠ some x then 0 else if b ≠ some x then 1 else 2
      (reportI (updDrc m fun d => { d with tmrRepair := satInc 16 d.tmrRepair }) inj 0x084 kDramTmrMinority
        (dramChannel m wa bad) (wordOf wa) 0x084, some x)

/-- R332 to R337: a read of a DRAM word. -/
def readDram (m : Dg) (wa : Nat) : Dg × Option Nat :=
  if bit m.drc.tmrFirst (dramSeg wa) then
    let (m, a) := readDramCopy m wa 0
    let (m, b) := readDramCopy m wa 1
    let (m, c) := readDramCopy m wa 2
    voteDram m wa a b c
  else
    let (m, a) := readDramCopy m wa 0
    match a with
    | some x => (restore m wa x, some x)
    | none => (dramReport (updDrc m fun d => { d with uncorr := satInc 16 d.uncorr }) kDramUncorrectable wa 0, none)

/-- R332, R337: a read of a triplicated word of which one copy returns the word of another address. -/
def readDramWrong (m : Dg) (wa k : Nat) : Dg × Option Nat :=
  let copy (m : Dg) (i : Nat) : Dg × Option Nat := if i = k then (m, none) else readDramCopy m wa i
  let (m, a) := copy m 0
  let (m, b) := copy m 1
  let (m, c) := copy m 2
  voteDram m wa a b c

/-- The source that reports code-store reads (R348). -/
def storeSrc (v : Via) : Nat := if v.studio < 4 then 0x088 + v.studio else 0x08C

/-- R343: a read of a code-store word. -/
def readStore (m : Dg) (v : Via) (wa : Nat) : Dg × Option Nat :=
  match eccOf (getErr m wa 0) with
  | .clean => (m, some (peekWord m wa))
  | .corrected => (reportOpen m (storeSrc v) kCstCorrected (wordOf wa), some (peekWord m wa))
  | .wrong x => (reportOpen m (storeSrc v) kCstCorrected (wordOf wa), some (peekWord m wa ^^^ x.toNat))
  | .uncorrectable =>
    let l := wa / 128 * 128
    let m := reportOpen m (storeSrc v) kCstUncorrectable (wordOf wa)
    (if 0x61000000 ≤ wa ∧ wa < 0x71000000 ∧ !m.boot.rewrite.contains l then
      { m with boot := { m.boot with rewrite := m.boot.rewrite ++ [l] } } else m, none)

/-- R306, R332, R338: a read that returns the word of another address: its check bits find it, and the error is uncorrectable. -/
def wrongAddrRead (m : Dg) (v : Via) (a : Nat) : Dg :=
  match regionOf m true a with
  | .canvas => (readCanvas m v true (wordOf a)).1
  | .store => reportOpen m (storeSrc v) kCstUncorrectable (wordOf a)
  | .dram => dramReport (updDrc m fun d => { d with uncorr := satInc 16 d.uncorr }) kDramUncorrectable (wordOf a) 0
  | _ => m

/-- A collision of writes at the two ports (R311): port 1's is discarded, the bank counts it and it is reported. -/
def collide (m : Dg) (a : Nat) : Dg :=
  updBank (canvasReport m viaPort1 kCanvasWcoll a) (bankOf a) fun b => { b with wcoll := satInc 16 b.wcoll }

/-- The 16 bytes of the Gesso ROM at a word. -/
def romWord (wa : Nat) : Nat := ofLe ((List.range 16).map fun i => Config.romByte (wa / 16 * 16 + i))

/-- Memory writes that the PCIe root port accepts leave the module (R566). -/
def pcieWrote (m : Dg) (l : List (Nat × List Byte)) : Dg := { m with net := { m.net with pci := { m.net.pci with wrote := l } } }

/-! ### The Palette as memory (R254) -/

/-- Word 0 of a descriptor (Table 05.3). -/
def Queue.word0 (x : Queue) : Nat :=
  pack [(1, b2n x.valid), (3, x.cls), (4, x.slotLog), (5, x.depthLog), (1, b2n x.dram), (1, b2n x.check), (1, b2n x.notify),
        (42, x.base), (6, x.flipgrp), (8, x.prod0), (8, x.cons0), (8, x.prod1), (8, x.cons1), (18, x.link), (2, x.linkmode),
        (1, b2n x.digest), (8, x.digidx), (1, b2n x.twin), (2, 0)]

/-- Word 1 of a descriptor (Table 05.4). -/
def Queue.word1 (x : Queue) : Nat :=
  pack [(17, x.wr), (17, x.vis), (17, x.rd), (17, x.rel), (16, x.seq), (16, x.budget), (2, x.budgetWin), (8, x.crcErr),
        (8, x.seqErr), (8, x.otherErr), (1, b2n x.broken), (1, 0)]

/-- The stored word of the Palette at an address: the state of a queue in the upper half of its 32 bytes. -/
def readPalette (m : Dg) (a : Nat) : Nat :=
  let x := SMap.get m.fab.q ((a - paletteBase) / 32)
  if bit a 4 then x.word1 else x.word0

/-- An endpoint code of Table 05.2. -/
def endpointCode (ep : Nat) : Bool := ep < 0x5E || (0x60 ≤ ep && ep < 0x68) || ep == 0x70 || ep == 0x7F

/-- R17: a value of word 0 with a reserved SLOT_LOG, DEPTH_LOG or endpoint (Tables 05.2, 05.3). -/
def reservedWord0 (n : Nat) : Bool :=
  9 ≤ bits n 4 4 || 17 ≤ bits n 8 5 || bits n 8 5 == 0 || !((List.range 4).all fun i => endpointCode (bits n (64 + 8 * i) 8))

/-- The RW fields of word 0 and of word 1 take a value (Tables 05.3, 05.4). -/
def Queue.written (x : Queue) (state : Bool) (n : Nat) : Queue :=
  if state then { x with budget := bits n 84 16, budgetWin := bits n 100 2 }
  else
    { x with valid := bit n 0, cls := bits n 1 3, slotLog := bits n 4 4, depthLog := bits n 8 5, dram := bit n 13,
             check := bit n 14, notify := bit n 15, base := bits n 16 42, flipgrp := bits n 58 6, prod0 := bits n 64 8,
             cons0 := bits n 72 8, prod1 := bits n 80 8, cons1 := bits n 88 8, link := bits n 96 18,
             linkmode := bits n 114 2, digest := bit n 116, digidx := bits n 117 8, twin := bit n 125 }

/-- A write of Labazor-S to a word of the Palette; one that places a reserved encoding is rejected whole and reported by
the Palette with the queue ID in ADDRESS (R17, notes/assumptions/13.md). -/
def writePalette (m : Dg) (a n : Nat) : Dg :=
  let q := (a - paletteBase) / 32
  if !bit a 4 && reservedWord0 n then reportOpen m 0x064 kRegReserved q
  else { m with fab := { m.fab with q := SMap.upd m.fab.q q fun x => x.written (bit a 4) n } }

/-- A read of the aligned word that holds an address; none is an error response. A dark Canvas bank answers so too
(R325); the regions that hold no stored bytes are read elsewhere. -/
def readWord (m : Dg) (v : Via) (a : Nat) : Dg × Option Nat :=
  match regionOf m true a with
  | .canvas => if bankDark m a then (m, none) else readCanvas m v false (wordOf a)
  | .dram => if m.drc.up then readDram m (wordOf a) else (m, none)
  | .store => if domOn m 51 then readStore m v (wordOf a) else (m, none)
  | .sram => (m, some (peekWord m a))
  | .rom => (m, some (romWord a))
  | .palette => (m, if domOn m 48 || domOn m 49 then some (readPalette m a) else none)
  | _ => (m, none)

/-- The bytes of a word selected by a mask replaced. -/
def mergeWord (old new : Nat) (mask : BitVec 16) : Nat :=
  ofLe ((List.range 16).map fun i => BitVec.ofNat 8 ((if mask.getLsbD i then new else old) / 2 ^ (8 * i)))

/-- Every copy of a word stored clean. -/
def storeClean (m : Dg) (wa n : Nat) : Dg :=
  pokeWord (setErr (setErr (setErr m wa 0 0) wa 1 0) wa 2 0) wa n

/-- R309, R333, R336: a write of the masked bytes of a word; false when it is refused and the word left as it was. -/
def writeWord (m : Dg) (v : Via) (a : Nat) (mask : BitVec 16) (data : Nat) : Dg × Bool :=
  let wa := wordOf a
  match regionOf m true a with
  | .sram => (pokeWord m wa (mergeWord (peekWord m wa) data mask), true)
  | .canvas =>
    if bankDark m a then (m, false)
    else if mask = BitVec.allOnes 16 then (storeClean m wa data, true)
    else match readCanvas m v false wa with
      | (m, some old) => (storeClean m wa (mergeWord old data mask), true)
      | (m, none) => (m, false)
  | .dram =>
    if !m.drc.up then (m, false)
    else if mask = BitVec.allOnes 16 then (storeClean m wa data, true)
    else match readDram m wa with
      | (m, some old) => (storeClean m wa (mergeWord old data mask), true)
      | (m, none) => (m, false)
  | .store => if domOn m 51 then (storeClean m wa (mergeWord (peekWord m wa) data mask), true) else (m, false)
  | .palette =>
    if domOn m 48 || domOn m 49 then (writePalette m a (mergeWord (readPalette m a) data mask), true) else (m, false)
  | _ => (m, false)

/-- The aligned words that a span of bytes touches. -/
def spanWords (a len : Nat) : List Nat :=
  if len = 0 then [] else (List.range ((a + len - 1) / 16 - a / 16 + 1)).map fun i => (a / 16 + i) * 16

/-- Words read one after the other; none when one answers with an error. -/
def readWords (m : Dg) (v : Via) : List Nat → Dg × Option (List Byte)
  | [] => (m, some [])
  | wa :: r =>
    match readWord m v wa with
    | (m, none) => (m, none)
    | (m, some n) =>
      match readWords m v r with
      | (m, none) => (m, none)
      | (m, some l) => (m, some (leBytes 16 n ++ l))

/-- A span of bytes read through the storage code; none when any word of it answers with an error. -/
def readSpan (m : Dg) (v : Via) (a len : Nat) : Dg × Option (List Byte) :=
  match readWords m v (spanWords a len) with
  | (m, some l) => (m, some ((l.drop (a % 16)).take len))
  | (m, none) => (m, none)

/-- Byte mask and data of the part of a span that lies in one word. -/
def sliceWord (a : Nat) (bs : List Byte) (wa : Nat) : BitVec 16 × Nat :=
  let off (i : Nat) : Option Byte := if a ≤ wa + i then bs[wa + i - a]? else none
  (BitVec.ofNat 16 (ofBitList ((List.range 16).map fun i => (off i).isSome)),
   ofLe ((List.range 16).map fun i => (off i).getD 0))

/-- Words written one after the other; the flag tells that every write was accepted. -/
def writeWords (m : Dg) (v : Via) (a : Nat) (bs : List Byte) : List Nat → Dg × Bool
  | [] => (m, true)
  | wa :: r =>
    let (mask, data) := sliceWord a bs wa
    match writeWord m v wa mask data with
    | (m, false) => (m, false)
    | (m, true) => writeWords m v a bs r

/-- A span of bytes written; it stops at the first refused word. -/
def writeSpan (m : Dg) (v : Via) (a : Nat) (bs : List Byte) : Dg × Bool :=
  writeWords m v a bs (spanWords a bs.length)

end Sys2Proof.Machine
end

