-- ==== Sys2Proof/Machine/FabricOps.lean ====
section
/-! DEFINITION. The queue fabric's operations (spec/05): indices and rings, publication and its checks, claims and
releases, status words, redirection of inactive endpoints, the ring guard, mirrors, digests and flips. -/
namespace Sys2Proof.Machine

/-- Difference of two indices modulo 2^17 (R258). -/
def idxSub (a b : Nat) : Nat := (a + 2 ^ 17 - b % 2 ^ 17) % 2 ^ 17
def idxAdd (a n : Nat) : Nat := (a + n) % 2 ^ 17

namespace Queue

def depth (q : Queue) : Nat := 2 ^ q.depthLog
def slotSize (q : Queue) : Nat := 64 * 2 ^ q.slotLog
/-- Ring base address: BASE holds bits [47:6]. -/
def ringBase (q : Queue) : Nat := q.base * 64
def ringSize (q : Queue) : Nat := q.depth * q.slotSize
/-- R257: address of the slot of an index. -/
def slotAddr (q : Queue) (i : Nat) : Nat := q.ringBase + i % q.depth * q.slotSize
/-- R258: free slots. -/
def free (q : Queue) : Nat := q.depth - idxSub q.wr q.rel
/-- R258: visible messages not claimed. -/
def count (q : Queue) : Nat := idxSub q.vis q.rd
/-- R258: claimed slots. -/
def claimed (q : Queue) : Nat := idxSub q.rd q.rel

end Queue

def getQ (m : Dg) (q : Nat) : Queue := SMap.get m.fab.q q
def setQ (m : Dg) (q : Nat) (x : Queue) : Dg := { m with fab := { m.fab with q := SMap.set m.fab.q q x } }
def updQ (m : Dg) (q : Nat) (f : Queue → Queue) : Dg := setQ m q (f (getQ m q))

/-- The active generation of a queue (R291). -/
def genOf (m : Dg) (x : Queue) : Bool := x.flipgrp != 0 && (SMap.get m.fab.flip x.flipgrp).gen

/-- The producer and the consumer of a binding. -/
def Queue.prod (x : Queue) (gen : Bool) : Nat := if gen then x.prod1 else x.prod0
def Queue.cons (x : Queue) (gen : Bool) : Nat := if gen then x.cons1 else x.cons0

/-- The power domain of a queue's ring is off (Table 05.10 code 5, R322). -/
def ringDark (m : Dg) (x : Queue) : Bool :=
  if x.dram then !m.drc.up
  else (List.range ((x.ringBase % 0x80000 + x.ringSize - 1) / 0x80000 + 1)).any fun i =>
    bankDark m (x.ringBase + i * 0x80000)

/-- A queue that operations may act on (R273 code 0x05). -/
def queueUsable (m : Dg) (x : Queue) : Bool := x.valid && !x.broken && !ringDark m x

/-- Source that reports for the memory of a ring: the checkers (Table 05.14). -/
def checkerSrc (x : Queue) : Nat := if x.dram then 0x069 else 0x065 + (x.ringBase - canvasBase) / 0x1000000 % 4

/-- Source ID of a hardware endpoint's block; the subject tag of a fault that concerns an endpoint (R455). -/
def endpointTag (ep : Nat) : Nat :=
  if ep < 0x40 then tagPid ep
  else if ep < 0x50 then 0x090 + (ep - 0x40)
  else if ep < 0x58 then 0x0A0 + (ep - 0x50)
  else if ep < 0x5A then 0x0A8 + 12 + (ep - 0x58)
  else if ep < 0x60 then 0x06F
  else if ep < 0x68 then 0x085
  else if ep = 0x70 then 0x0CF else tagNone

/-- An event in the FAB registers of a partition's context (R299, R300). -/
def fabEvt (m : Dg) (pid flag qid handle code : Nat) : Dg :=
  let y := SMap.get m.fab.my pid
  let y' : FabMy :=
    { evt := y.evt.set flag,
      lastErr := pack [(18, qid), (2, 0), (12, handle), (3, flag), (1, 0), (3, code)],
      lastTime := m.now }
  let m := { m with fab := { m.fab with my := SMap.set m.fab.my pid y' } }
  if bit y.evt.flags flag then m else raiseOriginPid m 4 pid

/-- R268, R269: publication of `n` slots by an endpoint through a handle: each takes its expected sequence number, and
one credit on a class-0 queue (R281). -/
def publish (m : Dg) (qid n ep handle : Nat) : Dg :=
  updQ m qid fun x =>
    { x with
      pubs := x.pubs ++ (List.range n).map (fun i => ⟨(x.seq + i) % 2 ^ 16, ep, handle⟩),
      wr := idxAdd x.wr n, seq := (x.seq + n) % 2 ^ 16,
      credits := if x.cls = 0 then x.credits - n else x.credits }

/-- R270: every claimed slot is released. -/
def releaseQ (m : Dg) (qid : Nat) : Dg := updQ m qid fun x => { x with rel := x.rd }

/-- R270: the slot at RD is claimed. -/
def claimQ (m : Dg) (qid : Nat) : Dg := updQ m qid fun x => { x with rd := idxAdd x.rd 1 }

/-- The void code of the message at an index. -/
def Queue.voidCode (x : Queue) (i : Nat) : Nat := SMap.get x.voids i

/-- The producer status word (Table 05.8). -/
def prodStatus (x : Queue) (diverted : Bool) : Quad :=
  BitVec.ofNat 128 (pack
    [(48, if x.free = 0 then 0 else x.slotAddr x.wr), (16, 0), (17, x.free), (15, 0), (16, x.seq),
     (3, x.cls), (1, b2n diverted), (4, x.slotLog), (5, x.depthLog)])

/-- The consumer status word (Table 05.9) for the slot at `i`, or with VALID = 0; `pendingN` is PENDING after the
operation. LENGTH and SEQ come from the message's header in the ring. -/
def consStatus (m : Dg) (x : Queue) (slot : Option Nat) (pendingN : Nat) : Quad :=
  match slot with
  | none => BitVec.ofNat 128 (pack [(64, 0), (17, pendingN)])
  | some i =>
    let hd := ofLe (peeks m (x.slotAddr i) 16)
    let vc := x.voidCode i
    BitVec.ofNat 128 (pack
      [(48, x.slotAddr i), (1, 1), (1, b2n (vc != 0)), (3, vc), (11, 0), (17, pendingN), (15, 0),
       (15, bits hd 0 15), (1, 0), (16, bits hd 64 16)])

/-- The context is the group in slot 4 × s + 3 of an underpainting, or a frozen revert point: the inactive endpoint
(R434). -/
def isShadowCtx (m : Dg) (c : CtxId) : Bool := c < 16 && (SMap.get m.stu.grp c).shadow

/-- The studio of a context; 4 for Labazor-S. -/
def studioOf (c : CtxId) : Nat := if c < 16 then c / 4 else if c < 56 then (c - 16) / 10 else 4

/-- The handle table entry that a context's handle names. -/
def handleOf (m : Dg) (c : CtxId) (h : Nat) : Handle := SMap.get m.fab.handles (4096 * (getCtx m c).pid + h)

/-- What a queue operation acts on: the queue, and whether it was redirected to the LINK queue (R271); otherwise the
refusal code 1 or 2 of Table 05.10. `dir` is 1 for producer operations and 2 for consumer operations. -/
def resolveQ (m : Dg) (c : CtxId) (h dir : Nat) : Except Nat (Nat × Bool) :=
  let e := handleOf m c h
  let pid := (getCtx m c).pid
  if e.dir = 0 then .error 1
  else if e.dir ≠ dir then .error 2
  else
    let x := getQ m e.q
    let g := genOf m x
    let act := if dir = 1 then x.prod g else x.cons g
    if !isShadowCtx m c && act == pid then .ok (e.q, false)
    else if (dir == 1 && x.linkmode == 2) || (dir == 2 && (x.linkmode == 1 || x.linkmode == 3)) then .ok (x.link, true)
    else .error 2

/-- Refusal of a publication of `n` slots: no free slot, a class-0 budget too small, or a queue that cannot be used; of the codes
that apply the lowest (R269, R273, R281). A queue that is not valid or BROKEN has no slots and no budget to judge by. -/
def publishRefusal (m : Dg) (x : Queue) (n : Nat) : Option Nat :=
  if !x.valid || x.broken then some 5
  else if x.free < n then some 3
  else if x.cls == 0 && x.credits < n then some 4
  else if ringDark m x then some 5
  else none

/-- Source of a studio interface's report, 0x06A + s; the interfaces of the hardware endpoints for Labazor-S. -/
def ifaceSrc (c : CtxId) : Nat := if c < 56 then 0x06A + studioOf c else 0x06F

/-- R609: ACCESS_DENIED, or another report of the studio interface, for an access of a context: `kindOf` 0 load, 1 store,
2 queue operation. -/
def ifaceReport (m : Dg) (c : CtxId) (kind acc addr : Nat) : Dg :=
  let pid := (getCtx m c).pid
  report m (ifaceSrc c) kind (pid + 256 * acc) addr (tagPid pid)

/-- The report that goes with a refused queue operation (Table 05.10). -/
def refuseReport (m : Dg) (c : CtxId) (h code : Nat) : Dg :=
  let q := (handleOf m c h).q
  if code = 1 ∨ code = 2 then ifaceReport m c kAccessDenied 2 q
  else if code = 4 then fabEvt (ifaceReport m c kQ0Budget 2 q) (getCtx m c).pid 2 q h 0
  else m

/-- Which queue's ring a span of bytes touches, among the valid queues. -/
def ringAt (m : Dg) (a len : Nat) : Option Nat :=
  (m.fab.q.find? fun e => e.2.valid && a < e.2.ringBase + e.2.ringSize && e.2.ringBase < a + len).map (·.1)

/-- The span lies in one slot range of the ring: indices from `lo`, `n` slots (R260). -/
def inSlots (x : Queue) (lo n a len : Nat) : Bool :=
  x.ringBase ≤ a && a + len ≤ x.ringBase + x.ringSize &&
  ((List.range ((a + len - 1 - x.ringBase) / x.slotSize - (a - x.ringBase) / x.slotSize + 1)).all fun i =>
    ((a - x.ringBase) / x.slotSize + i + x.depth - lo % x.depth) % x.depth < n)

/-- R260: the ring guard passes an access of a partition to a ring. -/
def guardOk (m : Dg) (qid pid : Nat) (store : Bool) (a len : Nat) : Bool :=
  let x := getQ m qid
  let isProd := x.prod0 == pid || x.prod1 == pid
  let isCons := x.cons0 == pid || x.cons1 == pid
  (isProd && inSlots x x.wr x.free a len) ||
  (isCons && !store && inSlots x x.rel (idxSub x.vis x.rel) a len)

/-- R259: the ring windows on a queue's ring, read-write for its producer and read-only for its consumer. -/
def Queue.grants (x : Queue) (pid : Nat) (write : Bool) : Bool :=
  x.prod0 == pid || x.prod1 == pid || (!write && (x.cons0 == pid || x.cons1 == pid))

/-- R260: RING_GUARD and the flag GUARD for a refused access of a partition. -/
def guardRefused (m : Dg) (pid qid : Nat) : Dg :=
  let h := ((m.fab.handles.find? fun e => e.1 / 4096 == pid && e.2.q == qid && e.2.dir != 0).map (·.1 % 4096)).getD 0
  fabEvt (report m (checkerSrc (getQ m qid)) kRingGuard pid qid (tagPid pid)) pid 3 qid h 0

/-- R260: RING_GUARD and the flag GUARD for a refused access of a context. -/
def guardReport (m : Dg) (c : CtxId) (qid : Nat) : Dg := guardRefused m (getCtx m c).pid qid

/-! ### The digest of messages -/

/-- One byte of the CRC-64 with the ECMA-182 polynomial (R32), high bit first. -/
def crc64Byte (crc : Nat) (b : Byte) : Nat := crcByteMsb 64 0x42F0E1EBA9EA3693 crc b.toNat

/-- R289: the bytes of a message that its digest covers: header bytes 0 to 11 with SRC as zero, then the payload, with
every masked word as zero; for a void message its code. -/
def digestBytes (mask : Nat) (msg : List Byte) (code : Nat) : List Byte :=
  if code != 0 then [BitVec.ofNat 8 code]
  else
    let masked (i : Nat) (b : Byte) : Byte := if i = 2 ∨ (i < 1024 ∧ bit mask (i / 4)) then 0 else b
    let l := (List.range msg.length).zipWith (fun i b => (i, masked i b)) msg
    (l.filter fun e => e.1 < 12 || 16 ≤ e.1).map (·.2)

/-- R289: a message that becomes visible updates digest entry DIGIDX. -/
def digestMsg (m : Dg) (x : Queue) (msg : List Byte) (code : Nat) : Dg :=
  if x.digest && x.digidx != 0 then
    let d := SMap.get m.fab.digest x.digidx
    let d' : Digest :=
      { d with acc := (digestBytes d.mask msg code).foldl crc64Byte d.acc, count := (d.count + 1) % 2 ^ 32 }
    { m with fab := { m.fab with digest := SMap.set m.fab.digest x.digidx d' } }
  else m

/-- A digest entry restarted: the CRC-64 begins with all ones (R32, R290). -/
def digestStart (d : Digest) : Digest := { d with acc := 2 ^ 64 - 1, count := 0 }

/-! ### Publication checks -/

/-- The message bytes in the slot of an index: `LENGTH` of them, cut to the slot. -/
def msgBytes (m : Dg) (x : Queue) (i : Nat) : List Byte :=
  let len := bits (ofLe (peeks m (x.slotAddr i) 2)) 0 15
  peeks m (x.slotAddr i) (min len x.slotSize)

/-- The CRC field of a header and the CRC-32C over header bytes 0 to 11 and the payload agree (R262). -/
def crcOk (msg : List Byte) : Bool :=
  (crc32c (msg.take 12 ++ msg.drop 16)).toNat == leAt msg 12 4

/-- R263, Table 05.6: the void code of a published message, 0 when it passes. -/
def checkMsg (x : Queue) (qid : Nat) (p : Pub) (hd : Nat) (msg : List Byte) : Nat :=
  let len := bits hd 0 15
  if len < 16 ∨ x.slotSize < len then 3
  else if bits hd 16 8 ≠ p.ep then 4
  else if bits hd 24 3 ≠ x.cls ∨ bits hd 32 18 ≠ qid ∨ bits hd 15 1 ≠ 0 ∨ bits hd 27 5 ≠ 0 ∨ bits hd 50 14 ≠ 0
      ∨ bits hd 80 16 ≠ 0 then 5
  else if bits hd 64 16 ≠ p.seq then 2
  else if x.check && !crcOk msg then 1
  else 0

/-- The counters of voided publications (Table 05.6). -/
def Queue.countVoid (x : Queue) (code : Nat) : Queue :=
  match code with
  | 0 => x
  | 1 => { x with crcErr := satInc 8 x.crcErr }
  | 2 => { x with seqErr := satInc 8 x.seqErr }
  | _ => { x with otherErr := satInc 8 x.otherErr }

/-- The handle, if any, of a partition for a queue and direction. -/
def findHandle (m : Dg) (pid qid dir : Nat) : Option Nat :=
  (m.fab.handles.find? fun e => e.1 / 4096 == pid && e.2.q == qid && e.2.dir == dir).map (·.1 % 4096)

/-- R277: a visible message of a queue with NOTIFY raises the source routed for the consumer's handle. -/
def notifyQ (m : Dg) (qid : Nat) : Dg :=
  let x := getQ m qid
  if x.notify then
    let pid := x.cons (genOf m x)
    let m := match findHandle m pid qid 2 with
      | some h => raisePid m pid (SMap.get m.fab.handles (4096 * pid + h)).irq
      | none => m
    ((recs m 0x0016).filter fun r => r.f 8 4 == qid && r.f 1 1 < 2).foldl (fun m r => raisePid m pid (r.f 6 2)) m
  else m

/-- What follows when a message has become visible at an index with a void code: digest, mirror, twin release,
notification (R277, R286, R288, R289). -/
def afterVisible (m : Dg) (qid i code : Nat) (msg slot : List Byte) : Dg :=
  let x := getQ m qid
  let m := digestMsg m x msg code
  let m := if x.linkmode = 1 then updQ m qid fun x => { x with mirror := x.mirror ++ [⟨slot, code⟩] } else m
  if x.twin then updQ m qid fun x => { x with rd := idxAdd i 1, rel := idxAdd i 1 } else notifyQ m qid

/-- The queue ID that a message of a queue carries: on a twin, that of the queue it stands beside, since the shadow runs
the software of the live group (R289, notes/assumptions/25.md). -/
def headerQid (m : Dg) (qid : Nat) : Nat :=
  if (getQ m qid).twin then ((m.fab.q.find? fun e => e.2.linkmode == 2 && e.2.link == qid).map (·.1)).getD qid else qid

/-- R263 to R266: the oldest publication of a queue is checked and becomes visible. A read that meets an uncorrectable
word voids the message with code 1 (R308). -/
def checkPublication (m : Dg) (qid : Nat) : Dg :=
  let x := getQ m qid
  match x.pubs with
  | [] => m
  | p :: rest =>
    let i := x.vis
    let (m, got) := readSpan m viaFabric (x.slotAddr i) x.slotSize
    let slot := got.getD (peeks m (x.slotAddr i) x.slotSize)
    let hd := ofLe (slot.take 16)
    let msg := slot.take (min (bits hd 0 15) x.slotSize)
    let code := if got.isNone then 1 else checkMsg x (headerQid m qid) p hd msg
    let m := updQ m qid fun x =>
      Queue.countVoid { x with pubs := rest, vis := idxAdd i 1, voids := SMap.set x.voids i code } code
    let m :=
      if code = 0 then m
      else
        let m := report m (checkerSrc x) (0x46 + code) p.ep qid (endpointTag p.ep)
        if p.ep < 0x40 then fabEvt m p.ep 0 qid p.handle code else m
    afterVisible m qid i code msg slot

/-! ### Mirrors and flips -/

/-- R277 for a mirror target: the shadow's context receives what the source's consumer has routed. -/
def notifyShadow (m : Dg) (qid : Nat) : Dg :=
  let x := getQ m qid
  let pid := x.cons (genOf m x)
  match x.notify, findHandle m pid qid 2 with
  | true, some h =>
    let src := (SMap.get m.fab.handles (4096 * pid + h)).irq
    if src = 0 then m else raiseIrq m (m.boot.under.slot / 4 * 4 + 3) src
  | _, _ => m

/-- R286, R287: one copy of the mirror engine into the LINK queue; dropped and reported when no slot is free. The flag
tells that it was dropped. -/
def mirrorCopy1 (m : Dg) (qid : Nat) : Dg × Bool :=
  let x := getQ m qid
  match x.mirror with
  | [] => (m, false)
  | it :: rest =>
    let m := updQ m qid fun x => { x with mirror := rest }
    let y := getQ m x.link
    if x.linkmode ≠ 1 then (m, false)
    else if y.free = 0 then (report m 0x06E kMirrorOverflow (x.cons true) qid (endpointTag (x.cons true)), true)
    else
      let (m, _) := writeSpan m viaFabric (y.slotAddr y.wr) it.bytes
      let m := updQ m x.link fun y =>
        { y with wr := idxAdd y.wr 1, vis := idxAdd y.vis 1, seq := (y.seq + 1) % 2 ^ 16,
                 voids := SMap.set y.voids y.wr it.code }
      (notifyShadow m qid, false)

/-- The valid queues of a flip group. -/
def groupQueues (m : Dg) (g : Nat) : List Nat :=
  SMap.keysWhere m.fab.q fun x => x.valid && x.flipgrp == g

def updDigest (m : Dg) (i : Nat) (f : Digest → Digest) : Dg :=
  { m with fab := { m.fab with digest := SMap.upd m.fab.digest i f } }

/-- The queues of a flip group and their LINK queues. -/
def groupAndLinks (m : Dg) (g : Nat) : List Nat :=
  let qs := groupQueues m g
  qs ++ (qs.filter fun q => (getQ m q).linkmode != 0).map fun q => (getQ m q).link

/-- R290: the digest entries that a group's queues and their LINK queues use are latched and restarted. -/
def latchDigests (m : Dg) (g : Nat) : Dg :=
  let used := groupAndLinks m g
  let idx := (used.filterMap fun q =>
    let x := getQ m q
    if x.digest && x.digidx != 0 then some x.digidx else none).eraseDups
  idx.foldl (fun m i => updDigest m i fun d => digestStart { d with latAcc := d.acc, latCount := d.count }) m

/-- Every message of a queue discarded: the mirror targets of a flip are emptied (Table 05.13). -/
def Queue.emptied (x : Queue) : Queue := { x with rel := x.wr, rd := x.wr, vis := x.wr, pubs := [], voids := [] }

/-- Step 3 of Table 05.13 for one queue of the group. -/
def flipQueue (m : Dg) (qid : Nat) : Dg :=
  let x := getQ m qid
  let m := if x.linkmode = 2 then
      let y := getQ m x.link
      updQ (updQ m qid fun x => { x with seq := y.seq }) x.link fun y => { y with seq := x.seq }
    else m
  let m := releaseQ m qid
  let m := if x.linkmode = 0 then m else releaseQ m x.link
  if x.linkmode = 1 then updQ (updQ m qid fun x => { x with linkmode := 3, mirror := [] }) x.link Queue.emptied
  else if x.linkmode = 3 then updQ m x.link Queue.emptied else m

/-- The indices of a deferred dequeue: REL := RD, and the claim of the slot at RD, if a message is still visible (R270). -/
def moveDeq (m : Dg) (d : Option DeqDefer) : Dg :=
  match d with
  | none => m
  | some d => updQ m d.q fun x =>
    { x with rel := x.rd, rd := if d.claim = 0 ∨ x.count = 0 then x.rd else idxAdd x.rd 1 }

/-- A deferred dequeue takes effect (R213, R270); the claim of a void message sets VOID_RX (R266). -/
def applyDeq (m : Dg) (d : Option DeqDefer) : Dg :=
  match d with
  | none => m
  | some e =>
    let x := getQ m e.q
    let code := if e.claim = 0 ∨ x.count = 0 then 0 else x.voidCode x.rd
    let m := moveDeq m d
    if code = 0 then m else fabEvt m e.pid 1 e.q e.handle code

/-- Step 2 of Table 05.13: dequeues already accepted on the group's queues and their LINK queues finish. -/
def finishDeqs (m : Dg) (g : Nat) : Dg :=
  let qs := groupAndLinks m g
  let held (x : Ctx) : Option DeqDefer := ((x.load.map (·.deq)).getD none).filter fun d => qs.contains d.q
  (SMap.keysWhere m.ctx fun x => (held x).isSome).foldl (fun m c =>
    let d := held (getCtx m c)
    updCtx (applyDeq m d) c fun x => { x with load := x.load.map fun l => { l with deq := none } }) m

/-- R292: the flip of a group: the generation bit inverts and every queue of the group changes together. -/
def flipGroup (m : Dg) (g : Nat) : Dg :=
  let m := finishDeqs m g
  let m := { m with fab := { m.fab with flip := SMap.upd m.fab.flip g fun f => { f with gen := !f.gen, pending := none } } }
  (groupQueues m g).foldl flipQueue m

/-- How many boundaries of a group lie at or before a time: PHASE_US and every PERIOD_US after it on the module time base
(R291). -/
def FlipGrp.boundaries (f : FlipGrp) (now : Nat) : Nat :=
  if f.period = 0 ∨ 16 * now < 1000 * f.phase then 0 else (16 * now - 1000 * f.phase) / (1000 * f.period) + 1

/-- R292: the last boundary at or before now lies at least 10 µs after the engine accepted the flip. -/
def FlipGrp.due (f : FlipGrp) (now : Nat) : Bool :=
  match f.pending with
  | none => false
  | some t => f.boundaries now != 0 && 16 * t + 10000 ≤ 1000 * (f.phase + (f.boundaries now - 1) * f.period)

/-- R290 to R292: a boundary of a group: the digests are latched, and a commanded flip that is due is applied. -/
def takeBoundary (m : Dg) (g : Nat) : Dg :=
  let f := SMap.get m.fab.flip g
  if f.boundaries m.now ≤ f.taken then m
  else
    let m := latchDigests m g
    let m := { m with fab := { m.fab with flip := SMap.upd m.fab.flip g fun f => { f with taken := f.boundaries m.now } } }
    if f.due m.now then flipGroup m g else m

/-! ### Hardware endpoints and Exesh as producers and consumers -/

/-- A message: header (Table 05.5) and payload. -/
def mkMsg (qid cls ep seq : Nat) (payload : List Byte) : List Byte :=
  let h := leBytes 12 (pack [(15, 16 + payload.length), (1, 0), (8, ep), (3, cls), (5, 0), (18, qid), (14, 0), (16, seq)])
  h ++ leBytes 4 (crc32c (h ++ payload)).toNat ++ payload

/-- Through which Canvas port an endpoint reaches a ring: Exesh is the supervisor's (R310). -/
def viaEp (ep : Nat) : Via := if ep = 0 then viaPort1 else viaFabric

/-- A hardware endpoint writes a message into the next slot of a queue, whose active binding names it as the producer (R250),
and publishes it. It is dropped with no free slot, or with no credit on a class-0 queue, where the drop is counted and
reported (R281). The flag tells that it was published. -/
def hwPublish (m : Dg) (qid ep : Nat) (payload : List Byte) : Dg × Bool :=
  let x := getQ m qid
  if !queueUsable m x || x.prod (genOf m x) != ep || x.free == 0 || x.slotSize < 16 + payload.length then (m, false)
  else if x.cls == 0 && x.credits == 0 then
    (report (updQ m qid fun x => { x with otherErr := satInc 8 x.otherErr }) 0x06F kQ0Budget ep qid (endpointTag ep), false)
  else
    let (m, _) := writeSpan m (viaEp ep) (x.slotAddr x.wr) (mkMsg qid x.cls ep x.seq payload)
    (publish m qid 1 ep 0, true)

/-- The claim of a void message sets VOID_RX in the context of a partition endpoint (R266). -/
def voidClaimed (m : Dg) (qid ep code : Nat) : Dg :=
  if code = 0 ∨ 0x40 ≤ ep then m else fabEvt m ep 1 qid ((findHandle m ep qid 2).getD 0) code

/-- The head message of a queue as its consumer under the active binding reads it (R250): its bytes and void code; a read that
meets an uncorrectable word makes it a void message with code 1 (R308). -/
def hwRead (m : Dg) (ep qid : Nat) : Dg × Option (List Byte × Nat) :=
  let x := getQ m qid
  if x.count = 0 ∨ !queueUsable m x ∨ x.cons (genOf m x) ≠ ep then (m, none)
  else
    let (m, got) := readSpan m (viaEp ep) (x.slotAddr x.rd) x.slotSize
    let bytes := got.getD []
    let len := bits (ofLe (bytes.take 2)) 0 15
    (m, some (bytes.take len, if got.isNone then 1 else x.voidCode x.rd))

/-- The head message taken by a hardware consumer or Exesh: the slot is claimed and released. -/
def hwTake (m : Dg) (ep qid : Nat) : Dg × Option (List Byte × Nat) :=
  match hwRead m ep qid with
  | (m, none) => (m, none)
  | (m, some (bs, code)) => (voidClaimed (releaseQ (claimQ m qid) qid) qid ep ((getQ m qid).voidCode (getQ m qid).rd), some (bs, code))

/-- The head message without claiming it. -/
def hwPeek (m : Dg) (ep qid : Nat) : Option (List Byte × Nat) := (hwRead m ep qid).2

/-! ### Class-0 admission -/

/-- The hosts of the mesh: a studio's and a Canvas quadrant's router a or b, a DRAM channel, an Ethernet internal port, and the
blocks that stand alone (R243). -/
inductive MeshHost where
  | studio (s : Nat) (b : Bool)
  | canvas (q : Nat) (b : Bool)
  | dram (ch : Nat)
  | ethPort (i : Nat)
  | can
  | palette
  | engine
  | pcie
  | dmaLow
  | supervisor
  | security
  | dmaHigh
  | plantIo
  | easel
  | selfTest
  | timeBase
  | lin
  | codeStore

/-- Table 05.1: column and row of the router to which a host attaches. -/
def attachment : MeshHost → Nat × Nat
  | .studio s b => ((if s % 2 = 0 then 0 else 4) + b2n b, if s < 2 then 0 else 5)
  | .canvas q b => (if q % 2 = 0 then 1 else 4, (if q < 2 then 1 else 3) + b2n b)
  | .dram ch => (2 + ch % 2, ch / 2)
  | .ethPort i => (0, 1 + i)
  | .can => (5, 1)
  | .palette => (2, 2)
  | .engine => (3, 2)
  | .pcie => (5, 2)
  | .dmaLow => (0, 3)
  | .supervisor => (2, 3)
  | .security => (3, 3)
  | .dmaHigh => (5, 3)
  | .plantIo => (0, 4)
  | .easel => (2, 4)
  | .selfTest => (3, 4)
  | .timeBase => (5, 4)
  | .lin => (2, 5)
  | .codeStore => (3, 5)

/-- Router of a context: a partition's by its group slot or core (R244). -/
def routerOfCtx (m : Dg) (c : CtxId) : Nat × Nat :=
  let lane := (SMap.get m.stu.grp c).laneA
  let b : Bool := if c < 16 then (if isShadowCtx m c then ((lane.getD 0) % 10 ≥ 5) else c % 4 ≥ 2) else (c - 16) % 10 ≥ 5
  attachment (.studio (studioOf c) b)

/-- Router of an endpoint ID; none for an endpoint that is not bound or not placed. -/
def routerOf (m : Dg) (ep : Nat) : Option (Nat × Nat) :=
  if ep = 0x00 then some (attachment .supervisor)
  else if ep = 0x3E then some (attachment .pcie)
  else if ep = 0x3F then some (attachment .easel)
  else if ep < 0x3E then
    match partRec m ep with
    | some r =>
      let c := if r.f 1 1 = 2 then 16 + 10 * r.f 2 1 + r.f 3 1 else 4 * r.f 2 1 + r.f 3 1
      some (routerOfCtx m c)
    | none => none
  else if ep < 0x50 then some (attachment .can)
  else if ep < 0x58 then some (attachment .lin)
  else match ep with
    | 0x58 => some (attachment (.ethPort 0))
    | 0x59 => some (attachment (.ethPort 1))
    | 0x5A => some (attachment .plantIo)
    | 0x5B => some (attachment .security)
    | 0x5C => some (attachment .security)
    | 0x5D => some (attachment .timeBase)
    | 0x70 => some (attachment .supervisor)
    | _ => if 0x60 ≤ ep ∧ ep < 0x64 then some (attachment .dmaLow) else if 0x64 ≤ ep ∧ ep < 0x68 then some (attachment .dmaHigh)
           else none

/-- Router of a ring, where it begins: a Canvas bank's, or that of the DRAM channel of its first granule (R244, R331). -/
def ringRouter (m : Dg) (x : Queue) : Nat × Nat :=
  if x.dram then attachment (.dram (dramChannel m x.ringBase 0))
  else
    let k := (x.ringBase - canvasBase) / 0x80000
    attachment (.canvas (k / 32 % 4) (k % 32 ≥ 16))

/-- The key of a directed link. -/
def linkKey (x y dir : Nat) : Nat := 6 * (6 * y + x) + dir

/-- Links along x from one column to another in a row. -/
def linksX (y x1 x2 : Nat) : List Nat :=
  if x1 ≤ x2 then (List.range (x2 - x1)).map fun i => linkKey (x1 + i) y 0
  else (List.range (x1 - x2)).map fun i => linkKey (x1 - i) y 1

/-- Links along y in a column. -/
def linksY (x y1 y2 : Nat) : List Nat :=
  if y1 ≤ y2 then (List.range (y2 - y1)).map fun i => linkKey x (y1 + i) 2
  else (List.range (y1 - y2)).map fun i => linkKey x (y1 - i) 3

/-- R245, R248: the route from one router to another: along x, then along y. A router whose link along x is disabled sends the
traffic along y first and then x; a disabled link along y leaves the spec's route as it is (notes/assumptions/112.md). -/
def route (m : Dg) (a b : Nat × Nat) : List Nat :=
  let down (l : Nat) : Bool := (SMap.get m.fab.links l).failed
  let xs := linksX a.2 a.1 b.1
  if xs.any down then
    let ok := xs.takeWhile fun l => !down l
    let x := if a.1 ≤ b.1 then a.1 + ok.length else a.1 - ok.length
    ok ++ linksY x a.2 b.2 ++ linksX b.2 x b.1
  else xs ++ linksY b.1 a.2 b.2

/-- The router of the shadow pair, or of the frozen revert point, in slot 4 × s + 3 (R244, R433). -/
def shadowRouter (m : Dg) : Nat × Nat := routerOfCtx m (m.boot.under.slot / 4 * 4 + 3)

/-- The queue is the mirror target of another one (R286). -/
def isMirrorTarget (m : Dg) (qid : Nat) : Bool :=
  m.fab.q.any fun e => (e.2.linkmode == 1 || e.2.linkmode == 3) && e.2.link == qid

/-- R282: the path of a queue; a side that is not bound contributes nothing. The mirror engine writes a mirror target and the shadow
reads it; the shadow writes a twin, which has no consumer (R286, R288, R434). -/
def pathOf (m : Dg) (qid : Nat) (x : Queue) (prod cons : Nat) : List Nat :=
  let r := ringRouter m x
  let mirror := isMirrorTarget m qid
  let p := if mirror then some (attachment .engine) else if x.twin then some (shadowRouter m) else routerOf m prod
  let c := if mirror then some (shadowRouter m) else routerOf m cons
  (match p with | some p => route m p r | none => []) ++ (match c with | some c => route m r c | none => [])

/-- Window of a token bucket in µs (Table 05.4). -/
def winUs (w : Nat) : Nat := 10 ^ w

/-- A class-0 queue's load: cells per ms, cells per burst, operations per ms × 1. -/
def cellsPerMs (x : Queue) : Nat := x.budget * 2 ^ x.slotLog * 1000 / winUs x.budgetWin
def burstCells (x : Queue) : Nat := x.budget * 2 ^ x.slotLog
def opsPerMs (x : Queue) : Nat := 3 * x.budget * 1000 / winUs x.budgetWin

/-- The class-0 queues admitted, each with its path over both generations' bindings. -/
def q0List (m : Dg) : List (Queue × List Nat) :=
  (m.fab.q.filter fun e => e.2.valid && e.2.cls == 0).map fun e =>
    (e.2, pathOf m e.1 e.2 e.2.prod0 e.2.cons0)

/-- Sum of a load over the queues whose path uses a link. -/
def linkLoad (l : List (Queue × List Nat)) (f : Queue → Nat) (k : Nat) : Nat :=
  l.foldl (fun s e => if e.2.contains k then s + f e.1 else s) 0

/-- The highest load on any directed link. -/
def maxLink (l : List (Queue × List Nat)) (f : Queue → Nat) : Nat :=
  ((l.flatMap (·.2)).eraseDups.map (linkLoad l f)).foldl max 0

/-- R282: the three limits hold for a set of class-0 queues. -/
def q0Fits (l : List (Queue × List Nat)) : Bool :=
  maxLink l cellsPerMs ≤ 125000 && maxLink l burstCells ≤ 256 && (l.foldl (fun s e => s + opsPerMs e.1) 0) ≤ 250000

/-- R282: admission of a class-0 queue with its endpoints, in place of an entry with the same queue ID. -/
def admits (m : Dg) (qid : Nat) (x : Queue) (prod cons : Nat) : Bool :=
  x.cls != 0 ||
    q0Fits ((x, pathOf m qid x prod cons) ::
      (m.fab.q.filter fun e => e.2.valid && e.2.cls == 0 && e.1 != qid).map fun e => (e.2, pathOf m e.1 e.2 e.2.prod0 e.2.cons0))

/-- FAB_Q0_LOAD (Table 05.19). -/
def q0Load (m : Dg) : Nat :=
  let l := q0List m
  pack [(10, maxLink l cellsPerMs * 1024 / 500000), (6, 0),
        (10, (l.foldl (fun s e => s + opsPerMs e.1) 0) * 1024 / 1000000), (6, 0), (9, maxLink l burstCells)]

end Sys2Proof.Machine
end

