-- ==== Sys2Proof/Machine/HaltOps.lean ====
section
/-! DEFINITION. Groups, the watchdogs of a partition as they are held and run (spec/09 R483, R488), and halts of a
context through Easel (spec/01 R72 to R76, spec/07 R398). -/
namespace Sys2Proof.Machine

def getGrp (m : Dg) (g : Nat) : Group := SMap.get m.stu.grp g
def updGrp (m : Dg) (g : Nat) (f : Group → Group) : Dg := { m with stu := { m.stu with grp := SMap.upd m.stu.grp g f } }

/-! ### The watchdogs of a partition (R483, R488) -/

/-- The watchdogs of a partition changed. -/
def updWdgs (m : Dg) (pid : Nat) (f : Wdg → Wdg) : Dg :=
  { m with wdg := m.wdg.map fun e => if e.2.configured && e.2.owner == pid then (e.1, f e.2) else e }

/-- A set that begins its first window: COUNT 0, NEXTKEY 0xACE1. -/
def WdgRun.fresh (now : Nat) : WdgRun :=
  { base := 0, since := some now, first := true, pos := 0, nextKey := 0xACE1, seen := 0 }

/-- COUNT is held. -/
def WdgRun.hold (now : Nat) (r : WdgRun) : WdgRun :=
  match r.since with
  | some t => { r with base := r.base + (now - t), since := none }
  | none => r

/-- COUNT goes on. -/
def WdgRun.go (now : Nat) (r : WdgRun) : WdgRun :=
  match r.since with
  | some _ => r
  | none => { r with since := some now }

/-- The watchdogs of a partition are held while its group is halted through Easel (R76, R483). -/
def holdWdgs (m : Dg) (pid : Nat) (h : Bool) : Dg :=
  updWdgs m pid fun w => { w with run := if h then w.run.hold m.now else w.run.go m.now }

/-! ### Easel halts (R72 to R76, R398) -/

/-- An Easel halt of a context, or its end. -/
def haltCtx (m : Dg) (c : CtxId) (h : Bool) : Dg :=
  let m := holdWdgs m (getCtx m c).pid h
  if c < 16 then updGrp m c fun g => { g with halt := h }
  else { m with easel := { m.easel with qmHalt := SMap.set m.easel.qmHalt (c - 16) h } }

/-- A context is halted through Easel. -/
def halted (m : Dg) (c : CtxId) : Bool := if c < 16 then (getGrp m c).halt else SMap.get m.easel.qmHalt (c - 16)

/-- The context of an Easel target (R398): a group slot, a QM core, the supervisor. -/
def targetCtx (tkind index : Nat) : CtxId := if tkind = 1 then index else if tkind = 2 then 16 + index else supCtx

/-- R398: an attachment ends: a halted target is resumed; its break units and its trace end with it (notes/assumptions/36.md). -/
def endAttach (m : Dg) (t : Attach) : Dg :=
  let c := targetCtx t.tkind t.index
  let e := m.easel
  let m := { m with easel := { e with attach := e.attach.filter (· != t), brk := e.brk.filter fun b => b.1 / 8 != c,
                                      trace := SMap.set e.trace c default, step := SMap.set e.step c default } }
  let m := if c < 16 then updGrp m c fun g => { g with haltDefer := false } else m
  if halted m c then haltCtx m c false else m

end Sys2Proof.Machine
end

