-- ==== Sys2Proof/Machine/MbxOps.lean ====
section
/-! DEFINITION. The mailboxes' operations (spec/07): messages, responses and final answers, sessions, and the rights of
the commands. -/
namespace Sys2Proof.Machine

/-- Request and response queue of a pair (R358). -/
def reqQ (pair : Nat) : Nat := 0x3FF00 + 2 * pair
def respQ (pair : Nat) : Nat := 0x3FF01 + 2 * pair

/-! Status codes (Table 07.6). -/
def stOk : Nat := 0
def stPending : Nat := 1
def stBusy : Nat := 2
def stDenied : Nat := 3
def stConflict : Nat := 4
def stInvalid : Nat := 5
def stNotSupported : Nat := 6
def stAuthFailed : Nat := 7
def stIncomplete : Nat := 8
def stNoSession : Nat := 9
def stTagInUse : Nat := 10
def stLimit : Nat := 11
def stFailed : Nat := 12
def stAborted : Nat := 13
def stLockedOut : Nat := 14

/-- A payload field, offset:size from message byte 32. -/
def Cmd.f (c : Cmd) (off size : Nat) : Nat := leAt c.payload off size

/-- Source that answers for Exesh's findings (R354): its subject is the requester when that is a partition. -/
def exeshTag (ep : Nat) : Nat := if 1 ≤ ep ∧ ep ≤ 0x34 then tagPid ep else 0x053

def exeshReport (m : Dg) (kind detail addr ep : Nat) : Dg := report m 0x053 kind detail addr (exeshTag ep)

/-- The requester endpoint of a pair (R359): its MAILBOX record's; Easel for pair 31. -/
def requesterOf (m : Dg) (pair : Nat) : Nat :=
  if pair = 31 then 0x3F
  else match recBy m 0x000E 0 1 pair with
    | some r => r.f 1 1
    | none => 0xFF

/-- An event of MBX_MY_EVT of a partition's context (R410). -/
def mbxEvt (m : Dg) (pid flag : Nat) : Dg :=
  let e := SMap.get m.mbx.my pid
  let m := { m with mbx := { m.mbx with my := SMap.set m.mbx.my pid (e.set flag) } }
  if bit e.flags flag then m else raiseOriginPid m 5 pid

/-- The same when the endpoint is a partition. -/
def mbxEvtEp (m : Dg) (ep flag : Nat) : Dg := if 1 ≤ ep ∧ ep ≤ 0x34 then mbxEvt m ep flag else m

/-- A response message from byte 16: mailbox header (Table 07.5) and payload. -/
def respBytes (tag status detail flags op : Nat) (payload : List Byte) : List Byte :=
  leBytes 16 (pack [(16, tag), (16, status), (16, detail), (8, flags), (8, 0), (32, payload.length), (16, op), (16, 0)])
    ++ payload

/-- Exesh, or the bridge, publishes a response of a pair. -/
def sendResp (m : Dg) (pair tag status detail flags op : Nat) (payload : List Byte) : Dg :=
  (hwPublish m (respQ pair) 0x00 (respBytes tag status detail flags op payload)).1

/-- R395: which of the requests over Easel a response of pair 31 answers: the oldest with its tag; TAG_IN_USE the one after it, for
the oldest is still outstanding (notes/assumptions/124.md). -/
def easelAnswers (l : List (Nat × Option (Nat × Nat))) (msg : List Byte) : Option Nat :=
  let ks := (List.range l.length).filter fun i => (l[i]?.map (·.1)) == some (leAt msg 16 2)
  if leAt msg 18 2 = stTagInUse then ks[1]?.or ks[0]? else ks[0]?

/-- The response at the head of pair 31's queue is taken by its transport; after a final one the request is done. -/
def takeEaselResp (m : Dg) (msg : List Byte) : Dg :=
  let m := (hwTake m 0x3F (respQ 31)).1
  match easelAnswers m.easel.macs msg with
  | some i => if bit (leAt msg 22 1) 0 then { m with easel := { m.easel with macs := m.easel.macs.eraseIdx i } } else m
  | none => m

/-- The port and MAC address to which the response returns; none for the TAP (R395). -/
def easelReturn (m : Dg) (msg : List Byte) : Option (Nat × Nat) :=
  ((easelAnswers m.easel.macs msg).bind fun i => m.easel.macs[i]?).bind (·.2)

/-- An outstanding command of a pair by its tag. -/
def findCmd (m : Dg) (pair tag : Nat) : Option Cmd := m.mbx.out.find? fun c => c.pair == pair && c.tag == tag

/-- A command is no longer outstanding. -/
def dropCmd (m : Dg) (pair tag : Nat) : Dg :=
  { m with mbx := { m.mbx with out := m.mbx.out.filter fun c => !(c.pair == pair && c.tag == tag) } }

/-- The supervisor lanes have been reset and Exesh does not run yet (Table 07.18). -/
def exeshDown (m : Dg) : Bool :=
  match m.mbx.restart with
  | some r => r.reset
  | none => false

/-- R382: the idle time of a session runs from now: a command of it has ended. -/
def restartIdle (m : Dg) (h : Nat) : Dg :=
  { m with mbx := { m.mbx with sessions := m.mbx.sessions.map fun s => if s.handle == h then { s with lastTime := m.now } else s } }

/-- R367, R369: the final response of a command; ABORTED and INCOMPLETE set the flag of its context (Table 07.23). While Exesh
restarts nothing is answered: the command stays outstanding until step 5 of Table 07.18 (R408). -/
def finish (m : Dg) (c : Cmd) (status detail : Nat) (payload : List Byte) : Dg :=
  if exeshDown m then m
  else
    let m := sendResp (restartIdle (dropCmd m c.pair c.tag) c.session) c.pair c.tag status detail 1 c.op payload
    if status = stAborted ∨ status = stIncomplete then mbxEvtEp m c.ep 2 else m

/-- The final response of a command named by pair and tag, if it is still outstanding. -/
def finishAt (m : Dg) (ref : Option (Nat × Nat)) (status detail : Nat) (payload : List Byte) : Dg :=
  match ref with
  | none => m
  | some (pair, tag) => match findCmd m pair tag with
    | some c => finish m c status detail payload
    | none => m

/-- What the carrying out of a command ends in. -/
inductive Reply where
  | ok (payload : List Byte)
  | err (status detail : Nat)
  /-- long: the event of its family answers -/
  | wait
  deriving DecidableEq, Repr

/-- R373: the objects that a command changes: 1 queue, 2 partition, 3 core, 4 bank, 5 session, 6 port, 7 journal,
8 power mode, 9 safe state. -/
def Cmd.objs (c : Cmd) : List (Nat × Nat) :=
  match c.op with
  | 0x0002 => [(5, c.session)]
  | 0x0003 => [(5, c.session)]
  | 0x0020 => [(1, c.f 0 4)]
  | 0x0021 => [(1, c.f 0 4)]
  | 0x0022 => [(1, c.f 0 4)]
  | 0x0023 => [(1, c.f 0 4)]
  | 0x0024 => [(1, c.f 0 4)]
  | 0x0045 => [(1, c.f 0 4)]
  | 0x0031 => [(2, c.f 0 1)]
  | 0x0032 => [(2, c.f 0 1)]
  | 0x0033 => [(2, c.f 0 1)]
  | 0x0042 => [(2, c.f 0 1), (4, c.f 1 1 + 2)]
  | 0x0046 => [(2, c.f 0 1)]
  | 0x0047 => [(2, c.f 0 1)]
  | 0x0034 => [(4, 4)]
  | 0x0035 => [(4, 4)]
  | 0x0036 => [(3, c.f 0 1)]
  | 0x0071 => [(3, c.f 0 1)]
  | 0x0040 => [(4, c.f 0 1)]
  | 0x0048 => [(4, 1)]
  | 0x0055 => [(9, 0)]
  | 0x0060 => [(7, 0)]
  | 0x0062 => [(7, 0)]
  | 0x0064 => [(7, 0)]
  | 0x0081 => [(8, 0)]
  | 0x0090 => [(6, c.f 0 2)]
  | 0x0091 => [(6, c.f 0 2)]
  | _ => []

/-- Commands that a long command on their object does not turn away: SESSION_CLOSE and LOOPBACK_ABORT end it (R382, R394); appends
go on during a seal and an export (R532, R535); an export only reads (R373). -/
def goesOn (op : Nat) : Bool := [0x0003, 0x0060, 0x0062, 0x0091].contains op

/-- R373: an earlier claim that names one of the objects: whether it is still to be carried out (the later one then waits
its turn), or under way as a long command (BUSY). -/
def earlier (m : Dg) (c : Cmd) (p : Phase) : Bool :=
  (m.mbx.out.takeWhile fun d => !(d.pair == c.pair && d.tag == c.tag)).any fun d =>
    d.phase == p && d.objs.any fun o => c.objs.contains o

/-- A command under way. -/
def setRunning (m : Dg) (c : Cmd) : Dg :=
  { m with mbx := { m.mbx with out := m.mbx.out.map fun d =>
    if d.pair == c.pair && d.tag == c.tag then { d with phase := .running } else d } }


/-- INVALID for a payload of the wrong length: the field PLEN, at byte 24 (notes/assumptions/22.md). -/
def badLen : Reply := .err stInvalid 24

/-- INVALID for a payload field at an offset from byte 32. -/
def badField (off : Nat) : Reply := .err stInvalid (32 + off)

/-- A refusal of check 6 of Table 07.7: a payload field or length. -/
def Reply.malformed : Reply → Bool
  | .err st d => st == stInvalid && d != 0xFFFF
  | _ => false

/-- A refusal of check 6 or 7 of Table 07.7, which goes before what the objects named refuse. -/
def Reply.early : Reply → Bool
  | .err st d => st == stInvalid && d != 0xFFFF || st == stDenied
  | _ => false

/-- R374: RESOURCE_CONFLICT for a refused claim on an owned resource after S15. -/
def conflictReport (m : Dg) (c : Cmd) : Dg :=
  if m.boot.due.isNone then exeshReport m kResourceConflict c.pair 0 c.ep else m

/-- A refused claim on an owned resource (R374). -/
def conflict (m : Dg) (c : Cmd) : Dg × Reply := (conflictReport m c, .err stConflict 0)

/-! ### Sessions and rights -/

/-- An open session by its handle. -/
def sessionOf (m : Dg) (h : Nat) : Option Session := m.mbx.sessions.find? fun s => s.handle == h

/-- The role of the session of a command, 0 for none. -/
def Cmd.role (m : Dg) (c : Cmd) : Nat := ((sessionOf m c.session).map (·.role)).getD 0

/-- Who may send a command (Tables 07.9 to 07.17, 07.24). -/
structure Access where
  /-- a request without session is accepted -/
  free : Bool
  anyAuth : Bool
  roles : List Nat
  /-- Vendor: 0 none, 1 V, 2 V* -/
  vendor : Nat
  /-- partition right: 0 none, 1 DIAG, 2 JOURNAL, 3 JOURNAL_READ, 4 POWER -/
  right : Nat

/-- The Sessions column, roles O 2, I 3, W 4, A 5, D 6; none for an opcode that is not defined (R385). -/
def accessOf (op : Nat) : Option Access :=
  let free : Access := ⟨true, true, [], 2, 0⟩
  let any (r : Nat) : Access := ⟨false, true, [], 2, r⟩
  let oi : Access := ⟨false, false, [2, 3], 0, 0⟩
  let oiw : Access := ⟨false, false, [2, 3, 4], 0, 0⟩
  let oiwv : Access := ⟨false, false, [2, 3, 4], 2, 0⟩
  let oivs : Access := ⟨false, false, [2, 3], 2, 0⟩
  let oiv : Access := ⟨false, false, [2, 3], 1, 0⟩
  match op with
  | 0x0001 => some free
  | 0x0002 => some (any 0)
  | 0x0003 => some (any 0)
  | 0x0004 => some (any 0)
  | 0x0005 => some ⟨false, false, [2, 3, 5], 1, 0⟩
  | 0x0006 => some ⟨false, false, [2, 3, 5], 1, 0⟩
  | 0x0007 => some oi
  | 0x0010 => some free
  | 0x0011 => some free
  | 0x0012 => some free
  | 0x0013 => some free
  | 0x0020 => some oi
  | 0x0021 => some oi
  | 0x0022 => some oi
  | 0x0023 => some oi
  | 0x0024 => some oi
  | 0x0025 => some ⟨false, false, [2, 3, 4], 0, 1⟩
  | 0x0030 => some (any 1)
  | 0x0031 => some oiw
  | 0x0032 => some oiw
  | 0x0033 => some oiw
  | 0x0034 => some oi
  | 0x0035 => some oi
  | 0x0036 => some oiwv
  | 0x0040 => some oivs
  | 0x0041 => some oiwv
  | 0x0042 => some oi
  | 0x0043 => some oiw
  | 0x0044 => some oi
  | 0x0045 => some oi
  | 0x0046 => some oi
  | 0x0047 => some oi
  | 0x0048 => some oivs
  | 0x0050 => some (any 1)
  | 0x0051 => some oiw
  | 0x0052 => some (any 1)
  | 0x0053 => some oi
  | 0x0054 => some (any 1)
  | 0x0055 => some oiw
  | 0x0060 => some ⟨false, false, [6], 0, 2⟩
  | 0x0061 => some ⟨false, false, [2, 4, 5, 6], 0, 3⟩
  | 0x0062 => some ⟨false, false, [2, 4, 5, 6], 0, 0⟩
  | 0x0063 => some (any 2)
  | 0x0064 => some ⟨false, false, [2, 4, 5], 0, 2⟩
  | 0x0070 => some (any 1)
  | 0x0071 => some oiwv
  | 0x0080 => some (any 1)
  | 0x0081 => some ⟨false, false, [3, 4], 0, 4⟩
  | 0x0082 => some (any 1)
  | 0x0083 => some ⟨false, false, [5, 4], 0, 0⟩
  | 0x0090 => some ⟨false, false, [2, 3, 4], 2, 1⟩
  | 0x0091 => some ⟨false, false, [2, 3, 4], 2, 1⟩
  | 0x0092 => some oiwv
  | 0x0093 => some oiwv
  | 0x0094 => some oivs
  | 0x0095 => some oivs
  | 0x0096 => some oivs
  | 0x0097 => some oiwv
  | 0x0098 => some oiv
  | 0x0099 => some oiwv
  | 0x009A => some oiv
  | 0x009B => some oivs
  | 0x009C => some oiv
  | 0x009D => some oiwv
  | _ => none

/-- A right of a partition's RIGHTS byte (Table 08.16): DIAG, JOURNAL, JOURNAL_READ, POWER as 1 to 4. -/
def hasRight (m : Dg) (pid right : Nat) : Bool :=
  right != 0 && match partRec m pid with
    | some r => bit (r.f 6 1) (right - 1)
    | none => false

/-- Checks 4 and 5 of Table 07.7 for a request of a pair: the refusal, if any. A partition's own PARTITION_QUERY needs no
right (R357). -/
def rightRefusal (m : Dg) (c : Cmd) (a : Access) : Option (Nat × Nat) :=
  if c.session ≠ 0 then
    match sessionOf m c.session with
    | none => some (stNoSession, 0)
    | some s =>
      if s.pair ≠ c.pair ∨ s.ep ≠ c.ep then some (stNoSession, 0)
      else if 0x0092 ≤ c.op ∧ c.pair ≠ 31 then some (stDenied, 1)
      else if !s.auth then (if c.op = 0x0002 ∨ c.op = 0x0003 then none else some (stDenied, 1))
      else if a.free ∨ a.anyAuth then none
      else if s.role = 1 then (if a.vendor = 0 ∧ m.part.factory then some (stDenied, 1) else none)
      else if a.roles.contains s.role then none else some (stDenied, 1)
  else if 0x0092 ≤ c.op ∧ c.pair ≠ 31 then some (stDenied, 1)
  else if a.free then none
  else if 1 ≤ c.ep ∧ c.ep ≤ 0x34 then
    (if hasRight m c.ep a.right ∨ (c.op = 0x0030 ∧ c.f 0 1 = c.ep) then none else some (stDenied, 2))
  else some (stDenied, 1)

/-- R386: check 7 of Table 07.7 for a Vendor session in the field state: it holds the rights marked V* only; of UPDATE_STAGE that is
TARGET 1. -/
def vendorRefused (m : Dg) (c : Cmd) : Bool :=
  c.role m == 1 && !m.part.factory &&
  match accessOf c.op with
  | some a => !(a.free || a.anyAuth || a.vendor == 2) || (c.op == 0x0040 && c.f 0 1 != 1)
  | none => false

/-- R370 to R373: the carrying out of a claimed command: `f` makes checks 6 to 8 of Table 07.7 and the effect. A refused command has
no effect: what a long command holds is refused after checks 6 and 7. -/
def carryOut (m : Dg) (pair tag op : Nat) (f : Dg → Cmd → Dg × Reply) : Dg :=
  match findCmd m pair tag with
  | none => m
  | some c =>
    if c.op ≠ op ∨ c.phase ≠ .claimed ∨ exeshDown m ∨ earlier m c .claimed then m
    else if vendorRefused m c ∧ !(f m c).2.malformed then finish m c stDenied 6 []
    else if !goesOn op ∧ earlier m c .running ∧ !(f m c).2.early then finish m c stBusy 2 []
    else match f m c with
      | (m, .ok p) => finish m c stOk 0 p
      | (m, .err st d) => finish m c st d []
      | (m, .wait) => setRunning m c

/-- Long commands whose effect is made only by the event that completes them: their commit point lies there. -/
def lateCommit (op : Nat) : Bool :=
  [0x0002, 0x0012, 0x0034, 0x0036, 0x0040, 0x0046, 0x0047, 0x0055, 0x0062, 0x0071, 0x0081, 0x0090, 0x0094, 0x0096].contains op

/-- The re-seat that a CORE_RESEAT asked for is in progress: the command is past its commit point. -/
def reseatUnderWay (m : Dg) (c : Cmd) : Bool :=
  c.op == 0x0036 && ((SMap.get m.stu.studio (c.f 0 1 / 10)).reseat.any fun r => r.cause == 3 && r.old == some (c.f 0 1))

/-- A change away from Drive waits: a start runs (R415), Fixative is engaged (R509), a revert window is open (R443). -/
def leaveWaits (m : Dg) : Bool := m.boot.due.isSome || m.fix.engaged || m.boot.under.st == .revertWindow

/-- The effect of a running command has been made: its re-seat is in progress, its flip has been applied, the module leaves Drive. -/
def effectMade (m : Dg) (c : Cmd) : Bool :=
  match c.op with
  | 0x0036 => reseatUnderWay m c
  | 0x0046 => (SMap.get m.fab.flip m.boot.under.pid).pending.isNone
  | 0x0047 => (SMap.get m.fab.flip m.boot.under.pid).pending.isNone
  | 0x0081 => !(m.pwr.request.isSome && leaveWaits m)
  | _ => false

/-- R372: a command that has not reached its commit point. -/
def uncommitted (m : Dg) (c : Cmd) : Bool := c.phase == .claimed || (lateCommit c.op && !effectMade m c)

/-- The context that an Easel command names. -/
def Cmd.target (c : Cmd) : CtxId := targetCtx (c.f 0 1) (c.f 2 2)

/-- A loopback test ends and its port is returned (R394). -/
def loopEnd (m : Dg) (l : Loop) : Dg :=
  let n := { m.net with loops := m.net.loops.filter (· != l) }
  { m with net := match l.cls with
    | 1 => { n with can := SMap.upd n.can l.index fun c => { c with st := .disabled } }
    | 2 => { n with lin := SMap.upd n.lin l.index fun c => { c with st := .disabled } }
    | 3 => { n with eth := SMap.upd n.eth l.index fun c => { c with st := .disabled } }
    | _ => n }

/-- The payload of a loopback's answer. -/
def loopAnswer (result ran bad : Nat) : List Byte := leBytes 12 (pack [(8, result), (24, 0), (32, ran), (32, bad)])

/-- R394: a service request claims a port under test: the test ends, and LOOPBACK_RUN answers INCOMPLETE. How many frames had run,
and how many of those were in error, are free values (notes/assumptions/7.md). -/
def loopCut (m : Dg) (l : Loop) : Dg :=
  let (m, v) := draw m
  let (m, w) := draw m
  let ran := v % (l.frames + 1)
  finishAt (loopEnd m l) (some l.cmd) stOk 0 (loopAnswer 3 ran (w % (ran + 1)))

/-- The verification of a staged image is given up: the last chunk has had no effect, staging stands as before it (R372, R390). -/
def unstage (m : Dg) (c : Cmd) (off : Nat) : Dg :=
  { m with boot := { m.boot with bank := m.boot.bank.map fun e =>
    if e.2.cmd == (some (c.pair, c.tag)) then (e.1, { e.2 with cmd := none, next := off }) else e } }

/-- A commanded flip of the run's group is given up. -/
def dropFlip (m : Dg) (f : Under → Under) : Dg :=
  { m with boot := { m.boot with under := f m.boot.under },
           fab := { m.fab with flip := SMap.upd m.fab.flip m.boot.under.pid fun f => { f with pending := none } } }

/-- What a command that is aborted before its commit point has left to be done is given up (R372): the card exchange of METHOD 4,
a report, a verification, a re-seat, a glaze or revert not yet at its boundary, a release, an export, a change of mode, a loopback, a
halt, single steps. The test of a CORE_BIST_RUN ends unread. -/
def withdraw (m : Dg) (c : Cmd) : Dg :=
  match c.op with
  | 0x0002 => { m with sec := { m.sec with card := m.sec.card.map fun e =>
      if e.2.authCmd == (some (c.pair, c.tag)) then (e.1, { e.2 with authCmd := none }) else e } }
  | 0x0012 => { m with sec := { m.sec with attest := m.sec.attest.filter fun e => e.1 != (c.pair, c.tag) } }
  | 0x0034 => unstage m c (c.f 0 8)
  | 0x0040 => unstage m c (c.f 8 8)
  | 0x0046 => dropFlip m fun u => { u with glazing := false, glazeCmd := none }
  | 0x0047 => dropFlip m fun u => { u with revertAt := none, revertCmd := none }
  | 0x0055 => { m with fix := { m.fix with releasing := false } }
  | 0x0062 => { m with sec := { m.sec with exporting := none } }
  | 0x0081 => { m with pwr := { m.pwr with request := none } }
  | 0x0090 => (m.net.loops.filter fun l => l.cmd == (c.pair, c.tag)).foldl loopEnd m
  | 0x0096 => { m with easel := { m.easel with step := SMap.set m.easel.step c.target default } }
  | 0x0036 =>
    let keep (r : Reseat) : Bool := !(r.cause == 3 && r.old == some (c.f 0 1))
    { m with stu := { m.stu with studio := SMap.upd m.stu.studio (c.f 0 1 / 10) fun x =>
        { x with planned := x.planned.filter keep, waiting := x.waiting.filter keep } } }
  | 0x0094 => if c.target < 16 then updGrp m c.target fun g => { g with haltDefer := false } else m
  | _ => m

/-- A command that has not reached its commit point is stopped (Table 07.6). -/
def abortCmd (m : Dg) (c : Cmd) (detail : Nat) : Dg := finish (withdraw m c) c stAborted detail []

/-- Easel commands that wait for a context which will not run again: a deferred halt, single steps (notes/assumptions/36.md). -/
def failHalts (m : Dg) (c : CtxId) : Dg :=
  let m := { m with easel := { m.easel with step := SMap.set m.easel.step c default } }
  (m.mbx.out.filter fun d => d.phase == .running && (d.op == 0x0094 || d.op == 0x0096) && d.target == c).foldl
    (fun m d => finish m d stFailed 0 []) m

/-- A session ends (R382): its commands that have not committed receive ABORTED; the flag SESSION_END is set for its
context unless it was closed by SESSION_CLOSE, whose own command is no longer among the outstanding ones. Its Easel attachments end
with it (R398). -/
def endSession (m : Dg) (h : Nat) (byClose : Bool) : Dg :=
  match sessionOf m h with
  | none => m
  | some s =>
    let m := { m with mbx := { m.mbx with sessions := m.mbx.sessions.filter fun x => x.handle != h } }
    let m := (m.mbx.out.filter fun c => c.session == h && uncommitted m c).foldl (fun m c => abortCmd m c 4) m
    let m := (m.easel.attach.filter fun t => t.session == h).foldl endAttach m
    if byClose then m else mbxEvtEp m s.ep 1

end Sys2Proof.Machine
end

