-- ==== Sys2Proof/Machine/QueueCmds.lean ====
section
/-! DEFINITION. The queue commands (spec/05 R278 to R282, R610; spec/07 R388, R389, Table 07.11). -/
namespace Sys2Proof.Machine

/-- The descriptor that QUEUE_CREATE writes (R256, R281): nothing bound, the bucket full. -/
def newQueue (w0 budget win : Nat) : Queue :=
  { (default : Queue) with
    valid := true, cls := bits w0 1 3, slotLog := bits w0 4 4, depthLog := bits w0 8 5, dram := bit w0 13, check := bit w0 14,
    notify := bit w0 15, base := bits w0 16 42, flipgrp := bits w0 58 6, prod0 := 0x7F, cons0 := 0x7F, prod1 := 0x7F,
    cons1 := 0x7F, budget := budget, budgetWin := win, credits := budget }

/-- A mailbox pair's queue by its MAILBOX record (R360). -/
def pairQueue (r : CfgRec) (base : Nat) : Queue :=
  newQueue (pack [(1, 1), (3, r.f 3 1), (4, 6), (5, r.f 2 1), (1, r.f 4 1), (1, 1), (1, r.f 5 1), (42, base / 64)]) 0 0

/-- R281: the bucket of a queue is full from now on. -/
def filled (m : Dg) (x : Queue) : Queue := { x with credits := x.budget, filledAt := m.now, refills := 0 }

/-- Two spans overlap. -/
def overlaps (a la b lb : Nat) : Bool := a < b + lb && b < a + la

/-- The ring of a new queue overlaps another ring or an access window (R259, R279). -/
def ringOverlap (m : Dg) (x : Queue) : Bool :=
  (m.fab.q.any fun e => e.2.valid && overlaps x.ringBase x.ringSize e.2.ringBase e.2.ringSize) ||
  ((recs m 0x0003).any fun r => overlaps x.ringBase x.ringSize (r.f 8 8) (r.f 16 8))

/-- A ring lies wholly in Canvas RAM, or wholly in DRAM, and at a slot boundary (R257, R259). -/
def ringPlaced (m : Dg) (x : Queue) : Bool :=
  x.ringBase % x.slotSize == 0 &&
  (if x.dram then spanIn m true .dram x.ringBase x.ringSize
   else canvasBase ≤ x.ringBase && x.ringBase + x.ringSize ≤ 0x24000000)

/-- R279: what makes QUEUE_CREATE INVALID: the offset of the field in its payload. -/
def createFault (m : Dg) (w0 budget win : Nat) : Option Nat :=
  let x := newQueue w0 budget win
  if !bit w0 0 ∨ 8 < x.slotLog ∨ x.depthLog = 0 ∨ 16 < x.depthLog ∨ bits w0 64 64 ≠ 0 ∨ !ringPlaced m x
      ∨ (x.cls = 0 ∧ (x.dram ∨ !x.check)) then some 8
  else if (x.cls = 0) = (budget = 0) then some 24
  else if x.cls ≠ 0 ∧ win ≠ 0 ∨ 4 ≤ win then some 26
  else none

/-- The endpoints of either generation. -/
def Queue.bound (x : Queue) : Bool := x.prod0 != 0x7F || x.cons0 != 0x7F || x.prod1 != 0x7F || x.cons1 != 0x7F

/-- The checks on QID that the queue commands share: the mailbox range (R388), a descriptor that is VALID (R610). -/
def qidFault (m : Dg) (q : Nat) (wantValid : Bool) : Option Reply :=
  if 0x40000 ≤ q then some (badField 0)
  else if 0x3FF00 ≤ q then some (.err stDenied 1)
  else if wantValid ∧ !(getQ m q).valid then some (badField 0)
  else none

/-- QUEUE_CREATE, R279, R388. -/
def execQueueCreate (pair tag : Nat) (s : State) : Host.Outcome State Fault Refusal :=
  run s fun m => carryOut m pair tag 0x0020 fun m c =>
    let q := c.f 0 4
    let w0 := c.f 8 16
    let x := newQueue w0 (c.f 24 2) (c.f 26 1)
    if c.payload.length ≠ 32 then (m, badLen)
    else match qidFault m q false with
      | some r => (m, r)
      | none =>
        if c.f 4 4 ≠ 0 then (m, badField 4)
        else match createFault m w0 (c.f 24 2) (c.f 26 1) with
          | some off => (m, badField off)
          | none =>
            if c.f 27 5 ≠ 0 then (m, badField 27)
            else if !admits m q x 0x7F 0x7F then (m, .err stDenied 5)
            else if (getQ m q).valid || ringOverlap m x then conflict m c
            else (setQ { m with fab := { m.fab with qmask := SMap.set m.fab.qmask q 0 } } q (filled m x), .ok [])

/-- QUEUE_DESTROY, R280. -/
def execQueueDestroy (pair tag : Nat) (s : State) : Host.Outcome State Fault Refusal :=
  run s fun m => carryOut m pair tag 0x0021 fun m c =>
    let q := c.f 0 4
    if c.payload.length ≠ 4 then (m, badLen)
    else match qidFault m q true with
      | some r => (m, r)
      | none =>
        if (getQ m q).bound then (m, .err stBusy 5)
        else (updQ m q fun x => { x with valid := false }, .ok [])

/-- A partition that the active blob defines. -/
def pidDefined (m : Dg) (pid : Nat) : Bool := (partRec m pid).isSome

/-- An endpoint that a queue may be bound to (Tables 05.1, 05.2, R610). -/
def epDefined (m : Dg) (ep : Nat) : Bool :=
  if 1 ≤ ep ∧ ep ≤ 0x34 then pidDefined m ep else ep != 0x7F && (routerOf m ep).isSome

/-- R253: the partition endpoints, each of which has a handle table. -/
def hasTable (ep : Nat) : Bool := ep < 0x40

/-- R278: the binding of one direction of generation 0, with the handle-table entry of a partition endpoint. -/
def bindQ (m : Dg) (q dir ep handle irq : Nat) : Dg :=
  let m := updQ m q fun x => if dir = 1 then { x with prod0 := ep } else { x with cons0 := ep }
  if hasTable ep then
    { m with fab := { m.fab with handles := SMap.set m.fab.handles (4096 * ep + handle) ⟨q, dir, irq⟩ } }
  else m

/-- QUEUE_BIND, R253, R279, R388, R610. -/
def execQueueBind (pair tag : Nat) (s : State) : Host.Outcome State Fault Refusal :=
  run s fun m => carryOut m pair tag 0x0022 fun m c =>
    let q := c.f 0 4
    let dir := c.f 5 1
    let ep := c.f 6 1
    let h := c.f 8 2
    let irq := c.f 10 2
    let x := getQ m q
    if c.payload.length ≠ 12 then (m, badLen)
    else match qidFault m q true with
      | some r => (m, r)
      | none =>
        if c.f 4 1 ≠ 0 then (m, badField 4)
        else if dir ≠ 1 ∧ dir ≠ 2 then (m, badField 5)
        else if !epDefined m ep then (m, badField 6)
        else if c.f 7 1 ≠ 0 then (m, badField 7)
        else if if hasTable ep then 4096 ≤ h else h ≠ 0 then (m, badField 8)
        else if (hasTable ep ∧ irq ≠ 0 ∧ (irq < 8 ∨ 512 ≤ irq)) ∨ (!hasTable ep ∧ irq ≠ 0) then (m, badField 10)
        else if !admits m q x (if dir = 1 then ep else x.prod0) (if dir = 2 then ep else x.cons0) then (m, .err stDenied 5)
        else if (if dir = 1 then x.prod0 else x.cons0) ≠ 0x7F ∨ (hasTable ep ∧ (SMap.get m.fab.handles (4096 * ep + h)).dir ≠ 0) then
          conflict m c
        else (bindQ m q dir ep h irq, .ok [])

/-- An endpoint of generation 0 unbound; its handle is free again. -/
def unbindQ (m : Dg) (q dir : Nat) : Dg :=
  let ep := if dir = 1 then (getQ m q).prod0 else (getQ m q).cons0
  let m := updQ m q fun x => if dir = 1 then { x with prod0 := 0x7F } else { x with cons0 := 0x7F }
  { m with fab := { m.fab with handles := m.fab.handles.filter fun e =>
      !(e.1 / 4096 == ep && e.2.q == q && e.2.dir == dir) } }

/-- QUEUE_UNBIND, R280, R388, R610. -/
def execQueueUnbind (pair tag : Nat) (s : State) : Host.Outcome State Fault Refusal :=
  run s fun m => carryOut m pair tag 0x0023 fun m c =>
    let q := c.f 0 4
    let dir := c.f 5 1
    if c.payload.length ≠ 6 then (m, badLen)
    else match qidFault m q true with
      | some r => (m, r)
      | none =>
        if c.f 4 1 ≠ 0 then (m, badField 4)
        else if (dir ≠ 1 ∧ dir ≠ 2) ∨ (if dir = 1 then (getQ m q).prod0 else (getQ m q).cons0) = 0x7F then (m, badField 5)
        else (unbindQ m q dir, .ok [])

/-- A partition endpoint of the active generation runs (R389). -/
def epRuns (m : Dg) (ep : Nat) : Bool :=
  1 ≤ ep && ep ≤ 0x34 && match (SMap.get m.stu.part ep).state with
    | .running => true
    | .starting => true
    | _ => false

/-- R278: indices, SEQ, messages and error counters of a queue restart. -/
def Queue.restarted (x : Queue) : Queue :=
  { x with wr := 0, vis := 0, rd := 0, rel := 0, seq := 0, crcErr := 0, seqErr := 0, otherErr := 0,
           pubs := [], voids := [], mirror := [] }

/-- QUEUE_RESET, R278, R281, R389. -/
def execQueueReset (pair tag : Nat) (s : State) : Host.Outcome State Fault Refusal :=
  run s fun m => carryOut m pair tag 0x0024 fun m c =>
    let q := c.f 0 4
    if c.payload.length ≠ 4 then (m, badLen)
    else match qidFault m q true with
      | some r => (m, r)
      | none =>
        let x := getQ m q
        let g := genOf m x
        if epRuns m (x.prod g) || epRuns m (x.cons g) then (m, .err stBusy 5)
        else (updQ m q fun x => filled m x.restarted, .ok [])

/-- QUEUE_QUERY, R278; with the DIAG right alone, of queues on which the partition holds a handle. -/
def execQueueQuery (pair tag : Nat) (s : State) : Host.Outcome State Fault Refusal :=
  run s fun m => carryOut m pair tag 0x0025 fun m c =>
    let q := c.f 0 4
    if c.payload.length ≠ 4 then (m, badLen)
    else if c.session = 0 ∧ !(m.fab.handles.any fun e => e.1 / 4096 == c.ep && e.2.q == q && e.2.dir != 0) then
      (m, .err stDenied 2)
    else match qidFault m q true with
      | some r => (m, r)
      | none => (m, .ok (leBytes 16 (getQ m q).word0 ++ leBytes 16 (getQ m q).word1))

end Sys2Proof.Machine
end

