-- ==== Sys2Proof/Machine/Blob.lean ====
section
/-! DEFINITION. The payload of a configuration blob (spec/08 R424 to R428, Tables 08.14 to 08.16): its records, their
layout and ranges, and the rules by which Exesh refuses a blob. -/
namespace Sys2Proof.Machine

/-! ### The records of a payload -/

/-- The next `n` records of a byte string, and what follows them; none when the string ends first or a header or a
padding byte is not as Table 08.15 has it. -/
def parseRecs : Nat → List Byte → Option (List CfgRec × List Byte)
  | 0, l => some ([], l)
  | n + 1, l =>
    let len := leAt l 4 4
    let full := (len + 7) / 8 * 8
    if l.length < 8 + full ∨ leAt l 2 2 ≠ 0 ∨ leAt l (8 + len) (full - len) ≠ 0 then none
    else match parseRecs n (l.drop (8 + full)) with
      | some (rs, rest) => some (⟨leAt l 0 2, len, leAt l 8 len⟩ :: rs, rest)
      | none => none

/-- R424: the records of a payload. -/
def parseBlob (p : List Byte) : Option (List CfgRec) :=
  if p.length < 16 ∨ p.take 8 ≠ ([0x44, 0x47, 0x39, 0x2D, 0x43, 0x46, 0x47, 0x31] : List Byte) ∨ leAt p 12 2 ≠ 1
      ∨ leAt p 14 2 ≠ 0 then none
  else match parseRecs (leAt p 8 4) (p.drop 16) with
    | some (rs, []) => some rs
    | _ => none

/-! ### The layout of one record (Table 08.16) -/

/-- Body length of an ETH_TSN record by FUNCTION. -/
def tsnLen (r : CfgRec) : Nat :=
  match r.f 1 1 with
  | 1 => 16
  | 2 => 24 + 8 * r.f 20 2
  | 3 => 20
  | 4 => 24 + 8 * r.f 20 2
  | 5 => 33
  | 6 => 24
  | 7 => 16
  | 8 => 10
  | _ => 0

/-- The size that the body's fields fix; none for an undefined TYPE. -/
def bodyLen (r : CfgRec) : Option Nat :=
  match r.ty with
  | 0x0001 => some 128
  | 0x0002 => some 64
  | 0x0003 => some 32
  | 0x0004 => some 32
  | 0x0005 => some 4
  | 0x0006 => some 4
  | 0x0007 => some 32
  | 0x0008 => some 40
  | 0x0009 => some 16
  | 0x000A => some 20
  | 0x000B => some 192
  | 0x000C => some 16
  | 0x000D => some 168
  | 0x000E => some 40
  | 0x000F => some 8
  | 0x0010 => some 4
  | 0x0011 => some 64
  | 0x0012 => some 24
  | 0x0013 => some (24 + 8 * r.f 16 2)
  | 0x0014 => some 32
  | 0x0015 => some 16
  | 0x0016 => some 16
  | 0x0017 => some (tsnLen r)
  | 0x0018 => some 16
  | 0x0019 => some 16
  | 0x001A => some 8
  | 0x001B => some 16
  | 0x001C => some 16
  | 0x001D => some 16
  | 0x001E => some 16
  | 0x001F => some 48
  | 0x0020 => some 16
  | 0x0021 => some 8
  | 0x0022 => some 16
  | _ => none

/-- Reserved bytes, offset and size. -/
def bodyZero (ty : Nat) : List (Nat × Nat) :=
  match ty with
  | 0x0001 => [(18, 2), (39, 1), (47, 1), (72, 56)]
  | 0x0002 => [(7, 1), (20, 4), (48, 16)]
  | 0x0003 => [(3, 5), (24, 8)]
  | 0x0004 => [(25, 7)]
  | 0x0005 => [(3, 1)]
  | 0x0006 => [(1, 3)]
  | 0x0007 => [(1, 7)]
  | 0x0008 => [(4, 4), (27, 1), (36, 4)]
  | 0x000A => [(2, 2)]
  | 0x000B => [(21, 3), (28, 4)]
  | 0x000C => [(11, 5)]
  | 0x000D => [(14, 2), (26, 2), (34, 2), (36, 4)]
  | 0x000E => [(30, 2), (36, 4)]
  | 0x000F => [(1, 1), (5, 3)]
  | 0x0010 => [(2, 2)]
  | 0x0011 => [(30, 2)]
  | 0x0012 => [(15, 1), (20, 4)]
  | 0x0013 => [(18, 6)]
  | 0x0014 => [(14, 2), (20, 12)]
  | 0x0015 => [(10, 6)]
  | 0x0016 => [(12, 4)]
  | 0x0017 => [(4, 4)]
  | 0x0018 => [(11, 5)]
  | 0x0019 => [(3, 1), (10, 2)]
  | 0x001A => [(3, 5)]
  | 0x001B => [(8, 8)]
  | 0x001C => [(6, 10)]
  | 0x001D => [(2, 2), (9, 7)]
  | 0x001E => [(12, 4)]
  | 0x001F => [(3, 1), (32, 16)]
  | 0x0020 => [(3, 1), (14, 2)]
  | 0x0021 => [(6, 2)]
  | 0x0022 => [(1, 3), (14, 2)]
  | _ => []

/-- A value within bounds. -/
def within (lo hi n : Nat) : Bool := lo ≤ n && n ≤ hi

/-- Every entry of an array of fields passes a test. -/
def allF (r : CfgRec) (off size n : Nat) (p : Nat → Bool) : Bool := (List.range n).all fun i => p (r.f (off + size * i) size)

/-- An interrupt source that a record may name. -/
def irqOk (n : Nat) : Bool := n == 0 || within 8 511 n

/-- LEN of a last-word frame fits its FORMAT (Table 09.13). -/
def ssqLenOk (fmt len : Nat) : Bool :=
  match fmt with
  | 1 => within 1 8 len
  | 2 => within 1 64 len
  | 3 => within 1 128 len
  | 5 => within 60 128 len
  | _ => false

/-- A queue ID, or none (R251). -/
def qidOk (n : Nat) : Bool := n < 0x40000 || n == 0xFFFFFFFF

/-- UNIT and PERIOD_NS of an IRQ record by its ORIGIN. -/
def originOk (r : CfgRec) : Bool :=
  let unit := r.f 6 2
  (match r.f 4 1 with
   | 1 => unit < 0x110
   | 2 => unit < 0x110
   | 3 => unit < 16
   | 6 => unit < 64
   | 7 => unit < 64
   | _ => unit == 0) &&
  (r.f 8 8 != 0) == (r.f 4 1 == 3)

/-- INDEX of an OWNER record by its CLASS. -/
def ownedOk (cls i : Nat) : Bool :=
  match cls with
  | 1 => i < 16
  | 2 => i < 8
  | 3 => i < 14
  | 4 => i < 96
  | 5 => i < 48
  | 6 => i < 24
  | 7 => i < 8
  | 8 => within 1 2 i
  | 9 => i < 16
  | 10 => i == 0
  | _ => false

/-- The checkpoints of a sequence: a list, then 0xFF. -/
def cpListOk (l : List Nat) : Bool :=
  (l.takeWhile (· != 0xFF)).all (· < 32) && (l.dropWhile (· != 0xFF)).all (· == 0xFF)

/-- The body of an ETH_TSN record by FUNCTION: ranges and reserved fields (Table 08.16), and the limits of R560. -/
def tsnOk (r : CfgRec) : Bool :=
  let gates (resv : List (Nat × Nat)) : Bool :=
    r.f 20 2 ≤ 256 && r.f 22 2 == 0 && (List.range (r.f 20 2)).all fun i => resv.all fun e => r.f (24 + 8 * i + e.1) e.2 == 0
  match r.f 1 1 with
  | 1 => r.f 8 1 < 2 && r.f 9 1 < 2
  | 2 => gates [(1, 3)] && within 10000 1000000000 (r.f 16 4)
  | 3 => r.f 2 2 < 512 && (r.f 10 1 < 8 || r.f 10 1 == 0xFF) && r.f 11 1 == 0 && r.f 12 2 < 256 &&
    (r.f 14 2 < 256 || r.f 14 2 == 0xFFFF)
  | 4 => r.f 2 2 < 256 && gates [(2, 2)] &&
    (List.range (r.f 20 2)).all fun i => r.f (25 + 8 * i) 1 < 8 || r.f (25 + 8 * i) 1 == 0xFF
  | 5 => r.f 2 2 < 256 && r.f 32 1 < 4
  | 6 => r.f 8 1 < 8 && r.f 9 7 == 0
  | 7 => r.f 2 2 < 256 && within 1 32 (r.f 10 1) && r.f 11 1 == 0
  | _ => true

/-- A value that a last-word frame inserts: VAL0 and VAL1 of SSQ_FRAME. -/
def ssqValOk (r : CfgRec) (off : Nat) : Bool := (r.f off 2 < 208 || r.f off 2 == 0xFFFF) && r.f (off + 3) 1 < 4

/-- A schedule entry of a LIN controller; it names a transmit queue only for a frame that this controller publishes. -/
def linEntryOk (r : CfgRec) (i : Nat) : Bool :=
  let o := 24 + 8 * i
  r.f o 1 < 64 && r.f (o + 1) 1 < 3 && (if r.f 1 1 = 1 then within 1 255 (r.f (o + 2) 2) else r.f (o + 2) 2 == 0) &&
  qidOk (r.f (o + 4) 4) && (r.f (o + 4) 4 == 0xFFFFFFFF || r.f (o + 1) 1 == 1 - r.f 1 1)

/-- The fields of a record lie in their ranges. -/
def bodyRange (r : CfgRec) : Bool :=
  match r.ty with
  | 0x0001 =>
    allF r 0 1 4 (· < 3) && allF r 4 1 4 (fun x => x < 3 || x == 0xFF) && allF r 8 1 4 (· < 2) && within 10 3600 (r.f 12 4) &&
    within 1 64 (r.f 16 2) && within 1 3600 (r.f 20 4) && r.f 24 4 ≤ 600 && within 60 129600 (r.f 28 4) && r.f 32 4 ≤ 1440 &&
    popcount 16 (r.f 36 2) ≤ 4 && r.f 38 1 < 4 && allF r 40 1 7 (0 < ·) && allF r 48 4 6 (within 10 3600)
  | 0x0002 =>
    within 1 0x34 (r.f 0 1) && r.f 1 1 < 3 && r.f 2 1 < 4 && r.f 3 1 < (if r.f 1 1 = 0 then 3 else if r.f 1 1 = 1 then 4 else 10) &&
    r.f 4 1 < 2 && r.f 5 1 < 16 && r.f 6 1 < 16 && within 100 10000 (r.f 8 4) && r.f 12 4 < r.f 8 4 && r.f 16 4 ≤ 1000 &&
    r.f 32 8 % 16 == 0 && r.f 24 8 < 2 ^ 48 && r.f 24 8 % 4 == 0 &&
    (if r.f 1 1 = 0 then r.f 0 1 == 1 + 3 * r.f 2 1 + r.f 3 1 else 0x0D ≤ r.f 0 1)
  | 0x0003 =>
    (within 1 0x34 (r.f 0 1) || r.f 0 1 == 0x3E || r.f 0 1 == 0x3F) && r.f 1 1 < 32 && within 1 7 (r.f 2 1) &&
    r.f 8 8 % 4096 == 0 && r.f 16 8 % 4096 == 0 && r.f 8 8 + r.f 16 8 ≤ 2 ^ 48
  | 0x0004 => r.f 0 8 % 4096 == 0 && canvasBase ≤ r.f 0 8 && r.f 0 8 + r.f 8 8 ≤ 0x24000000 && r.f 16 4 + r.f 20 4 ≤ 0x3FF00
  | 0x0005 => r.f 0 1 < 4 && r.f 1 1 < 32 && r.f 2 1 < 8
  | 0x0006 => true
  | 0x0007 => within 1 0x34 (r.f 0 1) && canvasBase ≤ r.f 8 8 && r.f 8 8 + r.f 24 8 ≤ 0x24000000
  | 0x0008 => r.f 0 4 < 0x3FF00 && irqOk (r.f 34 2) && r.f 30 2 < 4096 && r.f 32 2 < 4096
  | 0x0009 => within 1 0x34 (r.f 0 1) && r.f 1 1 < 16 && within 8 511 (r.f 2 2) && r.f 4 1 < 8 && r.f 5 1 < 4 && originOk r
  | 0x000A => r.f 0 2 < 0x110 && (policyFault (r.f 0 2) ((leBytes 20 r.body).drop 4)).isNone
  | 0x000B =>
    r.f 0 1 < 64 && within 1 0x34 (r.f 1 1) && within 0xE1 0xEE (r.f 2 2) && within 1 65536 (r.f 4 4) && r.f 8 4 < r.f 12 4 &&
    r.f 20 1 < 2 && (r.f 20 1 == 0 || cpListOk ((List.range 32).map fun i => r.f (32 + i) 1))
  | 0x000C =>
    r.f 0 2 < 208 && r.f 4 2 ≤ 10000 && r.f 6 2 ≤ 10000 && r.f 4 2 + r.f 6 2 ≤ 10000 && r.f 8 2 ≤ 1023 &&
    within 1 0x34 (r.f 10 1) && !(within 96 143 (r.f 0 2) && (r.f 6 2 != 0 || 4 ≤ r.f 2 2))
  | 0x000D =>
    within 1 0x34 (r.f 1 1) && (r.f 2 1 < 16 || within 0x20 0x2B (r.f 2 1)) && ssqLenOk (r.f 3 1) (r.f 12 1) &&
    (r.f 2 1 < 16) == (r.f 3 1 != 5) && within 1 10000 (r.f 8 2) && r.f 10 2 < r.f 8 2 && r.f 13 1 < 2 && r.f 28 1 < 3 &&
    ssqValOk r 16 && ssqValOk r 20
  | 0x000E =>
    r.f 0 1 < 32 && (if r.f 0 1 = 31 then r.f 1 1 == 0x3F else within 1 0x34 (r.f 1 1) || [0x3E, 0x58, 0x59].contains (r.f 1 1)) &&
    within 2 6 (r.f 2 1) && within 1 7 (r.f 3 1) && r.f 4 1 < 2 && r.f 5 1 < 2 && irqOk (r.f 6 2) && r.f 32 2 < 4096 && r.f 34 2 < 4096 &&
    allF r 8 8 2 (fun a => a < 2 ^ 48 && a % 64 == 0)
  | 0x000F => ownedOk (r.f 0 1) (r.f 2 2) && r.f 4 1 ≤ 0x34
  | 0x0010 => r.f 0 1 < 4 && r.f 1 1 < 2
  | 0x0011 => r.f 0 1 < 16 && r.f 1 1 < 16 && r.f 2 2 ≤ 1000 && allF r 32 4 8 qidOk
  | 0x0012 => r.f 0 1 < 16 && r.f 1 1 < 128 && qidOk (r.f 16 4) && r.f 2 1 < 2 && r.f 3 1 < 16 && r.f 14 1 < 4 && bits (r.f 4 4) 29 2 == 0 &&
    bits (r.f 8 4) 29 2 == 0 && (r.f 2 1 == 0 || bit (r.f 4 4) 31 == bit (r.f 8 4) 31)
  | 0x0013 => r.f 0 1 < 8 && r.f 1 1 < 2 && within 1000 20000 (r.f 2 2) && r.f 16 2 ≤ 64 && qidOk (r.f 4 4) &&
    (List.range (r.f 16 2)).all (linEntryOk r)
  | 0x0014 => r.f 0 1 < 14 && r.f 1 1 < 6 && r.f 2 1 < 32 && r.f 3 1 < 32 && r.f 5 1 ≤ 0x34 && qidOk (r.f 16 4)
  | 0x0015 => r.f 6 2 < 4096 && r.f 8 2 < 2 ^ 14
  | 0x0016 => within 12 13 (r.f 0 1) && r.f 1 1 < 3 && r.f 4 1 < 14 && r.f 5 1 < 8 && irqOk (r.f 6 2) && qidOk (r.f 8 4)
  | 0x0017 => (r.f 0 1 < 14 || r.f 0 1 == 0xFF) && within 1 8 (r.f 1 1) && tsnOk r
  | 0x0018 => within 1 4 (r.f 8 1) && [1, 2, 4].contains (r.f 9 1) && r.f 10 1 < 2
  | 0x0019 =>
    r.f 0 1 < 96 && r.f 1 1 < 4 && (if r.f 1 1 = 0 then true else if r.f 1 1 = 3 then r.f 2 1 < 2 && 2 ≤ r.f 4 4 else within 1 3 (r.f 2 1))
  | 0x001A => r.f 0 1 < 48 && r.f 1 1 < 3 && r.f 2 1 < 16
  | 0x001B => r.f 0 1 < 8 && r.f 1 1 ≤ 100 && within 1 100 (r.f 2 2)
  | 0x001C => r.f 0 1 < 16 && r.f 1 1 < 2 && r.f 2 1 < 3 && r.f 3 1 < 96 && r.f 4 2 < 4096
  | 0x001D => within 1 0x34 (r.f 0 1) && r.f 1 1 < 2 && qidOk (r.f 4 4) && r.f 8 1 &&& 0xE1 == 0
  | 0x001E => within 4800 921600 (r.f 0 4) && qidOk (r.f 4 4) && qidOk (r.f 8 4)
  | 0x001F => within 1 2 (r.f 0 1) && within 1 0x34 (r.f 1 1) && within 5 16 (r.f 2 1) && within 1000 5000 (r.f 22 2) && qidOk (r.f 24 4) &&
    qidOk (r.f 28 4)
  | 0x0020 => r.f 0 1 < 8 && r.f 1 1 < 16 && r.f 2 1 ≤ 0x34 && qidOk (r.f 4 4) && qidOk (r.f 8 4) && irqOk (r.f 12 2)
  | 0x0022 => within 1 0x34 (r.f 0 1) && qidOk (r.f 4 4) && qidOk (r.f 8 4) && irqOk (r.f 12 2)
  | _ => true

/-- A record is laid out as R425 asks. -/
def recOk (r : CfgRec) : Bool :=
  bodyLen r == some r.len && ((bodyZero r.ty).all fun e => r.f e.1 e.2 == 0) && bodyRange r

/-- The key that orders records of a TYPE. -/
def orderKey (r : CfgRec) : Nat :=
  match r.ty with
  | 0x0001 => 0
  | 0x0004 => 0
  | 0x0018 => 0
  | 0x001E => 0
  | 0x0021 => 0
  | 0x0008 => r.f 0 4
  | 0x000A => r.f 0 2
  | 0x000C => r.f 0 2
  | 0x0015 => r.f 0 6
  | 0x0005 => 256 * r.f 0 1 + r.f 1 1
  | 0x000F => 65536 * r.f 0 1 + r.f 2 2
  | 0x0012 => 256 * r.f 0 1 + r.f 1 1
  | 0x0016 => 256 * r.f 0 1 + r.f 1 1
  | 0x0017 => 256 * r.f 0 1 + r.f 1 1
  | 0x0020 => 256 * r.f 0 1 + r.f 1 1
  | _ => r.f 0 1

/-- The key that only one record of a TYPE may carry; none for the types that occur any number of times. -/
def uniqueKey (r : CfgRec) : Option Nat :=
  match r.ty with
  | 0x0003 => none
  | 0x0007 => none
  | 0x0009 => none
  | 0x0015 => none
  | 0x0016 => none
  | 0x0017 => none
  | 0x001D => some (r.f 4 4)
  | 0x0022 => some (r.f 4 4)
  | _ => some (orderKey r)

/-- Records ascend by TYPE and, within it, by key. -/
def ordered : List CfgRec → Bool
  | [] => true
  | [_] => true
  | a :: b :: r => (a.ty < b.ty || (a.ty == b.ty && orderKey a ≤ orderKey b)) && ordered (b :: r)

/-- Some two entries of a list are related. -/
def anyPair {α : Type} (p : α → α → Bool) : List α → Bool
  | [] => false
  | a :: r => r.any (p a) || anyPair p r

/-- R425: two records of a TYPE with the same key. -/
def sameKey (a b : CfgRec) : Bool := a.ty == b.ty && (uniqueKey a).isSome && uniqueKey a == uniqueKey b

/-! ### Rules over the whole blob (R428) -/

/-- R24: two partitions on one group or core. -/
def sameUnit (a b : CfgRec) : Bool :=
  a.ty == 0x0002 && b.ty == 0x0002 && a.f 2 1 == b.f 2 1 && a.f 3 1 == b.f 3 1 && (a.f 1 1 == 2) == (b.f 1 1 == 2)

/-- R207: one cacheable window in two contexts, which are groups or QM cores: a partition's live windows belong to one, its
shadow windows to slot 4 × s + 3 (R434). -/
def sharedCacheable (a b : CfgRec) : Bool :=
  a.ty == 0x0003 && b.ty == 0x0003 && (bit (a.f 1 1) 3 || bit (b.f 1 1) 3) && a.f 0 1 ≤ 0x34 && b.f 0 1 ≤ 0x34 &&
  (a.f 0 1 != b.f 0 1 || bit (a.f 1 1) 4 != bit (b.f 1 1) 4) && overlaps (a.f 8 8) (a.f 16 8) (b.f 8 8) (b.f 16 8)

/-- The queues whose rings a record places: one of a QUEUE record, two of a MAILBOX record. -/
def ringsOf (r : CfgRec) : List Queue :=
  if r.ty = 0x0008 then [newQueue (r.f 8 16) 0 0]
  else if r.ty = 0x000E then [pairQueue r (r.f 8 8), pairQueue r (r.f 16 8)]
  else []

/-- Rings overlap (R259). -/
def ringsMeet (l : List CfgRec) : Bool :=
  anyPair (fun x y => overlaps x.ringBase x.ringSize y.ringBase y.ringSize) (l.flatMap ringsOf)

/-- A ring overlaps an access window (R259). -/
def ringInWindow (l : List CfgRec) : Bool :=
  (l.flatMap ringsOf).any fun x => l.any fun r => r.ty == 0x0003 && overlaps x.ringBase x.ringSize (r.f 8 8) (r.f 16 8)

/-- One handle bound twice, as producer or consumer (R279). -/
def handlesOf (r : CfgRec) : List (Nat × Nat) :=
  if r.ty = 0x0008 then
    (if hasTable (r.f 28 1) then [(r.f 28 1, r.f 30 2)] else []) ++ (if hasTable (r.f 29 1) then [(r.f 29 1, r.f 32 2)] else [])
  else if r.ty = 0x000E ∧ hasTable (r.f 1 1) ∧ r.f 1 1 ≠ 0x3F then [(r.f 1 1, r.f 32 2), (r.f 1 1, r.f 34 2)]
  else []

def sameHandle (l : List CfgRec) : Bool := anyPair (fun a b => a == b) (l.flatMap handlesOf)

/-- R222: a group or QM core has at most 16 class-0 sources, and each ranks above every enabled source of it that is not
class-0. -/
def irqRule (l : List CfgRec) : Bool :=
  let irqs := l.filter fun r => r.ty == 0x0009
  irqs.all fun r =>
    !bit (r.f 5 1) 1 ||
    (((irqs.filter fun s => s.f 0 1 == r.f 0 1 && bit (s.f 5 1) 1).map fun s => s.f 2 2).eraseDups.length ≤ 16 &&
     irqs.all fun s => s.f 0 1 != r.f 0 1 || !bit (s.f 5 1) 0 || bit (s.f 5 1) 1 || s.f 1 1 < r.f 1 1)

/-- R335: triplicated groups lie below the segment count and apart. -/
def tmrRule (segs : Nat) (l : List CfgRec) : Bool :=
  let t := (l.filter fun r => r.ty == 0x0006).map fun r => r.f 0 1
  (t.all fun k => k + 2 < segs) && !anyPair (fun a b => a < b + 3 && b < a + 3) t

/-- The module with the segments hidden that a blob triplicates (R335), and its records. -/
def underBlob (m : Dg) (l : List CfgRec) : Dg :=
  let t := (l.filter fun r => r.ty == 0x0006).map fun r => r.f 0 1
  { m with cfg := l, drc := { m.drc with tmrHidden := t.foldl (fun n k => setBits (setBits n (k + 1) 1 1) (k + 2) 1 1) 0 } }

/-- R560: Qav on at most two classes of a port. -/
def qavRule (l : List CfgRec) : Bool :=
  let e := l.filter fun r => r.ty == 0x0017 && r.f 1 1 == 6
  e.all fun r => ((e.filter fun s => s.f 0 1 == r.f 0 1).map fun s => s.f 8 1).eraseDups.length ≤ 2

/-- Table 08.16: receive and transmit entries of an Ethernet internal port. -/
def mapRule (l : List CfgRec) : Bool :=
  [12, 13].all fun p =>
    let e := l.filter fun r => r.ty == 0x0016 && r.f 0 1 == p
    (e.filter fun r => r.f 1 1 < 2).length ≤ 1024 && (e.filter fun r => r.f 1 1 == 2).length ≤ 64

/-- R279, R610 for one side of a QUEUE record: an endpoint that the blob defines, or none, and a handle of its table. -/
def sideRule (m : Dg) (ep handle : Nat) : Bool :=
  (ep == 0x7F || epDefined m ep) && (if hasTable ep then handle < 4096 else handle == 0)

/-- R279, R360: the queues of the blob. -/
def queueRule (m : Dg) (r : CfgRec) : Bool :=
  if r.ty = 0x0008 then
    (createFault m (r.f 8 16) (r.f 24 2) (r.f 26 1)).isNone && sideRule m (r.f 28 1) (r.f 30 2) && sideRule m (r.f 29 1) (r.f 32 2)
  else r.ty != 0x000E || (ringsOf r).all (ringPlaced m)

/-- The bytes that the inserted fields of a last-word frame occupy (R501). -/
def fieldBytes (r : CfgRec) (off : Nat) : List Nat :=
  if r.f off 2 = 0xFFFF then [] else (List.range (if bit (r.f (off + 3) 1) 0 then 2 else 1)).map (r.f (off + 2) 1 + ·)

def crcBytes (r : CfgRec) : List Nat := (List.range (r.f 28 1)).map (r.f 29 1 + ·)

/-- R501: the rules of a last-word frame. -/
def ssqRule (l : List CfgRec) (r : CfgRec) : Bool :=
  r.ty != 0x000D ||
  (let v := fieldBytes r 16 ++ fieldBytes r 20 ++ crcBytes r
   let cnt := if r.f 24 1 = 0xFF then [] else [r.f 24 1]
   (v ++ cnt).all (· < r.f 12 1) && !anyPair (fun a b => a == b) (v ++ cnt) &&
   (r.f 28 1 == 0 || (r.f 32 1 ≤ r.f 33 1 && r.f 33 1 < r.f 12 1 && (crcBytes r).all fun b => b < r.f 32 1 || r.f 33 1 < b)) &&
   (r.f 24 1 == 0xFF || r.f 25 1 == 4 || r.f 25 1 == 8) &&
   ([16, 20].all fun o => r.f o 2 == 0xFFFF || l.any fun c => c.ty == 0x000C && c.f 0 2 == r.f o 2))

/-- The function that the blob gives a shared land group (R548). -/
def landB (l : List CfgRec) (g : Nat) : Bool := l.any fun r => r.ty == 0x0010 && r.f 0 1 == g && r.f 1 1 == 1

/-- R546: a resource whose land has gone to another function: classes of OWNER 1 CAN, 2 LIN, 4 timer, 5 GPIO, 7 pulse,
8 card. -/
def landTaken (l : List CfgRec) (cls i : Nat) : Bool :=
  match cls with
  | 1 => within 12 15 i && landB l 1
  | 2 => within 4 7 i && landB l 0
  | 4 => within 88 95 i && !landB l 1
  | 5 => (within 40 47 i && !landB l 0) || (within 32 38 i && !landB l 2)
  | 7 => within 6 7 i && landB l 3
  | 8 => i == 2 && landB l 2
  | _ => false

/-- R546: an owner of a taken land, or a Fixative profile on one. -/
def landRule (l : List CfgRec) (r : CfgRec) : Bool :=
  (r.ty == 0x000F && landTaken l (r.f 0 1) (r.f 2 2)) ||
  (r.ty == 0x000C && (landTaken l 4 (r.f 0 2) && r.f 0 2 < 96 || (within 96 143 (r.f 0 2) && landTaken l 5 (r.f 0 2 - 96))))

/-- R282: every class-0 queue of the blob together, as S10 and S14 create and bind them. -/
def blobAdmits (m : Dg) (l : List CfgRec) : Bool :=
  let m := { m with cfg := l }
  q0Fits ((l.filter fun r => r.ty == 0x0008 && bits (r.f 8 16) 1 3 == 0).map fun r =>
    let x := newQueue (r.f 8 16) (r.f 24 2) (r.f 26 1)
    (x, pathOf m (r.f 0 4) x (r.f 28 1) (r.f 29 1)))

/-- R425, R426, R428: why a blob is refused: the status, with its DETAIL; none when it is accepted. First the checks of R425 in its
order, then the other rules in the order of Table 07.7. -/
def blobRefusal (m : Dg) (payload : List Byte) : Option (Nat × Nat) :=
  match parseBlob payload with
  | none => some (5, 0xFFFF)
  | some l =>
    if !l.all recOk || !ordered l then some (5, 0xFFFF)
    else if anyPair sameKey l || l.any (landRule l) then some (4, 0)
    else if !(l.any fun r => r.ty == 0x000E && r.f 0 1 == 31) || !irqRule l || !mapRule l || !qavRule l ||
        !tmrRule (dramSegs m) l || !l.all (queueRule (underBlob m l)) || !l.all (ssqRule l) then some (5, 0xFFFF)
    else if !blobAdmits m l then some (3, 5)
    else if anyPair sameUnit l || anyPair sharedCacheable l || ringsMeet l || ringInWindow l || sameHandle l then some (4, 0)
    else none

end Sys2Proof.Machine
end

