-- ==== Sys2Proof/Machine/Arith.lean ====
section
/-! DEFINITION. The integer, shuffle, field, multiply, division and decimal operations of spec/03 on 128-bit
registers, as pure functions: operands are read as integers, the result is computed exactly and narrowed. -/
namespace Sys2Proof.Machine

/-- Element width in bits of a W code, integer column of Table 02.2; none for a reserved code. -/
def intWidth (w : BitVec 3) : Option Nat := if w.toNat ≤ 4 then some (8 * 2 ^ w.toNat) else none

/-- Element width in bits of a W code, floating-point column of Table 02.2. -/
def fpWidth (w : BitVec 3) : Option Nat :=
  if 1 ≤ w.toNat ∧ w.toNat ≤ 4 then some (8 * 2 ^ w.toNat) else none

/-- Element `i` of width `w` (Table 02.2). -/
def elem (w : Nat) (q : Quad) (i : Nat) : Nat := bits q.toNat (w * i) w

/-- The register whose element `i` of width `w` is `f i`. -/
def ofElems (w : Nat) (f : Nat → Nat) : Quad :=
  BitVec.ofNat 128 (pack ((List.range (128 / w)).map fun i => (w, f i)))

/-- An element-wise operation on one register. -/
def map1 (w : Nat) (f : Nat → Nat) (a : Quad) : Quad := ofElems w fun i => f (elem w a i)

/-- An element-wise operation on two registers. -/
def map2 (w : Nat) (f : Nat → Nat → Nat) (a b : Quad) : Quad := ofElems w fun i => f (elem w a i) (elem w b i)

/-- An exact integer clamped to a range. -/
def clampInt (lo hi i : Int) : Int := if i < lo then lo else if hi < i then hi else i

/-- An exact integer saturated to `w` bits, signed or unsigned (R152). -/
def satTo (w : Nat) (signed : Bool) (i : Int) : Nat :=
  if signed then ofInt w (clampInt (-(2 ^ (w - 1) : Nat)) ((2 ^ (w - 1) : Nat) - 1) i)
  else ofInt w (clampInt 0 ((2 ^ w : Nat) - 1) i)

/-- An element read signed or unsigned. -/
def asInt (w : Nat) (signed : Bool) (n : Nat) : Int := if signed then toInt w n else (n : Int)

/-- R154: shift left. -/
def shlElem (w x n : Nat) : Nat := if n < w then x * 2 ^ n % 2 ^ w else 0
/-- R154: logical shift right. -/
def shrElem (w x n : Nat) : Nat := if n < w then x / 2 ^ n else 0
/-- R154: arithmetic shift right. -/
def shraElem (w x n : Nat) : Nat := ofInt w (toInt w x / ((2 ^ (if n < w then n else w) : Nat) : Int))
/-- R154: rotate left by the count modulo the width. -/
def rotElem (w x n : Nat) : Nat := (x * 2 ^ (n % w)) % 2 ^ w + x / 2 ^ (w - n % w)

/-- R156: leading zeros. -/
def clzElem (w x : Nat) : Nat := ((bitList w x).reverse.takeWhile (fun b => !b)).length
/-- R156: trailing zeros. -/
def ctzElem (w x : Nat) : Nat := ((bitList w x).takeWhile (fun b => !b)).length

/-- R155: absolute value modulo 2^w. -/
def absElem (w x : Nat) : Nat := ofInt w (toInt w x).natAbs

/-- The relations of CMP (Table 03.1): EQ, NE, LT, GE, LTU, GEU. -/
def relHolds (rel w a b : Nat) : Bool :=
  match rel with
  | 0 => a == b
  | 1 => a != b
  | 2 => decide (toInt w a < toInt w b)
  | 3 => decide (toInt w b ≤ toInt w a)
  | 4 => decide (a < b)
  | _ => decide (b ≤ a)

/-- R159: SHUF. -/
def shuf (w : Nat) (a b : Quad) : Quad :=
  ofElems w fun i =>
    if bit (elem w b i) (w - 1) then 0 else elem w a (elem w b i % (128 / w))

/-- The exact sum of the element products of MAC (R161). -/
def macSum (w : Nat) (signed : Bool) (a b : Quad) : Int :=
  (List.range (128 / w)).foldl (fun s i => s + asInt w signed (elem w a i) * asInt w signed (elem w b i)) 0

/-- The exact accumulator value after MAC with the given FN (R161). -/
def macExact (fn w : Nat) (acc : Acc) (a b : Quad) : Int :=
  let p := macSum w (fn < 2) a b
  acc.toInt + (if fn % 2 = 0 then p else -p)

/-- R163: a division slot: the low and the high half of slot `j` of width 2w. -/
def ofSlots (w : Nat) (f : Nat → Nat × Nat) : Quad :=
  ofElems w fun i => if i % 2 = 0 then (f (i / 2)).1 else (f (i / 2)).2

/-- R165: DVINIT. -/
def dvinit (signed : Bool) (w : Nat) (a : Quad) : Quad :=
  ofSlots w fun j => ((if signed then absElem w (elem w a (2 * j)) else elem w a (2 * j)), 0)

/-- R166: one restoring step from quotient, remainder and divisor magnitude. -/
def divStep (w q r v : Nat) : Nat × Nat :=
  let c := bits r (w - 1) 1
  let r1 := r * 2 % 2 ^ w + bits q (w - 1) 1
  let q1 := q * 2 % 2 ^ w
  let t := c * 2 ^ w + r1
  if v ≤ t then (q1 + 1, (t - v) % 2 ^ w) else (q1, r1)

/-- R166: DIVS. -/
def divs (signed : Bool) (w : Nat) (st dv : Quad) : Quad :=
  ofSlots w fun j =>
    let v := elem w dv (2 * j)
    divStep w (elem w st (2 * j)) (elem w st (2 * j + 1)) (if signed then absElem w v else v)

/-- Table 03.2: quotient, remainder and status of one slot. -/
def diveSlot (signed : Bool) (w q r a b : Nat) : Nat × Nat × Nat :=
  let sa := toInt w a
  let sb := toInt w b
  if b = 0 then (a, a, 1)
  else if signed && sa == -(2 ^ (w - 1) : Nat) && sb == -1 then (a, 0, 1)
  else if signed then
    ((if (sa < 0) = (sb < 0) then q else ofInt w (-(q : Int))), (if sa < 0 then ofInt w (-(r : Int)) else r), 0)
  else (q, r, 0)

/-- R168: the slot of DIVE at `j` from state, dividends and divisors. -/
def diveAt (signed : Bool) (w : Nat) (st a b : Quad) (j : Nat) : Nat × Nat × Nat :=
  diveSlot signed w (elem w st (2 * j)) (elem w st (2 * j + 1)) (elem w a (2 * j)) (elem w b (2 * j))

/-- R168: the results of DIVE. -/
def dive (signed : Bool) (w : Nat) (st a b : Quad) : Quad :=
  ofSlots w fun j => ((diveAt signed w st a b j).1, (diveAt signed w st a b j).2.1)

/-- R167: the status register of DIVE. -/
def diveStatus (signed : Bool) (w : Nat) (st a b : Quad) : Quad :=
  ofSlots w fun j => ((diveAt signed w st a b j).2.2, 0)

/-- R170: a packed-decimal operand as an integer; none when invalid. -/
def decVal (q : Quad) : Option Int :=
  let n := q.toNat
  let digits := (List.range 31).map fun i => bits n (4 * (i + 1)) 4
  let sign := n % 16
  let mag : Nat := digits.foldr (fun d a => d + 10 * a) 0
  if digits.all (· ≤ 9) && (sign == 0xC || sign == 0xD || sign == 0xF) then
    some (if sign == 0xD then -(mag : Int) else mag)
  else none

/-- R174: a packed-decimal register of an integer of magnitude at most 10^31 − 1; `u` when a result that is not
negative takes the sign nibble 0xF. -/
def decPack (u : Bool) (v : Int) : Quad :=
  let m := v.natAbs
  let sign := if v < 0 then 0xD else if u then 0xF else 0xC
  BitVec.ofNat 128 (pack ((4, sign) :: (List.range 31).map fun i => (4, m / 10 ^ i % 10)))

/-- R171 to R174: the four DEC operations; none when an operand is invalid or the result not representable. -/
def decOp (op : Nat) (a b : Quad) : Option Quad :=
  let u := a.toNat % 16 == 0xF && b.toNat % 16 == 0xF
  let rep (u : Bool) (v : Int) : Option Quad := if v.natAbs < 10 ^ 31 then some (decPack u v) else none
  match op with
  | 0 => match decVal a, decVal b with
    | some x, some y => rep u (x + y)
    | _, _ => none
  | 1 => match decVal a, decVal b with
    | some x, some y => rep u (x - y)
    | _, _ => none
  | 2 => (decVal a).map fun x => BitVec.ofInt 128 x
  | _ => rep false a.toInt

/-- R160: EXT. -/
def extField (w p : Nat) (signed : Bool) (a : Quad) : Quad :=
  let v := bits a.toNat p w
  BitVec.ofNat 128 (if signed then sext w 128 v else v)

/-- R160: INS. -/
def insField (w p : Nat) (d a : Quad) : Quad := BitVec.ofNat 128 (setBits d.toNat p w (bits a.toNat 0 w))

/-- The width, polynomial and bit order that CRCPOLY and CRCPOLYV select (R127, Table 02.9). -/
def crcSel (poly polyv : Word) : Nat × Nat × Bool :=
  match bits poly.toNat 0 3 with
  | 0 => (32, 0x1EDC6F41, true)
  | 1 => (32, 0x04C11DB7, true)
  | 2 => (16, 0x1021, false)
  | 3 => (8, 0x1D, false)
  | _ => let w := bits poly.toNat 4 6 + 1
         (w, polyv.toNat % 2 ^ w, bit poly.toNat 3)

/-- R128: CRCS. -/
def crcStep (poly polyv : Word) (bytes : Nat) (st data : Quad) : Quad :=
  let (w, p, lsb) := crcSel poly polyv
  let bs := leBytes bytes data.toNat
  let c0 := st.toNat % 2 ^ w
  BitVec.ofNat 128
    (if lsb then bs.foldl (fun c b => crcByteLsb (bitRev w p) c b.toNat) c0
     else bs.foldl (fun c b => crcByteMsb w p c b.toNat) c0)

/-- What an RRR instruction of the integer groups writes to Dd, by opcode and FN, from the old Dd, s1 and s2 and
the width; none for an FN code not listed (R151, Table 03.1). -/
def rrrValue (op fn w : Nat) (a b : Quad) : Option Quad :=
  let s := fn == 0
  let two (f : Nat → Nat → Nat) : Option Quad := some (map2 w f a b)
  let sh (f : Nat → Nat → Nat → Nat) : Option Quad :=
    if fn = 0 then some (map2 w (f w) a b)
    else if fn = 1 then some (map1 w (fun x => f w x (elem w b 0)) a) else none
  match op with
  | 0x01 => if fn = 0 then two fun x y => (x + y) % 2 ^ w
            else if fn = 1 then two fun x y => (x + y) / 2 ^ w else none
  | 0x02 => if fn = 0 then two fun x y => ofInt w ((x : Int) - y)
            else if fn = 1 then two fun x y => b2n (x < y) else none
  | 0x03 => if fn ≤ 1 then two fun x y => satTo w s (asInt w s x + asInt w s y) else none
  | 0x04 => if fn ≤ 1 then two fun x y => satTo w s (asInt w s x - asInt w s y) else none
  | 0x05 => if fn = 0 then some (a &&& b) else none
  | 0x06 => if fn = 0 then some (a ||| b) else none
  | 0x07 => if fn = 0 then some (a ^^^ b) else none
  | 0x08 => if fn = 0 then some (a &&& ~~~b) else none
  | 0x09 => sh shlElem
  | 0x0A => sh shrElem
  | 0x0B => sh shraElem
  | 0x0C => sh rotElem
  | 0x0D => if fn ≤ 1 then two fun x y => if asInt w s x ≤ asInt w s y then x else y else none
  | 0x0E => if fn ≤ 1 then two fun x y => if asInt w s y ≤ asInt w s x then x else y else none
  | 0x0F => match fn with
    | 0 => some (map1 w (fun x => ofInt w (-(x : Int))) a)
    | 1 => some (map1 w (absElem w) a)
    | 2 => some (map1 w (fun x => satTo w true ((toInt w x).natAbs : Nat)) a)
    | 3 => some (~~~a)
    | 4 => some (map1 w (clzElem w) a)
    | 5 => some (map1 w (ctzElem w) a)
    | 6 => if w < 128 then some (dvinit false w a) else none
    | 7 => if w < 128 then some (dvinit true w a) else none
    | _ => none
  | 0x18 => if fn = 0 then two fun x y => x * y % 2 ^ w else none
  | 0x19 => if fn ≤ 2 then
              two fun x y => ofInt w (asInt w (fn != 1) x * asInt w (fn == 0) y / ((2 ^ w : Nat) : Int))
            else none
  | 0x1C => if fn ≤ 1 && w < 128 then some (divs (fn == 1) w a b) else none
  | 0x40 => if fn ≤ 5 then two fun x y => b2n (relHolds fn w x y) else none
  | 0x44 => if fn = 0 then some (shuf w a b) else none
  | 0x49 => if fn = 0 then some (map1 w (fun x => popcount w x % 2) a) else none
  | 0x4A => if fn = 0 then some (map1 w (bitRev w) a) else none
  | 0x4B => if fn = 0 then some (map1 w (popcount w) a) else none
  | _ => none

/-- The immediate of the RRI group: sign-extended to 128 bits, then cut to `w` (R157). -/
def immElem (w : Nat) (imm : BitVec 12) : Nat := (imm.signExtend 128).toNat % 2 ^ w

/-- What an RRI instruction of opcodes 0x10 to 0x17, 0x41, 0x45 and 0x46 writes to Dd, from the old Dd and s1; none
for an undefined code (R157, R158, R160). CMPI with elements of 8 bits compares with the low 8 bits of its 9-bit operand, which
cannot be sign-extended to 8 (DESIGN CHOICE, notes/assumptions/117.md). -/
def rriValue (op w : Nat) (imm : BitVec 12) (d a : Quad) : Option Quad :=
  let k := immElem w imm
  let n := bits imm.toNat 0 7
  match op with
  | 0x10 => some (map1 w (fun x => (x + k) % 2 ^ w) a)
  | 0x11 => some (map1 w (fun x => x &&& k) a)
  | 0x12 => some (map1 w (fun x => x ||| k) a)
  | 0x13 => some (map1 w (fun x => x ^^^ k) a)
  | 0x14 => some (map1 w (fun x => shlElem w x n) a)
  | 0x15 => some (map1 w (fun x => shrElem w x n) a)
  | 0x16 => some (map1 w (fun x => shraElem w x n) a)
  | 0x17 => some (ofElems w fun _ => k)
  | 0x41 =>
    let rel := bits imm.toNat 9 3
    if rel ≤ 5 then some (map1 w (fun x => b2n (relHolds rel w x (sext 9 w (bits imm.toNat 0 9)))) a) else none
  | 0x45 => if w < 128 then some (insField w n d a) else none
  | 0x46 => if w < 128 then some (extField w n (bit imm.toNat 7) a) else none
  | _ => none

end Sys2Proof.Machine
end

