-- ==== Sys2Proof/Machine/Fp.lean ====
section
/-! DEFINITION. Floating point of spec/03: IEEE 754-2019 binary16 to binary128 (R175 to R195). A finite value is
an exact number m·2^e; an operation is computed exactly and rounded once. -/
namespace Sys2Proof.Machine

/-- A format of Table 03.4: exponent bits and fraction bits. -/
structure FpFmt where
  eb : Nat
  fb : Nat
  deriving DecidableEq, Repr

/-- The format of element width `w`. -/
def fmtOf (w : Nat) : FpFmt :=
  match w with
  | 16 => ⟨5, 10⟩
  | 32 => ⟨8, 23⟩
  | 64 => ⟨11, 52⟩
  | _ => ⟨15, 112⟩

/-- Bias and emax of Table 03.4. -/
def FpFmt.bias (f : FpFmt) : Nat := 2 ^ (f.eb - 1) - 1
/-- The exponent of the last fraction bit of a subnormal. -/
def FpFmt.qmin (f : FpFmt) : Int := 1 - (f.bias : Int) - f.fb
/-- +∞. -/
def FpFmt.inf (f : FpFmt) : Nat := (2 ^ f.eb - 1) * 2 ^ f.fb
/-- The canonical NaN (R177). -/
def FpFmt.nan (f : FpFmt) : Nat := f.inf + 2 ^ (f.fb - 1)
/-- The sign bit. -/
def FpFmt.signBit (f : FpFmt) : Nat := 2 ^ (f.eb + f.fb)

/-- A floating-point datum: a NaN, an infinity, or ±m·2^e (a zero has m = 0). -/
inductive Fp where
  | nan (signalling : Bool)
  | inf (neg : Bool)
  | fin (neg : Bool) (m : Nat) (e : Int)
  deriving DecidableEq, Repr

/-- The datum that an encoding stands for. -/
def Fp.decode (f : FpFmt) (n : Nat) : Fp :=
  let neg := bit n (f.eb + f.fb)
  let ex := bits n f.fb f.eb
  let fr := bits n 0 f.fb
  if ex = 2 ^ f.eb - 1 then (if fr = 0 then .inf neg else .nan (fr < 2 ^ (f.fb - 1)))
  else if ex = 0 then .fin neg fr f.qmin
  else .fin neg (fr + 2 ^ f.fb) (f.qmin + ex - 1)

/-- Exception flags, one bit each in the order of FPSR (Table 03.7). -/
def flagNV : Nat := 1
def flagDZ : Nat := 2
def flagOF : Nat := 4
def flagUF : Nat := 8
def flagNX : Nat := 16

/-- Rounding of m / 2^s to an integer under a mode of R180 (1 RNE, 2 RTZ, 3 RDN, 4 RUP, 5 RNA). -/
def roundShift (rm : Nat) (neg : Bool) (m s : Nat) : Nat × Bool :=
  let q := m / 2 ^ s
  let r := m % 2 ^ s
  let h := 2 ^ s / 2
  let up :=
    match rm with
    | 1 => decide (h < r) || (r == h && q % 2 == 1)
    | 2 => false
    | 3 => neg
    | 4 => !neg
    | _ => decide (h ≤ r)
  if r = 0 then (q, false) else (if up then q + 1 else q, true)

/-- Rounding of m·2^e to a multiple of 2^q. -/
def roundTo (rm : Nat) (neg : Bool) (m : Nat) (e q : Int) : Nat × Bool :=
  if q ≤ e then (m * 2 ^ (e - q).toNat, false) else roundShift rm neg m (q - e).toNat

/-- The number of bits of `m`. -/
def bitLen (m : Nat) : Nat := if m = 0 then 0 else m.log2 + 1

/-- The encoding and the flags of the exact value ±m·2^e, m not zero (R176, R182): overflow sets NX too, tininess is
detected after rounding, and an exact tiny result raises UF only when UF traps (`ufe`). -/
def roundPack (f : FpFmt) (rm : Nat) (ufe neg : Bool) (m : Nat) (e : Int) : Nat × Nat :=
  let sg := if neg then f.signBit else 0
  let qn : Int := e + bitLen m - (f.fb + 1)
  let free := (roundTo rm neg m e qn).1
  let tiny := decide (qn + bitLen free - 1 < f.qmin + f.fb)
  let q := if qn < f.qmin then f.qmin else qn
  let (r, nx) := roundTo rm neg m e q
  let enc := if r < 2 ^ f.fb then r else (q - f.qmin + 1).toNat * 2 ^ f.fb + (r - 2 ^ f.fb)
  if f.inf ≤ enc then
    let toInf := match rm with
      | 2 => false
      | 3 => neg
      | 4 => !neg
      | _ => true
    (sg + (if toInf then f.inf else f.inf - 1), flagOF + flagNX)
  else (sg + enc, (if nx then flagNX else 0) + (if tiny && (nx || ufe) then flagUF else 0))

/-- ±0. -/
def zeroEnc (f : FpFmt) (neg : Bool) : Nat := if neg then f.signBit else 0
/-- ±∞. -/
def infEnc (f : FpFmt) (neg : Bool) : Nat := zeroEnc f neg + f.inf

/-- NV for a signalling NaN among the operands (R178). -/
def snanFlag (l : List Fp) : Nat := if l.any (fun x => x == .nan true) then flagNV else 0

/-- Is a datum a NaN. -/
def Fp.isNan : Fp → Bool
  | .nan _ => true
  | _ => false

/-- The datum with its sign inverted. -/
def Fp.neg : Fp → Fp
  | .nan s => .nan s
  | .inf n => .inf (!n)
  | .fin n m e => .fin (!n) m e

/-- The exact sum of two finite data, signs included, at the lower exponent. -/
def exactSum (n1 : Bool) (m1 : Nat) (e1 : Int) (n2 : Bool) (m2 : Nat) (e2 : Int) : Int × Int :=
  let e := if e1 ≤ e2 then e1 else e2
  let a : Int := (m1 * 2 ^ (e1 - e).toNat : Nat)
  let b : Int := (m2 * 2 ^ (e2 - e).toNat : Nat)
  ((if n1 then -a else a) + (if n2 then -b else b), e)

/-- Addition (R179, R184, R193). -/
def fpAdd (f : FpFmt) (rm : Nat) (ufe : Bool) (x y : Fp) : Nat × Nat :=
  match x, y with
  | .nan _, _ => (f.nan, snanFlag [x, y])
  | _, .nan _ => (f.nan, snanFlag [x, y])
  | .inf a, .inf b => if a = b then (infEnc f a, 0) else (f.nan, flagNV)
  | .inf a, .fin _ _ _ => (infEnc f a, 0)
  | .fin _ _ _, .inf b => (infEnc f b, 0)
  | .fin a m e, .fin b n g =>
    let (s, q) := exactSum a m e b n g
    if s = 0 then (zeroEnc f (if m = 0 && n = 0 && a == b then a else rm == 3), 0)
    else roundPack f rm ufe (s < 0) s.natAbs q

/-- Multiplication. -/
def fpMul (f : FpFmt) (rm : Nat) (ufe : Bool) (x y : Fp) : Nat × Nat :=
  match x, y with
  | .nan _, _ => (f.nan, snanFlag [x, y])
  | _, .nan _ => (f.nan, snanFlag [x, y])
  | .inf a, .inf b => (infEnc f (a != b), 0)
  | .inf a, .fin b n _ => if n = 0 then (f.nan, flagNV) else (infEnc f (a != b), 0)
  | .fin a m _, .inf b => if m = 0 then (f.nan, flagNV) else (infEnc f (a != b), 0)
  | .fin a m e, .fin b n g =>
    if m * n = 0 then (zeroEnc f (a != b), 0) else roundPack f rm ufe (a != b) (m * n) (e + g)

/-- Division. The quotient carries more bits than any format, its low bit telling that a remainder is left. -/
def fpDiv (f : FpFmt) (rm : Nat) (ufe : Bool) (x y : Fp) : Nat × Nat :=
  match x, y with
  | .nan _, _ => (f.nan, snanFlag [x, y])
  | _, .nan _ => (f.nan, snanFlag [x, y])
  | .inf _, .inf _ => (f.nan, flagNV)
  | .inf a, .fin b _ _ => (infEnc f (a != b), 0)
  | .fin a _ _, .inf b => (zeroEnc f (a != b), 0)
  | .fin a m e, .fin b n g =>
    if n = 0 then (if m = 0 then (f.nan, flagNV) else (infEnc f (a != b), flagDZ))
    else if m = 0 then (zeroEnc f (a != b), 0)
    else
      let k := 2 * f.fb + 8
      let q := m * 2 ^ k / n
      let s := if m * 2 ^ k % n = 0 then 0 else 1
      roundPack f rm ufe (a != b) (2 * q + s) (e - g - k - 1)

/-- The integer square root of a number of at most `2 * k` bits. -/
def isqrt (k n : Nat) : Nat :=
  (List.range k).reverse.foldl (fun r i => if (r + 2 ^ i) * (r + 2 ^ i) ≤ n then r + 2 ^ i else r) 0

/-- Square root (R193, R195). -/
def fpSqrt (f : FpFmt) (rm : Nat) (ufe : Bool) (x : Fp) : Nat × Nat :=
  match x with
  | .nan _ => (f.nan, snanFlag [x])
  | .inf a => if a then (f.nan, flagNV) else (f.inf, 0)
  | .fin a m e =>
    if m = 0 then (zeroEnc f a, 0)
    else if a then (f.nan, flagNV)
    else
      let odd := e % 2 != 0
      let m1 := if odd then 2 * m else m
      let e1 := if odd then e - 1 else e
      let k := f.fb + 4
      let big := m1 * 4 ^ k
      let r := isqrt (2 * f.fb + 8) big
      let s := if r * r = big then 0 else 1
      roundPack f rm ufe false (2 * r + s) (e1 / 2 - k - 1)

/-- Fused multiply-add x·y + z, rounded once (R179, R185). -/
def fpFma (f : FpFmt) (rm : Nat) (ufe : Bool) (x y z : Fp) : Nat × Nat :=
  let zeroInf := match x, y with
    | .inf _, .fin _ m _ => m == 0
    | .fin _ m _, .inf _ => m == 0
    | _, _ => false
  if zeroInf then (f.nan, flagNV)
  else match x, y, z with
    | .nan _, _, _ => (f.nan, snanFlag [x, y, z])
    | _, .nan _, _ => (f.nan, snanFlag [x, y, z])
    | _, _, .nan _ => (f.nan, snanFlag [x, y, z])
    | .fin a m e, .fin b n g, .fin c k h =>
      let (s, q) := exactSum (a != b) (m * n) (e + g) c k h
      if s = 0 then (zeroEnc f (if m * n = 0 && k = 0 && (a != b) == c then c else rm == 3), 0)
      else roundPack f rm ufe (s < 0) s.natAbs q
    | .fin _ _ _, .fin _ _ _, .inf c => (infEnc f c, 0)
    | _, _, .inf c =>
      let p := match x, y with
        | .inf a, .inf b => a != b
        | .inf a, .fin b _ _ => a != b
        | .fin a _ _, .inf b => a != b
        | _, _ => c
      if p = c then (infEnc f c, 0) else (f.nan, flagNV)
    | .inf a, .inf b, _ => (infEnc f (a != b), 0)
    | .inf a, .fin b _ _, _ => (infEnc f (a != b), 0)
    | .fin a _ _, .inf b, _ => (infEnc f (a != b), 0)

/-- Order of two data that are not NaN, −0 below +0 when `zeros`: is the first strictly below the second. -/
def fpLt (zeros : Bool) (x y : Fp) : Bool :=
  match x, y with
  | .inf a, .inf b => a && !b
  | .inf a, .fin _ _ _ => a
  | .fin _ _ _, .inf b => !b
  | .fin a m e, .fin b n g =>
    if m = 0 && n = 0 then zeros && a && !b else decide ((exactSum a m e (!b) n g).1 < 0)
  | _, _ => false

/-- FMIN and FMAX (R186); the operands' own encodings are delivered. -/
def fpMinMax (f : FpFmt) (max num : Bool) (a b : Nat) : Nat × Nat :=
  let x := Fp.decode f a
  let y := Fp.decode f b
  let fl := snanFlag [x, y]
  if x.isNan && y.isNan then (f.nan, fl)
  else if x.isNan then (if num then b else f.nan, fl)
  else if y.isNan then (if num then a else f.nan, fl)
  else (if (if max then fpLt true x y else fpLt true y x) then b else a, fl)

/-- FCMP (R187): EQ, NE, LT, LE, UN, LTQ, LEQ. -/
def fpCmp (f : FpFmt) (rel a b : Nat) : Nat × Nat :=
  let x := Fp.decode f a
  let y := Fp.decode f b
  let un := x.isNan || y.isNan
  let nv := if (rel = 2 || rel = 3) && un then flagNV else snanFlag [x, y]
  let lt := fpLt false x y
  let gt := fpLt false y x
  let r := match rel with
    | 0 => !un && !lt && !gt
    | 1 => un || lt || gt
    | 2 => !un && lt
    | 3 => !un && !gt
    | 4 => un
    | 5 => !un && lt
    | _ => !un && !gt
  (b2n r, nv)

/-- FCLASS (R188). -/
def fpClass (f : FpFmt) (a : Nat) : Nat :=
  match Fp.decode f a with
  | .nan true => 2 ^ 8
  | .nan false => 2 ^ 9
  | .inf neg => if neg then 1 else 2 ^ 7
  | .fin neg m _ =>
    if m = 0 then (if neg then 2 ^ 3 else 2 ^ 4)
    else if m < 2 ^ f.fb then (if neg then 2 ^ 2 else 2 ^ 5)
    else if neg then 2 else 2 ^ 6

/-- FSGN (R184, R177). -/
def fpSgn (f : FpFmt) (fn a b : Nat) : Nat :=
  let sa := bit a (f.eb + f.fb)
  let sb := bit b (f.eb + f.fb)
  if (Fp.decode f a).isNan then f.nan
  else
    let s := match fn with
      | 0 => sb
      | 1 => !sb
      | _ => sa != sb
    a % f.signBit + (if s then f.signBit else 0)

/-- A datum into another format (R189 kind 0), and an integer into a format (kinds 1 and 2). -/
def fpToFp (f : FpFmt) (rm : Nat) (ufe : Bool) (x : Fp) : Nat × Nat :=
  match x with
  | .nan _ => (f.nan, snanFlag [x])
  | .inf a => (infEnc f a, 0)
  | .fin a m e => if m = 0 then (zeroEnc f a, 0) else roundPack f rm ufe a m e

/-- A finite datum rounded to an integer: magnitude and inexact. -/
def fpRoundInt (rm : Nat) (neg : Bool) (m : Nat) (e : Int) : Nat × Bool := roundTo rm neg m e 0

/-- R190: conversion to an integer of width `w`. -/
def fpToInt (w : Nat) (signed : Bool) (rm : Nat) (x : Fp) : Nat × Nat :=
  let lo : Int := if signed then -(2 ^ (w - 1) : Nat) else 0
  let hi : Int := if signed then (2 ^ (w - 1) : Nat) - 1 else (2 ^ w : Nat) - 1
  match x with
  | .nan _ => (0, flagNV)
  | .inf neg => (ofInt w (if neg then lo else hi), flagNV)
  | .fin neg m e =>
    let (r, nx) := fpRoundInt rm neg m e
    let v : Int := if neg then -(r : Int) else r
    if v < lo then (ofInt w lo, flagNV)
    else if hi < v then (ofInt w hi, flagNV)
    else (ofInt w v, if nx then flagNX else 0)

/-- R189 kinds 5 and 6: rounding to an integral value; a zero result keeps the operand's sign. -/
def fpRint (f : FpFmt) (rm : Nat) (withNx : Bool) (x : Fp) : Nat × Nat :=
  match x with
  | .nan _ => (f.nan, snanFlag [x])
  | .inf a => (infEnc f a, 0)
  | .fin a m e =>
    let (r, nx) := fpRoundInt rm a m e
    let fl := if nx && withNx then flagNX else 0
    if r = 0 then (zeroEnc f a, fl) else ((roundPack f rm false a r 0).1, fl)

/-- The results of a floating-point instruction: per element the value and the flags raised. -/
structure FpOut where
  vals : List Nat
  flags : List Nat
  deriving DecidableEq, Repr

/-- Runs an element operation over `n` elements. -/
def fpRun (n : Nat) (g : Nat → Nat × Nat) : FpOut :=
  let l := (List.range n).map g
  ⟨l.map (·.1), l.map (·.2)⟩

/-- Table 03.8: the floating-point instruction of opcode 0x30 to 0x3B except FCVT, from the old Dd, s1 and s2; the
rounding mode is already resolved. -/
def fpElems (op fn rm w : Nat) (ufe : Bool) (d a b : Quad) : FpOut :=
  let f := fmtOf w
  let x (i : Nat) : Fp := Fp.decode f (elem w a i)
  let y (i : Nat) : Fp := Fp.decode f (elem w b i)
  let z (i : Nat) : Fp := Fp.decode f (elem w d i)
  let n := 128 / w
  match op with
  | 0x30 => fpRun n fun i => fpAdd f rm ufe (x i) (y i)
  | 0x31 => fpRun n fun i => fpAdd f rm ufe (x i) (y i).neg
  | 0x32 => fpRun n fun i => fpMul f rm ufe (x i) (y i)
  | 0x33 => fpRun n fun i => fpDiv f rm ufe (x i) (y i)
  | 0x34 => fpRun n fun i => fpSqrt f rm ufe (x i)
  | 0x35 => fpRun n fun i =>
      match bits fn 3 2 with
      | 0 => fpFma f rm ufe (x i) (y i) (z i)
      | 1 => fpFma f rm ufe (x i).neg (y i) (z i)
      | 2 => fpFma f rm ufe (x i) (y i) (z i).neg
      | _ => fpFma f rm ufe (x i).neg (y i) (z i).neg
  | 0x36 => fpRun n fun i => fpMinMax f false (fn == 1) (elem w a i) (elem w b i)
  | 0x37 => fpRun n fun i => fpMinMax f true (fn == 1) (elem w a i) (elem w b i)
  | 0x39 => fpRun n fun i => fpCmp f fn (elem w a i) (elem w b i)
  | 0x3A => fpRun n fun i => (fpClass f (elem w a i), 0)
  | _ => fpRun n fun i => (fpSgn f fn (elem w a i) (elem w b i), 0)

/-- R189: FCVT from source width `sw` to destination width `w`; destination elements above those converted are 0. -/
def fpCvt (kind rm w sw : Nat) (ufe : Bool) (a : Quad) : FpOut :=
  let n := min (128 / w) (128 / sw)
  let df := fmtOf w
  let src (i : Nat) : Fp := Fp.decode (fmtOf sw) (elem sw a i)
  let ofi (v : Int) : Nat × Nat := fpToFp df rm ufe (.fin (v < 0) v.natAbs 0)
  fpRun n fun i =>
    match kind with
    | 0 => fpToFp df rm ufe (src i)
    | 1 => ofi (toInt sw (elem sw a i))
    | 2 => ofi (elem sw a i : Nat)
    | 3 => fpToInt w true rm (src i)
    | 4 => fpToInt w false rm (src i)
    | 5 => fpRint df rm false (src i)
    | _ => fpRint df rm true (src i)

/-- The register that the results of a floating-point instruction form. -/
def FpOut.quad (o : FpOut) (w : Nat) : Quad := BitVec.ofNat 128 (pack (o.vals.map fun v => (w, v)))

/-- Every flag raised in any element. -/
def FpOut.all (o : FpOut) : Nat := o.flags.foldl (· ||| ·) 0

/-- The lowest element that raised an enabled exception, `en` the enables of FPCR [8:4]. -/
def FpOut.trapElem (o : FpOut) (en : Nat) : Option Nat := o.flags.findIdx? fun f => f &&& en != 0

end Sys2Proof.Machine
end

