-- ==== Sys2Proof/Machine/Operands.lean ====
section
/-! DEFINITION. Operand forms of SCE128 (spec/02): data and address registers, special registers and accumulator parts,
effective addresses. -/
namespace Sys2Proof.Machine

/-- A data register. -/
def Regs.getD (r : Regs) (i : Nat) : Quad := SMap.get r.d i
/-- R82: a write of a data register writes all of it. -/
def Regs.setD (r : Regs) (i : Nat) (v : Quad) : Regs := { r with d := SMap.set r.d i v }

/-- An address register; A15 is the copy of the mode (R83). -/
def Regs.getA (r : Regs) (i : Nat) : Word :=
  if i = 15 then (if r.mode = .user then r.a15u else r.a15s) else SMap.get r.a i
def Regs.setA (r : Regs) (i : Nat) (v : Word) : Regs :=
  if i = 15 then (if r.mode = .user then { r with a15u := v } else { r with a15s := v })
  else { r with a := SMap.set r.a i v }

/-- The bits of a loop start or exit address that are held, [47:2] (Table 02.8). -/
def loopAddr (n : Nat) : Addr := BitVec.ofNat 48 (n / 4 * 4)

/-- R87: a special register by its number, zero-extended. -/
def Regs.getSpecial (r : Regs) (n : Nat) : Nat :=
  if n < 4 then (SMap.get r.bk n).toNat
  else if n < 8 then (SMap.get r.ls (n - 4)).toNat
  else if n < 12 then (SMap.get r.le (n - 8)).toNat
  else if n < 16 then (SMap.get r.lc (n - 12)).toNat
  else r.repcnt.toNat

/-- R87: a special register takes the low bits of a value. -/
def Regs.setSpecial (r : Regs) (n v : Nat) : Regs :=
  if n < 4 then { r with bk := SMap.set r.bk n (BitVec.ofNat 16 v) }
  else if n < 8 then { r with ls := SMap.set r.ls (n - 4) (loopAddr v) }
  else if n < 12 then { r with le := SMap.set r.le (n - 8) (loopAddr v) }
  else if n < 16 then { r with lc := SMap.set r.lc (n - 12) (BitVec.ofNat 32 v) }
  else { r with repcnt := BitVec.ofNat 16 v }

/-- R87: an accumulator part: 0 bits [127:0], 1 bits [255:128], 2 the guard bits. -/
def Regs.getAccPart (r : Regs) (acc part : Nat) : Quad :=
  BitVec.ofNat 128 (bits (SMap.get r.acc acc).toNat (128 * part) (if part = 2 then 16 else 128))
def Regs.setAccPart (r : Regs) (acc part : Nat) (v : Quad) : Regs :=
  { r with acc := SMap.upd r.acc acc fun a =>
      BitVec.ofNat 272 (setBits a.toNat (128 * part) (if part = 2 then 16 else 128) v.toNat) }

/-- An effective address: the address with the base update that follows it, or ADDRESS with EA[47:0] (R93, R94). -/
inductive Ea where
  | ok (addr : Nat) (upd : Option (Nat × Word))
  | bad (addr : Nat)
  deriving DecidableEq, Repr

/-- R94: an address with any of bits [63:48] set raises ADDRESS. -/
def mkEa (ea : Word) (upd : Option (Nat × Word)) : Ea :=
  if ea.toNat < 2 ^ 48 then .ok ea.toNat upd else .bad (ea.toNat % 2 ^ 48)

/-- R93, R95: the effective address of the MEM format. -/
def eaMem (r : Regs) (f : Sys2Proof.Mem) : Ea :=
  let an := r.getA f.base.toNat
  let d : Word := f.disp.signExtend 64
  match f.m.toNat with
  | 0 => mkEa (an + d) none
  | 1 => mkEa an (some (f.base.toNat, an + d))
  | 2 => mkEa (an + d) (some (f.base.toNat, an + d))
  | _ =>
    let d12 : Word := (f.disp.setWidth 12).signExtend 64
    let lo := (an + d12).toNat % 2 ^ 32
    .ok ((SMap.get r.bk (bits f.disp.toNat 12 2)).toNat * 2 ^ 32 + lo) none

/-- R93: the effective address of the indexed long form. -/
def eaIndexed (r : Regs) (f : Long) : Ea :=
  let x := f.x.toNat
  mkEa (r.getA (bits x 7 4) + r.getA (bits x 3 4) * BitVec.ofNat 64 (2 ^ bits x 0 3) + f.imm.signExtend 64) none

/-- R93: the effective address of the PC-relative long form. -/
def eaPc (r : Regs) (f : Long) : Ea := mkEa (r.pc.setWidth 64 + f.imm.signExtend 64) none

/-- Bytes of an access by opcode 0x20 to 0x2E. -/
def memSize (op : Nat) : Nat :=
  match op with
  | 0x20 => 1
  | 0x21 => 1
  | 0x22 => 2
  | 0x23 => 2
  | 0x24 => 4
  | 0x25 => 4
  | 0x26 => 8
  | 0x27 => 16
  | 0x28 => 1
  | 0x29 => 2
  | 0x2A => 4
  | 0x2B => 8
  | 0x2C => 16
  | _ => 8

/-- R82: what a load of opcode 0x20 to 0x27 makes of the bytes read. -/
def extendLoad (op n : Nat) : Quad :=
  match op with
  | 0x20 => BitVec.ofNat 128 (sext 8 128 n)
  | 0x22 => BitVec.ofNat 128 (sext 16 128 n)
  | 0x24 => BitVec.ofNat 128 (sext 32 128 n)
  | 0x26 => BitVec.ofNat 128 (sext 64 128 n)
  | _ => BitVec.ofNat 128 n

/-- The pc moved by a signed count of words. -/
def relWords (pc : Addr) (words : Word) : Addr := pc + (words * 4).setWidth 48

end Sys2Proof.Machine
end

