-- ==== Sys2Proof/Machine/Flags.lean ====
section
/-! DEFINITION. Status words of a context: STATUS and ECAUSE (spec/02 Tables 02.5, 02.6), the sticky flags of the
floating-point status (spec/03 R181, R191), the feature registers (Tables 02.13 to 02.21). SCE128 has no other flags. -/
namespace Sys2Proof.Machine

/-- STATUS.MODE coded. -/
def modeCode : Mode → Nat
  | .user => 0
  | .supervisor => 1
  | .str => 2

/-- STATUS (Table 02.5). -/
def statusWord (r : Regs) : Word :=
  BitVec.ofNat 64 (pack
    [(2, modeCode r.mode), (1, b2n r.ie), (1, 0), (4, r.ipl), (3, r.ldepth), (1, b2n r.repact), (1, b2n r.det)])

/-- The mode that a STATUS value sets; none for the reserved code. -/
def modeOf (v : Nat) : Option Mode :=
  match bits v 0 2 with
  | 0 => some .user
  | 1 => some .supervisor
  | 2 => some .str
  | _ => none

/-- STATUS takes a value with a legal MODE and LDEPTH; DET is read-only. -/
def setStatus (r : Regs) (md : Mode) (v : Nat) : Regs :=
  { r with mode := md, ie := bit v 2, ipl := bits v 4 4, ldepth := bits v 8 3, repact := bit v 11 }

/-- ECAUSE (Table 02.6). -/
def ecauseWord (vec : Nat) (shadow inrep : Bool) (detail : Nat) : Word :=
  BitVec.ofNat 64 (pack [(10, vec), (1, b2n shadow), (1, b2n inrep), (4, 0), (8, detail)])

/-- R181: flags of a completed floating-point instruction join FPSR. -/
def joinFlags (r : Regs) (fl : Nat) : Regs := { r with fpsr := r.fpsr ||| BitVec.ofNat 64 fl }

/-- Trap enables of FPCR, in the order of the flags (Table 03.6). -/
def fpEnables (r : Regs) : Nat := bits r.fpcr.toNat 4 5

/-- FPTI (Table 03.7). -/
def fptiWord (elem op w : Nat) : Word := BitVec.ofNat 64 (pack [(4, elem), (4, 0), (7, op), (1, 0), (3, w)])

/-- FEAT0 to FEAT7 (Table 02.13), by part and core type. -/
def featWord (p : Part) (sup : Bool) (i : Nat) : Nat :=
  match i with
  | 0 => pack [(8, 0x09), (8, p.stepLetter), (4, p.stepDigit), (4, 0), (4, if p.dramB then 2 else 1), (4, 1), (8, 0),
               (8, 1), (4, if sup then 2 else 1)]
  | 1 => 0x1020280310070A04
  | 2 => if sup then 0x14870 else 0x0040401C0C0149FF
  | 3 => if p.dramB then 0x0001800708080040 else 0x0001800E10080040
  | 4 => 0x2084000066012004
  | 5 => 0x00012442280E0810
  | 6 => 0x0001003002182860
  | _ => if p.factory then 0x0C01643D else 0x0C02643D

end Sys2Proof.Machine
end

