-- ==== Sys2Proof/Machine/Sha.lean ====
section
/-! DEFINITION. The hash engines of SEC (spec/10 Table 10.2): SHA-384 and HMAC-SHA-384 (FIPS 180-4, FIPS 198-1), SHA3-384 with
the sponge of FIPS 202, HKDF and PBKDF2 over HMAC-SHA-384 (R516, R378). The standards' contents are PRESUMED
(notes/assumptions/6.md). -/
namespace Sys2Proof.Machine

/-- A number as `len` bytes, highest first. -/
def beBytes (len n : Nat) : List Byte := (leBytes len n).reverse
/-- The number whose bytes are the list, highest first. -/
def ofBe (l : List Byte) : Nat := ofLe l.reverse

/-- A byte string from text. -/
def ascii (s : String) : List Byte := s.toList.map fun c => BitVec.ofNat 8 c.toNat

/-- A list cut into pieces of `n`; the fuel is its length. -/
def piecesOf {α : Type} (n : Nat) : Nat → List α → List (List α)
  | 0, _ => []
  | _, [] => []
  | f + 1, l => l.take n :: piecesOf n f (l.drop n)
def pieces {α : Type} (n : Nat) (l : List α) : List (List α) := piecesOf n l.length l

/-! ### SHA-384 -/

/-- The largest `x` with `x ^ e ≤ n`, decided from bit `b - 1` down. -/
def rootOf (e n : Nat) : Nat → Nat → Nat
  | 0, x => x
  | b + 1, x => rootOf e n b (if (x + 2 ^ b) ^ e ≤ n then x + 2 ^ b else x)

/-- The primes below 410: the first 80. -/
def primes80 : List Nat :=
  (List.range 410).filter fun p => decide (2 ≤ p) && (List.range 21).all fun d => d < 2 || d == p || p % d != 0

/-- The round constants: 64 bits of the fractions of the cube roots of the first 80 primes. -/
def shaK : List Word := primes80.map fun p => BitVec.ofNat 64 (rootOf 3 (p * 2 ^ 192) 68 0)

/-- The initial value of SHA-384: 64 bits of the fractions of the square roots of the ninth to sixteenth primes. -/
def shaInit : List Word := ((primes80.drop 8).take 8).map fun p => BitVec.ofNat 64 (rootOf 2 (p * 2 ^ 128) 70 0)

/-- The message schedule, newest word first, from the 16 words of a block. -/
def shaSchedule : Nat → List Word → List Word
  | 0, w => w
  | n + 1, w =>
    let a := w.getD 1 0
    let b := w.getD 14 0
    let s1 := a.rotateRight 19 ^^^ a.rotateRight 61 ^^^ (a >>> 6)
    let s0 := b.rotateRight 1 ^^^ b.rotateRight 8 ^^^ (b >>> 7)
    shaSchedule n ((s1 + w.getD 6 0 + s0 + w.getD 15 0) :: w)

/-- One round on the eight working variables, with the sum of the round's constant and word. -/
def shaRound (v : List Word) (kw : Word) : List Word :=
  match v with
  | [a, b, c, d, e, f, g, h] =>
    let t1 := h + (e.rotateRight 14 ^^^ e.rotateRight 18 ^^^ e.rotateRight 41) + ((e &&& f) ^^^ (~~~e &&& g)) + kw
    let t2 := (a.rotateRight 28 ^^^ a.rotateRight 34 ^^^ a.rotateRight 39) + ((a &&& b) ^^^ (a &&& c) ^^^ (b &&& c))
    [t1 + t2, a, b, c, d + t1, e, f, g]
  | _ => v

/-- One block of 128 bytes. -/
def shaBlock (h : List Word) (block : List Byte) : List Word :=
  let w := ((pieces 8 block).map fun p => BitVec.ofNat 64 (ofBe p)).reverse
  let rounds := List.zipWith (· + ·) shaK (shaSchedule 64 w).reverse
  List.zipWith (· + ·) h (rounds.foldl shaRound h)

/-- SHA-384 of a message. -/
def sha384Of (msg : List Byte) : List Byte :=
  let padded := msg ++ 0x80 :: List.replicate ((239 - msg.length % 128) % 128) 0 ++ beBytes 16 (8 * msg.length)
  (((pieces 128 padded).foldl shaBlock shaInit).flatMap fun w => beBytes 8 w.toNat).take 48

/-- HMAC-SHA-384. -/
def hmacOf (key msg : List Byte) : List Byte :=
  let k := fit 128 (if 128 < key.length then sha384Of key else key)
  sha384Of (k.map (· ^^^ 0x5C) ++ sha384Of (k.map (· ^^^ 0x36) ++ msg))

/-- HKDF with no salt: `len` bytes, at most 48, for a label. -/
def hkdf (root : List Byte) (label : String) (len : Nat) : List Byte :=
  (hmacOf (hmacOf (List.replicate 48 0) root) (ascii label ++ [1])).take len

/-- The running value of PBKDF2 and the sum of its iterations. -/
def pbkdfRun (pass : List Byte) : Nat → List Byte → List Byte → List Byte
  | 0, _, sum => sum
  | n + 1, u, sum => let u := hmacOf pass u; pbkdfRun pass n u (List.zipWith (· ^^^ ·) sum u)

/-- PBKDF2 with HMAC-SHA-384: 48 bytes after `n` iterations, at least 1 (R378). -/
def pbkdf2 (pass salt : List Byte) (n : Nat) : List Byte :=
  let u := hmacOf pass (salt ++ [0, 0, 0, 1])
  pbkdfRun pass (n - 1) u u

/-! ### The sponge of SHA-3 -/

/-- The step of the linear feedback shift register that gives the round constants. -/
def keccakLfsr (r : Nat) : Nat := if r < 128 then 2 * r else (2 * r) ^^^ 0x171

/-- Bit `t` of the register's output. -/
def keccakRc (t : Nat) : Nat := (Nat.repeat keccakLfsr t 1) % 2

/-- The constant of a round. -/
def keccakConst (i : Nat) : Word :=
  BitVec.ofNat 64 ((List.range 7).foldl (fun n j => n + keccakRc (j + 7 * i) * 2 ^ (2 ^ j - 1)) 0)

/-- The 24 round constants. -/
def keccakConsts : List Word := (List.range 24).map keccakConst

/-- The rotation of each lane, lane x + 5y, and the lane that step π puts it into, in the order of the walk of step ρ. -/
def keccakWalk : Nat → Nat → Nat → Nat → List (Nat × Nat)
  | 0, _, _, _ => []
  | n + 1, t, x, y => (x + 5 * y, (t + 1) * (t + 2) / 2 % 64) :: keccakWalk n (t + 1) y ((2 * x + 3 * y) % 5)

def keccakRot : List Nat :=
  let w := keccakWalk 24 0 1 0
  (List.range 25).map fun i => ((w.find? fun e => e.1 == i).map (·.2)).getD 0

/-- One round of Keccak-f[1600] on 25 lanes. -/
def keccakRound (a : List Word) (rc : Word) : List Word :=
  let at_ (l : List Word) (x y : Nat) : Word := l.getD (x % 5 + 5 * y) 0
  let c := (List.range 5).map fun x => (List.range 5).foldl (fun s y => s ^^^ at_ a x y) 0
  let d := (List.range 5).map fun x => c.getD ((x + 4) % 5) 0 ^^^ (c.getD ((x + 1) % 5) 0).rotateLeft 1
  let r := (List.zipWith (fun (e : Word × Nat) (k : Nat) => (e.1 ^^^ d.getD (e.2 % 5) 0).rotateLeft k) a.zipIdx keccakRot)
  -- step π: lane (x, y) takes lane (x + 3y, x)
  let b := (List.range 25).map fun i => at_ r (i % 5 + 3 * (i / 5)) (i % 5)
  let o := (List.range 25).map fun i =>
    at_ b (i % 5) (i / 5) ^^^ (~~~ (at_ b (i % 5 + 1) (i / 5)) &&& at_ b (i % 5 + 2) (i / 5))
  match o with
  | x :: l => (x ^^^ rc) :: l
  | [] => []

def keccakF (a : List Word) : List Word := keccakConsts.foldl keccakRound a

/-- The first `n` lanes as bytes. -/
def keccakOut (a : List Word) (n : Nat) : List Byte := (a.flatMap fun w => leBytes 8 w.toNat).take n

/-- Output blocks of `rate` bytes. -/
def squeeze (rate : Nat) : Nat → List Word → List Byte
  | 0, _ => []
  | n + 1, a => keccakOut a rate ++ squeeze rate n (keccakF a)

/-- The sponge with a rate in bytes and a domain byte: `n` bytes of output. -/
def sponge (rate : Nat) (dom : Byte) (msg : List Byte) (n : Nat) : List Byte :=
  let pad := rate - msg.length % rate
  let tail : List Byte := if pad = 1 then [dom ^^^ 0x80] else dom :: (List.replicate (pad - 2) 0 ++ [0x80])
  let absorb (a : List Word) (p : List Byte) : List Word :=
    let w := (pieces 8 p).map fun b => BitVec.ofNat 64 (ofLe b)
    keccakF (a.zipIdx.map fun e => e.1 ^^^ w.getD e.2 0)
  (squeeze rate ((n + rate - 1) / rate) ((pieces rate (msg ++ tail)).foldl absorb (List.replicate 25 0))).take n

/-- SHA3-384 of a message; and the other members of the family that FIPS 203 and FIPS 204 use. -/
def sha3Of (msg : List Byte) : List Byte := sponge 104 0x06 msg 48
def sha3_256 (msg : List Byte) : List Byte := sponge 136 0x06 msg 32
def sha3_512 (msg : List Byte) : List Byte := sponge 72 0x06 msg 64
def shake128 (msg : List Byte) (n : Nat) : List Byte := sponge 168 0x1F msg n
def shake256 (msg : List Byte) (n : Nat) : List Byte := sponge 136 0x1F msg n

end Sys2Proof.Machine
end

