-- ==== Sys2Proof/Machine/Aes.lean ====
section
/-! DEFINITION. The AES-256 engine of SEC (spec/10 Table 10.2): the block cipher (FIPS 197) and the modes ECB, CBC, CTR
(SP 800-38A), CMAC (38B) and GCM (38D). The standards' contents are PRESUMED (notes/assumptions/6.md). -/
namespace Sys2Proof.Machine

/-- Two byte strings added bit by bit; the shorter length counts. -/
def xorBytes (a b : List Byte) : List Byte := List.zipWith (· ^^^ ·) a b

/-! ### The block cipher -/

/-- A byte times x in GF(2^8). -/
def xtime (b : Byte) : Byte := if b.msb then (b <<< 1) ^^^ 0x1B else b <<< 1

/-- A product in GF(2^8); the fuel is the number of bits of the second factor. -/
def gmulN : Nat → Byte → Byte → Byte
  | 0, _, _ => 0
  | n + 1, a, b => (if b.getLsbD 0 then a else 0) ^^^ gmulN n (xtime a) (b >>> 1)
def gmul (a b : Byte) : Byte := gmulN 8 a b

/-- The inverse of a byte in GF(2^8), 0 for 0: its power 254. -/
def ginv (a : Byte) : Byte :=
  let sq (x : Byte) : Byte := gmul x x
  let a2 := sq a; let a4 := sq a2; let a8 := sq a4; let a16 := sq a8; let a32 := sq a16; let a64 := sq a32
  gmul (sq a64) (gmul a64 (gmul a32 (gmul a16 (gmul a8 (gmul a4 a2)))))

/-- The substitution of a byte, and its table. -/
def aesSub (b : Byte) : Byte :=
  let i := ginv b
  i ^^^ i.rotateLeft 1 ^^^ i.rotateLeft 2 ^^^ i.rotateLeft 3 ^^^ i.rotateLeft 4 ^^^ 0x63
def aesBox : List Byte := (List.range 256).map fun n => aesSub (BitVec.ofNat 8 n)
def subByte (b : Byte) : Byte := aesBox.getD b.toNat 0
/-- The byte whose substitution is given. -/
def unsubByte (b : Byte) : Byte := BitVec.ofNat 8 (aesBox.findIdx fun x => x == b)

/-- The words of the key schedule, newest first, from the key's own 8 words; `i` numbers the next word. -/
def aesSchedule : Nat → Nat → Byte → List (List Byte) → List (List Byte)
  | 0, _, _, w => w
  | n + 1, i, rc, w =>
    let t := w.headD []
    let old := w.getD 7 []
    if i % 8 = 0 then
      let s := (t.drop 1 ++ t.take 1).map subByte
      aesSchedule n (i + 1) (xtime rc) (xorBytes old (xorBytes s [rc, 0, 0, 0]) :: w)
    else aesSchedule n (i + 1) rc (xorBytes old (if i % 8 = 4 then t.map subByte else t) :: w)

/-- The 15 round keys of a 32-byte key. -/
def aesKeys (key : List Byte) : List (List Byte) :=
  pieces 16 (aesSchedule 52 8 1 (pieces 4 key).reverse).reverse.flatten

/-- The bytes of a block moved within their rows: `k` columns per row. -/
def aesShift (k : Nat) (s : List Byte) : List Byte :=
  (List.range 16).map fun i => s.getD ((i + 4 * k * (i % 4)) % 16) 0

/-- Each column times the circulant of four factors. -/
def aesMix (f : List Byte) (s : List Byte) : List Byte :=
  (pieces 4 s).flatMap fun c => (List.range 4).map fun i =>
    (List.range 4).foldl (fun x j => x ^^^ gmul (f.getD ((j + 4 - i) % 4) 0) (c.getD j 0)) 0

/-- Encryption of one 16-byte block under its round keys. -/
def aesEnc (keys : List (List Byte)) (b : List Byte) : List Byte :=
  let mid := ((keys.drop 1).take 13).foldl
    (fun s k => xorBytes (aesMix [2, 3, 1, 1] (aesShift 1 (s.map subByte))) k) (xorBytes b (keys.headD []))
  xorBytes (aesShift 1 (mid.map subByte)) (keys.getD 14 [])

/-- Decryption of one block. -/
def aesDec (keys : List (List Byte)) (b : List Byte) : List Byte :=
  let first := (aesShift 3 (xorBytes b (keys.getD 14 []))).map unsubByte
  let mid := ((keys.drop 1).take 13).reverse.foldl
    (fun s k => (aesShift 3 (aesMix [14, 11, 13, 9] (xorBytes s k))).map unsubByte) first
  xorBytes mid (keys.headD [])

/-! ### Modes -/

/-- ECB, on whole blocks. -/
def ecbEncrypt (key msg : List Byte) : List Byte := let ks := aesKeys key; (pieces 16 msg).flatMap (aesEnc ks)
def ecbDecrypt (key msg : List Byte) : List Byte := let ks := aesKeys key; (pieces 16 msg).flatMap (aesDec ks)

/-- CBC, on whole blocks. -/
def cbcEnc (ks : List (List Byte)) : List Byte → List (List Byte) → List Byte
  | _, [] => []
  | c, b :: r => let o := aesEnc ks (xorBytes c b); o ++ cbcEnc ks o r
def cbcDec (ks : List (List Byte)) : List Byte → List (List Byte) → List Byte
  | _, [] => []
  | c, b :: r => xorBytes c (aesDec ks b) ++ cbcDec ks b r
def cbcEncrypt (key iv msg : List Byte) : List Byte := cbcEnc (aesKeys key) iv (pieces 16 msg)
def cbcDecrypt (key iv msg : List Byte) : List Byte := cbcDec (aesKeys key) iv (pieces 16 msg)

/-- A counter block one further, in its last `n` bytes. -/
def incBlock (n : Nat) (b : List Byte) : List Byte := b.take (16 - n) ++ beBytes n (ofBe (b.drop (16 - n)) + 1)

/-- The counter mode from a first block, counting in the last `n` bytes. -/
def ctrRun (ks : List (List Byte)) (n : Nat) : List Byte → List (List Byte) → List Byte
  | _, [] => []
  | c, b :: r => xorBytes b (aesEnc ks c) ++ ctrRun ks n (incBlock n c) r

/-- CTR; encryption and decryption are one. -/
def ctrCrypt (key block msg : List Byte) : List Byte := ctrRun (aesKeys key) 16 block (pieces 16 msg)

/-- A block twice over in the field of CMAC. -/
def cmacDouble (b : List Byte) : List Byte :=
  let n := 2 * ofBe b
  beBytes 16 (if 2 ^ 128 ≤ n then n ^^^ 0x87 else n)

/-- CMAC of a message. -/
def cmacOf (key msg : List Byte) : List Byte :=
  let ks := aesKeys key
  let k1 := cmacDouble (aesEnc ks (List.replicate 16 0))
  let n := (msg.length - 1) / 16 * 16
  let last := msg.drop n
  let tail := if last.length = 16 then xorBytes last k1
    else xorBytes (fit 16 (last ++ [0x80])) (cmacDouble k1)
  ((pieces 16 (msg.take n) ++ [tail]).foldl (fun c b => aesEnc ks (xorBytes c b)) (List.replicate 16 0))

/-! ### GCM -/

/-- A product in GF(2^128) with GCM's order of bits; the fuel is the number of bits left of the first factor. -/
def ghashMul : Nat → Nat → Nat → Nat → Nat
  | 0, _, _, z => z
  | n + 1, x, v, z =>
    ghashMul n x (if bit v 0 then (v / 2) ^^^ (0xE1 * 2 ^ 120) else v / 2) (if bit x n then z ^^^ v else z)

/-- GHASH of whole blocks. -/
def ghash (h : Nat) (msg : List Byte) : Nat :=
  (pieces 16 msg).foldl (fun y b => ghashMul 128 (y ^^^ ofBe b) h 0) 0

/-- A byte string filled up with zeros to whole blocks. -/
def padBlock (l : List Byte) : List Byte := l ++ List.replicate ((16 - l.length % 16) % 16) 0

/-- The tag of a ciphertext under a 12-byte IV. -/
def gcmTag (ks : List (List Byte)) (iv aad ct : List Byte) : List Byte :=
  let s := ghash (ofBe (aesEnc ks (List.replicate 16 0)))
    (padBlock aad ++ padBlock ct ++ beBytes 8 (8 * aad.length) ++ beBytes 8 (8 * ct.length))
  xorBytes (beBytes 16 s) (aesEnc ks (iv ++ [0, 0, 0, 1]))

/-- GCM with a 12-byte IV: ciphertext, then tag. -/
def gcmEncrypt (key iv aad msg : List Byte) : List Byte :=
  let ks := aesKeys key
  let ct := ctrRun ks 4 (iv ++ [0, 0, 0, 2]) (pieces 16 msg)
  ct ++ gcmTag ks iv aad ct

/-- GCM decryption of ciphertext and tag: the plaintext, none when the tag does not match. -/
def gcmDecrypt (key iv aad msg : List Byte) : Option (List Byte) :=
  let ks := aesKeys key
  let ct := msg.take (msg.length - 16)
  if gcmTag ks iv aad ct == msg.drop (msg.length - 16) then some (ctrRun ks 4 (iv ++ [0, 0, 0, 2]) (pieces 16 ct)) else none

end Sys2Proof.Machine
end

