-- ==== Sys2Proof/Machine/Ec.lean ====
section
/-! DEFINITION. The ECDSA P-384 engine of SEC (spec/10 Table 10.2; FIPS 186-5), with SHA-384. The standard's contents are
PRESUMED (notes/assumptions/6.md). -/
namespace Sys2Proof.Machine

/-- The prime of the field, the order of the base point, and the curve's constant. -/
def ecP : Nat := 2 ^ 384 - 2 ^ 128 - 2 ^ 96 + 2 ^ 32 - 1
def ecN : Nat :=
  0xFFFFFFFFFFFFFFFFFFFFFFFFFFFFFFFFFFFFFFFFFFFFFFFFC7634D81F4372DDF581A0DB248B0A77AECEC196ACCC52973
def ecB : Nat :=
  0xB3312FA7E23EE7E4988E056BE3F82D19181D9C6EFE8141120314088F5013875AC656398D8A2ED19D2A85C8EDD3EC2AEF

/-- A power modulo `q`; the fuel is the number of bits of the exponent. -/
def powModN (q : Nat) : Nat → Nat → Nat → Nat
  | 0, _, _ => 1
  | n + 1, x, e => let r := powModN q n (x * x % q) (e / 2); if e % 2 = 1 then x * r % q else r

/-- The inverse modulo a prime of 384 bits. -/
def invMod (q x : Nat) : Nat := powModN q 384 (x % q) (q - 2)

/-- The difference modulo `q` of two numbers below `q`. -/
def subMod (q a b : Nat) : Nat := (a + (q - b % q)) % q

/-- A point; none is the point at infinity. -/
abbrev EcPoint := Option (Nat × Nat)

def ecBase : EcPoint := some
  (0xAA87CA22BE8B05378EB1C71EF320AD746E1D3B628BA79B9859F741E082542A385502F25DBF55296C3A545E3872760AB7,
   0x3617DE4A96262C6F5D9E98BF9292DC29F8F41DBD289A147CE9DA3113B5F0B8C00A60B1CE1D7E819D7A431D7C90EA0E5F)

/-- The third point on the line of slope `l` through `(x1, y1)` and a point of abscissa `x2`, reflected. -/
def ecThird (l x1 y1 x2 : Nat) : EcPoint :=
  let x := subMod ecP (subMod ecP (l * l % ecP) x1) x2
  some (x, subMod ecP (l * subMod ecP x1 x % ecP) y1)

/-- The sum of two points. -/
def ecAdd : EcPoint → EcPoint → EcPoint
  | none, b => b
  | a, none => a
  | some (x1, y1), some (x2, y2) =>
    if x1 = x2 then
      if (y1 + y2) % ecP = 0 then none
      else ecThird ((3 * x1 * x1 + ecP - 3) * invMod ecP (2 * y1) % ecP) x1 y1 x2
    else ecThird (subMod ecP y2 y1 * invMod ecP (subMod ecP x2 x1) % ecP) x1 y1 x2

/-- A multiple of a point; the fuel is the number of bits of the factor. -/
def ecMulN : Nat → Nat → EcPoint → EcPoint
  | 0, _, _ => none
  | n + 1, k, p => let r := ecMulN n (k / 2) (ecAdd p p); if k % 2 = 1 then ecAdd p r else r
def ecMul (k : Nat) (p : EcPoint) : EcPoint := ecMulN 384 k p

/-- A point as 97 bytes, uncompressed. -/
def ecBytes : EcPoint → List Byte
  | some (x, y) => 0x04 :: (beBytes 48 x ++ beBytes 48 y)
  | none => List.replicate 97 0

/-- The point of 97 bytes, none unless it is uncompressed and on the curve. -/
def ecPoint (l : List Byte) : EcPoint :=
  let x := ofBe ((l.drop 1).take 48)
  let y := ofBe ((l.drop 49).take 48)
  if l.length = 97 ∧ l.headD 0 = 0x04 ∧ x < ecP ∧ y < ecP ∧ y * y % ecP = (x * x * x + (ecP - 3) * x + ecB) % ecP
  then some (x, y) else none

/-- The public key of a private scalar. -/
def ecPublic (d : Nat) : List Byte := ecBytes (ecMul d ecBase)

/-- ECDSA with SHA-384: does a signature, r then s, verify. -/
def ecdsaVerify (key msg sig : List Byte) : Bool :=
  let r := ofBe (sig.take 48)
  let s := ofBe (sig.drop 48)
  match ecPoint key with
  | none => false
  | some q =>
    if r = 0 ∨ ecN ≤ r ∨ s = 0 ∨ ecN ≤ s then false
    else
      let w := invMod ecN s
      match ecAdd (ecMul (ofBe (sha384Of msg) * w % ecN) ecBase) (ecMul (r * w % ecN) (some q)) with
      | some (x, _) => x % ecN == r
      | none => false

/-- ECDSA with SHA-384 under a private scalar: r then s, from the first usable one of several secret numbers of the TRNG. -/
def ecdsaSign (d : Nat) (msg : List Byte) : List Nat → List Byte
  | [] => List.replicate 96 0
  | rnd :: more =>
    let k := rnd % (ecN - 1) + 1
    let r := match ecMul k ecBase with
      | some (x, _) => x % ecN
      | none => 0
    let s := invMod ecN k * (ofBe (sha384Of msg) + r * d) % ecN
    if r = 0 ∨ s = 0 then ecdsaSign d msg more else beBytes 48 r ++ beBytes 48 s

end Sys2Proof.Machine
end

