-- ==== Sys2Proof/Machine/Lattice.lean ====
section
/-! DEFINITION. The ML-KEM-1024 (FIPS 203) and ML-DSA-65 (FIPS 204) engines of SEC (spec/10 Table 10.2). The standards' contents
are PRESUMED (notes/assumptions/6.md). -/
namespace Sys2Proof.Machine

/-! ### Polynomials of 256 coefficients modulo a prime -/

/-- The bits of a number from the highest of `n` down. -/
def revBits (n i : Nat) : Nat := (List.range n).foldl (fun r k => 2 * r + bits i k 1) 0

/-- The value of a polynomial at a point. -/
def polyEval (q : Nat) (f : List Nat) (x : Nat) : Nat := f.foldr (fun c r => (c + x * r) % q) 0

def polyAdd (q : Nat) (f g : List Nat) : List Nat := List.zipWith (fun a b => (a + b) % q) f g
def polySub (q : Nat) (f g : List Nat) : List Nat := List.zipWith (subMod q) f g
def polyZero : List Nat := List.replicate 256 0
def polySum (q : Nat) (l : List (List Nat)) : List Nat := l.foldl (polyAdd q) polyZero

/-- The values at the odd powers `z ^ (2 i + 1)` of a root, in the order of reversed bits of `n`-bit places. -/
def oddValues (q z n : Nat) (f : List Nat) : List Nat :=
  (List.range (2 ^ n)).map fun i => polyEval q f (powModN q 9 z (2 * revBits n i + 1))

/-- The polynomial of `2 ^ n` coefficients with those values. -/
def fromValues (q z n : Nat) (v : List Nat) : List Nat :=
  let w := (List.range (2 ^ n)).map fun i => v.getD (revBits n i) 0
  let zi := powModN q 9 z (2 ^ (n + 1) - 1)
  let scale := powModN q 24 (2 ^ n) (q - 2)
  (List.range (2 ^ n)).map fun j => scale * (powModN q 9 zi j * polyEval q w (powModN q 9 zi (2 * j)) % q) % q

/-- Bit strings, lowest bit first. -/
def bitsOf (n v : Nat) : List Nat := (List.range n).map fun i => bits v i 1
def ofBits (l : List Nat) : Nat := l.foldr (fun b r => b + 2 * r) 0

/-- Numbers of `d` bits as bytes, and back. -/
def packBits (d : Nat) (l : List Nat) : List Byte :=
  (pieces 8 (l.flatMap (bitsOf d))).map fun p => BitVec.ofNat 8 (ofBits p)
def unpackBits (d : Nat) (l : List Byte) : List Nat := (pieces d (l.flatMap fun b => bitsOf 8 b.toNat)).map ofBits

/-- A row of a matrix, or of a transposed one, times a vector, in the transformed domain. -/
def dotProduct (q : Nat) (mul : List Nat → List Nat → List Nat) (a b : List (List Nat)) : List Nat :=
  polySum q (List.zipWith mul a b)

/-! ### ML-KEM-1024 -/

def kemQ : Nat := 3329
def kemRange : List Nat := List.range 4

/-- The transform: even and odd coefficients apart, in pairs. -/
def kemNtt (f : List Nat) : List Nat :=
  let p := pieces 2 f
  (List.zipWith (fun a b => [a, b]) (oddValues kemQ 17 7 (p.map fun e => e.getD 0 0))
    (oddValues kemQ 17 7 (p.map fun e => e.getD 1 0))).flatten
def kemInv (f : List Nat) : List Nat :=
  let p := pieces 2 f
  (List.zipWith (fun a b => [a, b]) (fromValues kemQ 17 7 (p.map fun e => e.getD 0 0))
    (fromValues kemQ 17 7 (p.map fun e => e.getD 1 0))).flatten

/-- The product in the transformed domain: of degree-one factors, modulo X² − z. -/
def kemMul (f g : List Nat) : List Nat :=
  (List.zipWith (fun (e : List Nat × Nat) (b : List Nat) =>
    let a := e.1
    let z := powModN kemQ 9 17 (2 * revBits 7 e.2 + 1)
    [(a.getD 0 0 * b.getD 0 0 + a.getD 1 0 * b.getD 1 0 % kemQ * z) % kemQ,
      (a.getD 0 0 * b.getD 1 0 + a.getD 1 0 * b.getD 0 0) % kemQ]) (pieces 2 f).zipIdx (pieces 2 g)).flatten

/-- The first 256 coefficients of those that a sampler accepts. -/
def coeffs256 (l : List Nat) : List Nat := l.take 256 ++ List.replicate (256 - l.length) 0

/-- Uniform coefficients from 280 groups of three bytes. -/
def kemUniform (seed : List Byte) : List Nat :=
  coeffs256 (((pieces 3 (shake128 seed 840)).flatMap fun c =>
    let n := ofLe c
    [n % 4096, n / 4096]).filter fun d => d < kemQ)

/-- A coefficient vector of small numbers: each a difference of two sums of two bits. -/
def kemNoise (s : List Byte) (n : Nat) : List Nat :=
  (unpackBits 4 (shake256 (s ++ [BitVec.ofNat 8 n]) 128)).map fun v =>
    subMod kemQ (bits v 0 1 + bits v 1 1) (bits v 2 1 + bits v 3 1)

/-- Entry of the matrix in row `i` and column `j`. -/
def kemMatrix (rho : List Byte) (i j : Nat) : List Nat := kemUniform (rho ++ [BitVec.ofNat 8 j, BitVec.ofNat 8 i])

def kemCompress (d x : Nat) : Nat := (2 ^ (d + 1) * x + kemQ) / (2 * kemQ) % 2 ^ d
def kemExpand (d y : Nat) : Nat := (2 * kemQ * y + 2 ^ d) / 2 ^ (d + 1)

/-- Key generation from two seeds of 32 bytes: the encapsulation key of 1,568 bytes, then the decapsulation key of 3,168. -/
def kemKeyGen (d z : List Byte) : List Byte :=
  let g := sha3_512 (d ++ [4])
  let rho := g.take 32
  let s := kemRange.map fun i => kemNtt (kemNoise (g.drop 32) i)
  let t := kemRange.map fun i =>
    polyAdd kemQ (dotProduct kemQ kemMul (kemRange.map fun j => kemMatrix rho i j) s) (kemNtt (kemNoise (g.drop 32) (4 + i)))
  let ek := t.flatMap (packBits 12) ++ rho
  ek ++ (s.flatMap (packBits 12) ++ ek ++ sha3_256 ek ++ z)

/-- Encryption of 32 bytes under an encapsulation key, with 32 random bytes. -/
def kemEncrypt (ek msg r : List Byte) : List Byte :=
  let t := (pieces 384 (ek.take 1536)).map fun p => (unpackBits 12 p).map (· % kemQ)
  let rho := ek.drop 1536
  let y := kemRange.map fun i => kemNtt (kemNoise r i)
  let u := kemRange.map fun i =>
    polyAdd kemQ (kemInv (dotProduct kemQ kemMul (kemRange.map fun j => kemMatrix rho j i) y)) (kemNoise r (4 + i))
  let v := polyAdd kemQ (polyAdd kemQ (kemInv (dotProduct kemQ kemMul t y)) (kemNoise r 8))
    ((unpackBits 1 msg).map (kemExpand 1))
  u.flatMap (fun p => packBits 11 (p.map (kemCompress 11))) ++ packBits 5 (v.map (kemCompress 5))

/-- The 32 bytes of a ciphertext. -/
def kemDecrypt (dk ct : List Byte) : List Byte :=
  let s := (pieces 384 (dk.take 1536)).map (unpackBits 12)
  let u := (pieces 352 (ct.take 1408)).map fun p => kemNtt ((unpackBits 11 p).map (kemExpand 11))
  let v := (unpackBits 5 (ct.drop 1408)).map (kemExpand 5)
  packBits 1 ((polySub kemQ v (kemInv (dotProduct kemQ kemMul s u))).map (kemCompress 1))

/-- Encapsulation with 32 random bytes: the ciphertext of 1,568 bytes, then the secret of 32. -/
def kemEncapsulate (ek msg : List Byte) : List Byte :=
  let g := sha3_512 (msg ++ sha3_256 ek)
  kemEncrypt ek msg (g.drop 32) ++ g.take 32

/-- Decapsulation: the secret, or the implicit rejection's value. -/
def kemDecapsulate (dk ct : List Byte) : List Byte :=
  let msg := kemDecrypt dk ct
  let g := sha3_512 (msg ++ (dk.drop 3104).take 32)
  if kemEncrypt ((dk.drop 1536).take 1568) msg (g.drop 32) == ct then g.take 32 else shake256 (dk.drop 3136 ++ ct) 32

/-! ### ML-DSA-65 -/

def dsaQ : Nat := 8380417
/-- γ1, and γ2 = (q − 1) / 32. -/
def dsaG1 : Nat := 524288
def dsaG2 : Nat := 261888

def dsaNtt (f : List Nat) : List Nat := oddValues dsaQ 1753 8 f
def dsaInv (f : List Nat) : List Nat := fromValues dsaQ 1753 8 f
def dsaMul (f g : List Nat) : List Nat := List.zipWith (fun a b => a * b % dsaQ) f g

/-- The magnitude of a coefficient, and the greatest in a list of polynomials. -/
def dsaAbs (x : Nat) : Nat := min x (dsaQ - x)
def dsaNorm (l : List (List Nat)) : Nat := l.foldl (fun n f => f.foldl (fun n x => max n (dsaAbs x)) n) 0

/-- Uniform coefficients from 298 groups of three bytes. -/
def dsaUniform (seed : List Byte) : List Nat :=
  coeffs256 (((pieces 3 (shake128 seed 894)).map fun c => ofLe c % 2 ^ 23).filter fun x => x < dsaQ)

/-- The matrix of 6 rows and 5 columns. -/
def dsaMatrix (rho : List Byte) : List (List (List Nat)) :=
  (List.range 6).map fun r => (List.range 5).map fun s => dsaUniform (rho ++ [BitVec.ofNat 8 s, BitVec.ofNat 8 r])

/-- Coefficients from −4 to 4, from the half bytes of 481 bytes. -/
def dsaSmall (seed : List Byte) (r : Nat) : List Nat :=
  coeffs256 (((unpackBits 4 (shake256 (seed ++ leBytes 2 r) 481)).filter fun v => v < 9).map fun v => subMod dsaQ 4 v)

/-- What a seed of 32 bytes gives: ρ, K, s1, s2, and t. -/
structure DsaKey where
  rho : List Byte
  k : List Byte
  s1 : List (List Nat)
  s2 : List (List Nat)
  t : List (List Nat)

/-- A matrix of the transformed domain times a vector. -/
def dsaApply (a : List (List (List Nat))) (v : List (List Nat)) : List (List Nat) :=
  a.map fun row => dotProduct dsaQ dsaMul row v

def dsaKey (seed : List Byte) : DsaKey :=
  let h := shake256 (seed ++ [6, 5]) 128
  let rho := h.take 32
  let sd := (h.drop 32).take 64
  let s1 := (List.range 5).map (dsaSmall sd)
  let s2 := (List.range 6).map fun r => dsaSmall sd (5 + r)
  ⟨rho, h.drop 96, s1, s2,
    List.zipWith (polyAdd dsaQ) ((dsaApply (dsaMatrix rho) (s1.map dsaNtt)).map dsaInv) s2⟩

/-- The upper ten bits of a coefficient, rounded, and what remains. -/
def dsaHigh13 (x : Nat) : Nat := (x + 4095) / 8192
def dsaLow13 (x : Nat) : Nat := subMod dsaQ x (dsaHigh13 x * 8192)

/-- The public key of a seed: 1,952 bytes. -/
def dsaPublicOf (k : DsaKey) : List Byte := k.rho ++ k.t.flatMap fun f => packBits 10 (f.map dsaHigh13)
def dsaPublic (seed : List Byte) : List Byte := dsaPublicOf (dsaKey seed)

/-- The high part of a coefficient by 2 γ2, and whether its low part is positive; the low part modulo q. -/
def dsaHigh (x : Nat) : Nat := (x + dsaG2 - 1) / (2 * dsaG2) % 16
def dsaLow (x : Nat) : Nat := subMod dsaQ x (dsaHigh x * (2 * dsaG2))

/-- The challenge polynomial with 49 coefficients of magnitude 1. -/
def dsaChallenge (c : List Byte) : List Nat :=
  let h := shake256 c 221
  let signs := ofLe (h.take 8)
  let step (st : List Nat × List Byte) (i : Nat) : List Nat × List Byte :=
    let rest := st.2.dropWhile fun b => i < b.toNat
    let j := (rest.headD 0).toNat
    ((st.1.set i (st.1.getD j 0)).set j (if bit signs (i - 207) then dsaQ - 1 else 1), rest.drop 1)
  (((List.range 49).map fun i => 207 + i).foldl step (polyZero, h.drop 8)).1

/-- The message with its domain and context. -/
def dsaMessage (ctx : String) (msg : List Byte) : List Byte := 0 :: BitVec.ofNat 8 (ascii ctx).length :: (ascii ctx ++ msg)

/-- The mask of 5 polynomials. -/
def dsaMask (seed : List Byte) (kappa : Nat) : List (List Nat) :=
  (List.range 5).map fun r => (unpackBits 20 (shake256 (seed ++ leBytes 2 (kappa + r)) 640)).map (subMod dsaQ dsaG1)

/-- The challenge bytes over the high parts of a vector. -/
def dsaHash (mu : List Byte) (w1 : List (List Nat)) : List Byte := shake256 (mu ++ w1.flatMap (packBits 4)) 48

/-- The hints as 61 bytes: the places of each polynomial, then the running ends. -/
def dsaHintBytes (h : List (List Bool)) : List Byte :=
  let places := h.map fun f => (List.range 256).filter fun j => f.getD j false
  fit 55 (places.flatten.map (BitVec.ofNat 8)) ++
    ((List.range 6).map fun i => BitVec.ofNat 8 ((places.take (i + 1)).flatten.length))

/-- The attempts of a signature; the fuel is their greatest number. -/
def dsaAttempt (k : DsaKey) (a : List (List (List Nat))) (mu seed : List Byte) : Nat → Nat → List Byte
  | 0, _ => List.replicate 3309 0
  | n + 1, kappa =>
    let y := dsaMask seed kappa
    let w := (dsaApply a (y.map dsaNtt)).map dsaInv
    let c := dsaHash mu (w.map fun f => f.map dsaHigh)
    let ch := dsaNtt (dsaChallenge c)
    let times (v : List (List Nat)) : List (List Nat) := v.map fun f => dsaInv (dsaMul ch (dsaNtt f))
    let z := List.zipWith (polyAdd dsaQ) y (times k.s1)
    let r := List.zipWith (polySub dsaQ) w (times k.s2)
    if dsaG1 - 196 ≤ dsaNorm z ∨ dsaG2 - 196 ≤ dsaNorm (r.map fun f => f.map dsaLow) then dsaAttempt k a mu seed n (kappa + 5)
    else
      let t0 := times (k.t.map fun f => f.map dsaLow13)
      let v := List.zipWith (polyAdd dsaQ) r t0
      let h := List.zipWith (List.zipWith fun x y => dsaHigh x != dsaHigh y) v r
      if dsaG2 ≤ dsaNorm t0 ∨ 55 < (h.flatten.filter id).length then dsaAttempt k a mu seed n (kappa + 5)
      else c ++ z.flatMap (fun f => packBits 20 (f.map fun x => subMod dsaQ dsaG1 x)) ++ dsaHintBytes h

/-- ML-DSA-65 signature of a message by the key of a seed, with a context and 32 random bytes. -/
def dsaSign (seed : List Byte) (ctx : String) (msg rnd : List Byte) : List Byte :=
  let k := dsaKey seed
  let mu := shake256 (shake256 (dsaPublicOf k) 64 ++ dsaMessage ctx msg) 64
  dsaAttempt k (dsaMatrix k.rho) mu (shake256 (k.k ++ rnd ++ mu) 64) 814 0

/-- The hints of a signature's last 61 bytes: the places of each polynomial; none when they are malformed. -/
def dsaHints (l : List Byte) : Option (List (List Nat)) :=
  let idx := (l.take 55).map (·.toNat)
  let ends := (l.drop 55).map (·.toNat)
  let starts := 0 :: ends
  let rising : List Nat → Bool := fun p => (List.zipWith (fun a b => decide (a < b)) p (p.drop 1)).all id
  let parts := List.zipWith (fun s e => (idx.take e).drop s) starts ends
  if (List.zipWith (fun s e => decide (s ≤ e ∧ e ≤ 55)) starts ends).all id && parts.all rising &&
      (idx.drop (ends.getLastD 0)).all (· == 0) then some parts else none

/-- The high part of a coefficient, corrected by a hint. -/
def dsaUseHint (h : Bool) (x : Nat) : Nat :=
  let low := dsaLow x
  if !h then dsaHigh x else if 0 < low ∧ low ≤ dsaG2 then (dsaHigh x + 1) % 16 else (dsaHigh x + 15) % 16

/-- ML-DSA-65: does a signature with a context verify. -/
def dsaVerify (pk : List Byte) (ctx : String) (msg sig : List Byte) : Bool :=
  let c := sig.take 48
  let z := (pieces 640 ((sig.drop 48).take 3200)).map fun p => (unpackBits 20 p).map fun v => subMod dsaQ dsaG1 v
  match dsaHints (sig.drop 3248) with
  | none => false
  | some h =>
    let t1 := (pieces 320 (pk.drop 32)).map fun p => (unpackBits 10 p).map fun v => v * 8192 % dsaQ
    let ch := dsaNtt (dsaChallenge c)
    let w := List.zipWith (fun f t => dsaInv (polySub dsaQ f (dsaMul ch (dsaNtt t))))
      (dsaApply (dsaMatrix (pk.take 32)) (z.map dsaNtt)) t1
    let w1 := List.zipWith (fun f (p : List Nat) => f.zipIdx.map fun e => dsaUseHint (p.contains e.2) e.1) w h
    let mu := shake256 (shake256 pk 64 ++ dsaMessage ctx msg) 64
    pk.length == 1952 && sig.length == 3309 && decide (dsaNorm z < dsaG1 - 196) && dsaHash mu w1 == c

end Sys2Proof.Machine
end

