-- ==== Sys2Proof/Machine/SecOps.lean ====
section
/-! DEFINITION. What SEC does for the rest of the module (spec/10): the device keys, digests and measurement registers, key
records and monotonic counters, legal time, journal records with their chain, and the beginning of a batch seal. -/
namespace Sys2Proof.Machine

/-! ### Device keys (R515 to R517) -/

/-- R515, R516: a key derived from the key-store root with a label of Table 10.1. -/
def deviceKey (label : String) (len : Nat) : List Byte := hkdf (beBytes 32 Config.keyRoot.toNat) label len

/-- The keys of Table 10.1: the seed of the ML-DSA identity, the scalar of the ECDSA identity, storage, staging, counter. -/
def idMlSeed : List Byte := deviceKey "DG9-ID-MLDSA" 32
def idEcScalar : Nat := ofBe (deviceKey "DG9-ID-ECDSA" 48) % (ecN - 1) + 1
def storageKey : List Byte := deviceKey "DG9-STORE" 32
def stagingKey : List Byte := deviceKey "DG9-STAGE" 48
def counterKey : List Byte := deviceKey "DG9-CTR" 48

/-- The identity public keys, and DEVICE_ID (R517). -/
def idKeys : List Byte := dsaPublic idMlSeed ++ ecPublic idEcScalar
def deviceId : List Byte := sha384Of idKeys

/-- A random number of the TRNG cut into secret numbers that a signature may use. -/
def nonces (r : Nat) : List Nat := (List.range 4).map fun i => r / 2 ^ (512 * i) % 2 ^ 512

/-- Signatures by the two identity keys over a byte string (R523, R534), with random numbers of the TRNG. -/
def idSigs (ctx : String) (body : List Byte) (r1 r2 : Nat) : List Byte :=
  dsaSign idMlSeed ctx body (leBytes 32 r1) ++ ecdsaSign idEcScalar body (nonces r2)

def updSec (m : Dg) (f : Sec → Sec) : Dg := { m with sec := f m.sec }

/-- R416: MEASi := SHA-384(MEASi ‖ value). -/
def measExtend (m : Dg) (i : Nat) (value : List Byte) : Dg :=
  { m with boot := { m.boot with meas := SMap.upd m.boot.meas i fun x => ofLe (sha384Of (leBytes 48 x ++ value)) } }

/-! ### Key records (R518, R524): their layout is the model's (notes/assumptions/30.md) -/

/-- Where key record `i` begins: 4 × role + KEYIDX for a role key, 31 for the passphrase. -/
def keyAddr (i : Nat) : Nat := keyRecBase + 0x1000 * i
/-- Where copy `k` of counter `i` stands; the three are 128 KiB apart, in different macros. -/
def copyAddr (i k : Nat) : Nat := keyRecBase + 0x80000 + 0x20000 * k + 128 * i

/-- A line of the code store written whole by SEC (R342); the rest of its 128 bytes is 0. -/
def storeLine (m : Dg) (a : Nat) (bs : List Byte) : Dg :=
  (List.range 8).foldl (fun m j => storeClean m (a + 16 * j) (ofLe (fit 16 (bs.drop (16 * j))))) m

/-- Bytes written to a key record, line after line. -/
def storeRecord (m : Dg) (a : Nat) (bs : List Byte) : Dg :=
  (pieces 128 bs).zipIdx.foldl (fun m e => storeLine m (a + 128 * e.2) e.1) m

/-- Words of a span by what the storage code finds. -/
def recWords (m : Dg) (a len : Nat) (p : Ecc → Bool) : Bool := (spanWords a len).any fun wa => p (eccOf (getErr m wa 0))

/-- A span of key records does not give back what SEC wrote. -/
def recHurt (m : Dg) (a len : Nat) : Bool :=
  recWords m a len fun e => match e with
    | .clean => false
    | .corrected => false
    | _ => true

/-- SEC reads a key record: what the storage code corrects or cannot correct in it is reported under the key store (Table 10.13,
notes/assumptions/69.md). -/
def readRecord (m : Dg) (a len : Nat) : Dg :=
  let bad := recHurt m a len
  let fixed := recWords m a len fun e => match e with
    | .corrected => true
    | _ => false
  let m := (readSpan m viaPort1 a len).1
  if bad then reportOpen m 0x0D0 kKeystoreUncorrectable 0 else if fixed then reportOpen m 0x0D0 kKeystoreCorrected 0 else m

/-! ### Counters (Table 10.6): 0 EXESH_SVN, 1 APP_SVN, 2 CONFIG_SVN, 3 JOURNAL_NEXT, 4 START, 5 KEY_EPOCH -/

/-- The bytes of a copy: the value and its HMAC over counter number and value (R524). -/
def copyBytes (i v : Nat) : List Byte := leBytes 8 v ++ hmacOf counterKey (leBytes 1 i ++ leBytes 8 v)

/-- R524, R525: copy `k` of counter `i`. Its HMAC verifies unless it is marked bad or its line in the code store does not give back
what SEC wrote. -/
def ctrCopy (m : Dg) (i k : Nat) : CtrCopy :=
  let x := SMap.get m.sec.ctr (3 * i + k)
  { x with bad := x.bad || recHurt m (copyAddr i k) 56 }

/-- One copy written with a single line write (R524). -/
def copyPut (m : Dg) (i v k : Nat) : Dg :=
  updSec (storeLine m (copyAddr i k) (copyBytes i (v % 2 ^ 64))) fun x =>
    { x with ctr := SMap.set x.ctr (3 * i + k) ⟨v % 2 ^ 64, false⟩ }

/-- The three copies written one after the other (R524). -/
def ctrPut (m : Dg) (i v : Nat) : Dg := [0, 1, 2].foldl (fun m k => copyPut m i v k) m

/-- Copies with a valid HMAC that hold a value. -/
def ctrAgree (m : Dg) (i v : Nat) : Nat := ([0, 1, 2].filter fun k => ctrCopy m i k == ⟨v, false⟩).length

/-- R525: a counter read. -/
def ctrRead (m : Dg) (i : Nat) : Dg × Nat :=
  match [0, 1, 2].find? fun k => 2 ≤ ctrAgree m i (ctrCopy m i k).value with
  | some k =>
    let v := (ctrCopy m i k).value
    (if ctrAgree m i v = 3 then m else reportOpen (ctrPut m i v) 0x0D6 kCounterRepaired i, v)
  | none =>
    let good := [0, 1, 2].filter fun k => !(ctrCopy m i k).bad
    let top := (good.map fun k => (ctrCopy m i k).value).foldl max 0
    let all := ([0, 1, 2].map fun k => (ctrCopy m i k).value).foldl max 0
    let (m, v) : Dg × Nat := if good.isEmpty then (let (m, f) := draw m; (m, max all (f % 2 ^ 64))) else (m, top)
    (reportOpen (ctrPut m i v) 0x0D6 kCounterNoMajority i, v)

/-- The value that a counter read takes, and what the read leaves behind. -/
def ctrValue (m : Dg) (i : Nat) : Nat := (ctrRead m i).2
def ctrSettle (m : Dg) (i : Nat) : Dg := (ctrRead m i).1

/-- A counter advances to a value; it is never lowered (R431, R525). -/
def ctrRaise (m : Dg) (i v : Nat) : Dg :=
  let (m, old) := ctrRead m i
  if old < v then ctrPut m i v else m

/-- A counter advances by 1. -/
def ctrInc (m : Dg) (i : Nat) : Dg :=
  let (m, old) := ctrRead m i
  ctrPut m i (old + 1)

/-- The two engines of the identity signatures are in service (R520). -/
def signersUp (m : Dg) : Bool := !bit m.sec.katFail 3 && !bit m.sec.katFail 4

/-! ### Legal time -/

/-- A day in µs. -/
def dayUs : Nat := 86400000000

/-- R536: the RTC `left` µs after it showed `us`: at the end of a day with an inserted leap second it holds 23:59:59.999 for one
second. The fuel is the number of midnights that may pass. -/
def rtcRun : Nat → Nat → Nat → Nat
  | 0, us, left => us + left
  | n + 1, us, left =>
    let mid := (us / dayUs + 1) * dayUs
    if us + left < mid then us + left
    else
      let past := us + left - mid
      if !Config.leapSecond (us / dayUs) then rtcRun n mid past
      else if past < 1000000 then mid - 1
      else rtcRun n mid (past - 1000000)

/-- The RTC in µs: `k` units of 16 ns are 2k/125 µs. -/
def rtcUsNow (m : Dg) : Nat :=
  let left := (m.now - m.sec.rtcAt) * 2 / 125
  rtcRun (left / dayUs + 2) m.sec.rtcUs left
/-- UTC_MS, 48 bits. -/
def utcMs (m : Dg) : Nat := rtcUsNow m / 1000 % 2 ^ 48
/-- UTC in seconds. -/
def utcS (m : Dg) : Nat := rtcUsNow m / 1000000

/-- The RTC takes a value in ms. -/
def rtcPut (m : Dg) (ms : Nat) : Dg := updSec m fun x => { x with rtcUs := ms * 1000, rtcAt := m.now }

/-- TIMEQ (Table 10.9). -/
def timeq (m : Dg) : Nat :=
  pack [(1, b2n m.sec.rtcValid), (1, b2n m.sec.pps), (1, bits m.net.gptpSync 0 1), (1, b2n m.sec.restored),
        (1, b2n m.sec.disagree)]

/-- 802.1AS time in ns; 0 while not synchronised. -/
def asNs (m : Dg) : Nat := if bit m.net.gptpSync 0 then (m.sec.asOff + 16 * m.now) % 2 ^ 64 else 0

/-! ### The journal -/

def journalLen : Nat := 1048576

/-- Where record `n` stands. -/
def recAddr (n : Nat) : Nat := 0x71000000 + 64 * ((n - 1) % journalLen)

/-- The 64 bytes of a record. -/
def recBytes (m : Dg) (n : Nat) : List Byte := peeks m (recAddr n) 64

/-- The oldest counter value held (R529). -/
def oldestHeld (next : Nat) : Nat := if next ≤ journalLen then 1 else next - journalLen

/-- R530: one step of the chain. -/
def chainStep (h : Nat) (r : List Byte) : Nat := ofLe (sha384Of (leBytes 48 h ++ r))

/-- Records above the export mark that are held. -/
def unexported (m : Dg) (next : Nat) : Nat := next - 1 - max m.sec.exportMark (oldestHeld next - 1)

/-- R529: JOURNAL_NEAR_FULL becomes live, or its cause ends. -/
def nearFullCheck (m : Dg) : Dg :=
  let on := decide (943718 < unexported m (ctrValue m 3))
  let m := if on && !m.sec.nearFull then reportOpen m 0x0D6 kJournalNearFull 0 else m
  updSec m fun x => { x with nearFull := on }

/-- R532: the batch of unsealed records closes and its seal is begun; during a seal the trigger waits. -/
def sealTrigger (m : Dg) (flags : Nat) : Dg :=
  match m.sec.sealing with
  | some _ => updSec m fun x => { x with sealNext := some (x.sealNext.getD 0 ||| flags) }
  | none =>
    let (m, next) := ctrRead m 3
    if m.sec.unsealed < next then
      updSec m fun x => { x with sealing := some ⟨x.unsealed, next - 1, flags, x.unsealedAt⟩, unsealed := next }
    else m

/-- R527 to R530: a record takes the next counter value, the times and its link, and is stored. -/
def journalPut (m : Dg) (ty slot ref origin : Nat) (data : List Byte) : Dg :=
  let (m, n) := ctrRead m 3
  let r := leBytes 24 (pack [(64, n), (64, utcMs m), (64, asNs m)]) ++
    leBytes 6 (pack [(8, ty), (8, slot), (16, ref), (8, origin), (8, timeq m)]) ++ fit 22 data ++ leBytes 12 m.sec.hHead
  let m := if journalLen < n then updSec m fun x => { x with hTail := chainStep x.hTail (recBytes m (n - journalLen)) } else m
  let (m, _) := writeSpan m viaPort1 (recAddr n) r
  let m := updSec (ctrPut m 3 (n + 1)) fun x =>
    { x with hHead := chainStep x.hHead r, unsealedAt := if x.unsealed = n then m.now else x.unsealedAt }
  nearFullCheck m

/-- A record is written; 256 unsealed records close a batch (R532). -/
def journalWrite (m : Dg) (ty slot ref origin : Nat) (data : List Byte) : Dg :=
  let m := journalPut m ty slot ref origin data
  if 256 ≤ ctrValue m 3 - m.sec.unsealed then sealTrigger m 0 else m

/-- The card in a slot: its state and register entry. -/
def getCard (m : Dg) (n : Nat) : CardSlot := SMap.get m.sec.card n

/-- CARDREF of the card authenticated in a slot. -/
def cardRef (m : Dg) (slot : Nat) : Nat :=
  if slot = 0 then 0 else if (getCard m slot).st = .authenticated then (getCard m slot).ref else 0

/-- A record that SEC writes (Table 10.8). -/
def secRecord (m : Dg) (ty slot : Nat) (data : List Byte) : Dg := journalWrite m ty slot (cardRef m slot) 0 data

/-- A card slot deactivated: its switches open, and what the activation set is gone (R539, R540, notes/assumptions/125.md). -/
def CardSlot.off (c : CardSlot) (st : CardSt) : CardSlot :=
  { c with st := st, clsB := false, protoT1 := false, vccA := false, vccB := false, clkKHz := 0, fi := 0, di := 0, ref := 0,
           authCmd := none }

/-- R540: a card is deactivated: CARD_OUT is written and the slot takes a state. The Driver session of the slot is ended by
the caller. -/
def cardOut (m : Dg) (n : Nat) (st : CardSt) : Dg :=
  updSec (secRecord m 0xF5 n []) fun x => { x with card := SMap.upd x.card n fun c => c.off st }

/-- R530: H(n) of a held record, hashed from H_TAIL. -/
def chainTo (m : Dg) (n : Nat) : Nat :=
  let first := oldestHeld (ctrValue m 3)
  (List.range (n + 1 - first)).foldl (fun h i => chainStep h (recBytes m (first + i))) m.sec.hTail

end Sys2Proof.Machine
end

