-- ==== Sys2Proof/Machine/DmaOps.lean ====
section
/-! DEFINITION. The jobs of the DMA agents and their completions (spec/06 R344 to R347). -/
namespace Sys2Proof.Machine

def getAgent (m : Dg) (a : Nat) : DmaAgent := SMap.get m.dma a
def updAgent (m : Dg) (a : Nat) (f : DmaAgent → DmaAgent) : Dg := { m with dma := SMap.upd m.dma a f }

/-- The DMA record of an agent's request queue slot. -/
def dmaRec (m : Dg) (a slot : Nat) : Option CfgRec := (recs m 0x0020).find? fun r => r.f 0 1 == a && r.f 1 1 == slot

/-- A completion message (Table 06.14). -/
def dmaDone (m : Dg) (r : CfgRec) (tag status crc done : Nat) : Dg :=
  (hwPublish m (r.f 8 4) (0x60 + r.f 0 1) (leBytes 32 (pack [(16, tag), (8, status), (8, 0), (32, crc), (64, done)]))).1

/-- The requests that wait in a request queue end with ABORTED; a void message is released without a completion. -/
def abortWaiting (m : Dg) (r : CfgRec) : Nat → Dg
  | 0 => m
  | n + 1 => match hwTake m (0x60 + r.f 0 1) (r.f 4 4) with
    | (m, none) => m
    | (m, some (msg, code)) => abortWaiting (if code = 0 then dmaDone m r (leAt msg 16 2) 5 0 0 else m) r n

/-- R347: the jobs of the request queues of a partition end with ABORTED, those under way and those that have not started. -/
def abortJobs (m : Dg) (pid : Nat) : Dg :=
  ((recs m 0x0020).filter fun r => r.f 2 1 == pid).foldl
    (fun m r =>
      let jobs := SMap.get (getAgent m (r.f 0 1)).jobs (r.f 1 1)
      let m := jobs.foldl (fun m j => dmaDone m r j.tag 5 0 j.done) m
      let m := updAgent m (r.f 0 1) fun x => { x with jobs := SMap.set x.jobs (r.f 1 1) [] }
      abortWaiting m r (getQ m (r.f 4 4)).count) m

/-- R347: every job of every agent ends with ABORTED. -/
def abortAllJobs (m : Dg) : Dg := (List.range 64).foldl abortJobs m

end Sys2Proof.Machine
end

