-- ==== Sys2Proof/Machine/StudioOps.lean ====
section
/-! DEFINITION. The voting core complex's operations (spec/01): cores, spares and seating, voter reports, the beginning
of a re-seat, the loss of a group, and the start of a partition on a context (spec/08 S14). -/
namespace Sys2Proof.Machine

def getCore (m : Dg) (c : Nat) : Core := SMap.get m.stu.core c
def updCore (m : Dg) (c : Nat) (f : Core → Core) : Dg := { m with stu := { m.stu with core := SMap.upd m.stu.core c f } }
def getStudio (m : Dg) (s : Nat) : Studio := SMap.get m.stu.studio s
def updStudio (m : Dg) (s : Nat) (f : Studio → Studio) : Dg :=
  { m with stu := { m.stu with studio := SMap.upd m.stu.studio s f } }
def getPart (m : Dg) (pid : Nat) : Partn := SMap.get m.stu.part pid
def updPart (m : Dg) (pid : Nat) (f : Partn → Partn) : Dg :=
  { m with stu := { m.stu with part := SMap.upd m.stu.part pid f } }

/-- Core in a lane, 0 A, 1 B, 2 C. -/
def Group.lane (g : Group) (l : Nat) : Option Nat :=
  match l with
  | 0 => g.laneA
  | 1 => g.laneB
  | 2 => g.laneC
  | _ => none

def Group.setLane (g : Group) (l : Nat) (c : Option Nat) : Group :=
  match l with
  | 0 => { g with laneA := c }
  | 1 => { g with laneB := c }
  | 2 => { g with laneC := c }
  | _ => g

/-- The cores seated in a group. -/
def Group.cores (g : Group) : List Nat := [g.laneA, g.laneB, g.laneC].filterMap id

/-- STU_GRPn_STATUS.STATE: a full or degraded group that an Easel session has halted shows HALTED. -/
def Group.shown (g : Group) : GState :=
  if g.halt && (g.state == .full || g.state == .degraded) then .halted else g.state

/-- The partner studio: S0 and S1, S2 and S3 (R432). -/
def partner (s : Nat) : Nat := if s % 2 = 0 then s + 1 else s - 1

/-- R45: the voter source of a group slot. -/
def voterSrc (slot : Nat) : Nat := 0x040 + 3 * (slot / 4) + min (slot % 4) 2

/-- R46: a voter's message: lane (3 for the voter itself), slot and a kind-specific value. -/
def voterReport (m : Dg) (slot kind lane val addr subject : Nat) : Dg :=
  report m (voterSrc slot) kind (pack [(4, val), (4, slot), (2, lane)]) addr subject

/-- R60: of two spares the one with the older last PASS, none since start being oldest, ties to the lower number. -/
def olderPass (m : Dg) (l : List Nat) : Option Nat :=
  l.foldl (fun best c => match best with
    | none => some c
    | some b => if (getCore m c).lastPass < (getCore m b).lastPass then some c else some b) none

/-- The cores of a studio. -/
def coresOf (s : Nat) : List Nat := (List.range 10).map fun i => 10 * s + i

/-- The READY spares of a studio that no re-seat is loading. -/
def readySpares (m : Dg) (s : Nat) : List Nat :=
  (coresOf s).filter fun c => (getCore m c).role == .ready && ((getStudio m s).reseat.map (·.new)) != some c

/-- A core takes a condition; its seat is given up. -/
def setRole (m : Dg) (c : Nat) (r : Role) : Dg := updCore m c fun x => { x with role := r, slot := 0, lane := 0 }

/-- Units of the time base in a reset duration of so many µs and the 64 cycles that a shadow lasts beyond it (R471). -/
def shadowUnits (us : Nat) : Nat := (us * 1000 + 160 + 15) / 16

/-- R471: the reset duration of a core begins with its release. -/
def coreShadow (m : Dg) (c : Nat) : Dg :=
  { m with fcr := { m.fcr with shadows := m.fcr.shadows.map fun s =>
      if s.tag == c && s.ends.isNone then { s with ends := some (m.now + shadowUnits 5) } else s } }

/-- R42, R48: the core or cores of a context are stopped or reset: nothing that the context has not yet released goes out,
so its buffered stores, its outstanding loads and its line requests are gone. -/
def quench (m : Dg) (c : CtxId) : Dg :=
  updCtx m c fun x => { x with sb := [], load := none, pcie := none, lineReq := [] }

/-- Step 5 of Table 01.3, R198: L1, line buffers, branch target buffer and predictors are invalidated together; what the L2
holds stands. -/
def coldStart (m : Dg) (c : CtxId) : Dg :=
  updCtx m c fun x => { x with lines := [], lineReq := [], l1i := [], btb := [], ras := [], dir := [] }

/-- A core that has been reset (R84). What its interrupt controller holds stands. -/
def resetCtx (m : Dg) (c : CtxId) : Dg :=
  updCtx (coldStart (quench m c) c) c fun x => { x with r := Regs.reset, nmi := false, waiting := false, stopped := false }

/-- R62: a core goes to test. -/
def startTest (m : Dg) (c : Nat) : Dg :=
  coreShadow (updCore (setRole m c .testing) c fun x => { x with incomplete := 0 }) c

/-- A core is seated in a lane of a group. -/
def seat (m : Dg) (slot lane c : Nat) : Dg :=
  updCore (updGrp m slot fun g => g.setLane lane (some c)) c fun x => { x with role := .active, slot := slot, lane := lane }

/-- An event flag of a slot is set (Table 01.16); it raises source 1 of the slot's context when it was clear (R221). -/
def grpEvt (m : Dg) (slot flag : Nat) : Dg :=
  let old := (getGrp m slot).evt.flags
  let m := updGrp m slot fun g => { g with evt := g.evt.set flag }
  if bit old flag then m else raiseIrq m slot 1

/-- The slot enters DEGRADED. -/
def degrade (m : Dg) (slot : Nat) : Dg :=
  grpEvt (updGrp m slot fun g => { g with state := .degraded, under := .degraded }) slot 1

/-- The re-seats, in progress or waiting, of a slot. -/
def reseatsOf (m : Dg) (slot : Nat) : List Reseat :=
  let s := getStudio m (slot / 4)
  ((s.reseat.toList) ++ s.waiting).filter fun r => r.slot == slot

/-- A lane that has been fenced and not yet replaced (R41). -/
def fencedLane (m : Dg) (slot : Nat) : Option Nat :=
  ((reseatsOf m slot).find? fun r => r.fenced).map (·.lane)

/-- The lanes that the voter compares. -/
def lanesCompared (m : Dg) (slot : Nat) : List Nat :=
  ([0, 1, 2].filter fun l => ((getGrp m slot).lane l).isSome && fencedLane m slot != some l)

/-- Hold a named re-seat until a spare is READY and the group is FULL; a further request for the lane merges (R47). -/
def holdNamed (m : Dg) (slot lane cause : Nat) : Dg :=
  updGrp m slot fun g => if g.held.any (fun h => h.1 == lane) then g else { g with held := g.held ++ [(lane, cause)] }

/-- SPARE_UNAVAILABLE of a lane (R47, R55). -/
def spareUnavailable (m : Dg) (slot lane : Nat) : Dg :=
  voterReport m slot kSpareUnavailable lane 0 0 (((getGrp m slot).lane lane).getD tagNone)

/-- The newcomer of a re-seat: the core that Table 08.9 names while it is READY (R57), else the spare of R60. -/
def newcomerOf (m : Dg) (r : Reseat) : Option Nat :=
  (r.prefer.filter fun c => (getCore m c).role == .ready).or (olderPass m (readySpares m (r.slot / 4)))

/-- A CORE_RESEAT that is outstanding for a core (R392). -/
def reseatCmd (m : Dg) (core : Nat) : Option Cmd := m.mbx.out.find? fun c => c.op == 0x0036 && c.f 0 1 == core

/-- The re-seat begins now, or finds no READY spare: a fenced lane leaves its group degraded (R55), a named one is held
(R47), and a CORE_RESEAT is answered BUSY (R392). `fresh` says that LANE_MINORITY was sent in this cycle; every other re-seat sends RESEAT_START (Table 01.3). -/
def beginReseat (m : Dg) (r : Reseat) (fresh : Bool) : Dg :=
  let s := r.slot / 4
  match newcomerOf m r with
  | none =>
    if r.fenced then
      let m := spareUnavailable m r.slot r.lane
      let m := match r.old with
        | some c => updGrp (setRole m c .excluded) r.slot fun g => { g.setLane r.lane none with missing := some c }
        | none => m
      degrade m r.slot
    else if r.cause = 2 then m
    else if r.cause = 3 then
      match r.old.bind (reseatCmd m) with
      | some c => finish m c stBusy 5 []
      | none => m
    else spareUnavailable (holdNamed m r.slot r.lane r.cause) r.slot r.lane
  | some n =>
    let m := updGrp m r.slot fun g => { g with under := if g.state = .reseating then g.under else g.state, state := .reseating }
    let m := updStudio m s fun x => { x with reseat := some { r with new := n, t0 := m.now, frozen := none } }
    if fresh then m else voterReport m r.slot kReseatStart r.lane 0 0 (r.old.getD n)

/-- R54: a re-seat that becomes due begins, or waits for the one in progress in its studio. A group whose fenced lane waits
so keeps the STATE it had: Table 01.12 has no code for it (notes/assumptions/105.md). -/
def requestReseat (m : Dg) (r : Reseat) (fresh : Bool) : Dg :=
  let s := r.slot / 4
  if (getStudio m s).reseat.isSome then updStudio m s fun x => { x with waiting := x.waiting ++ [r] }
  else beginReseat m r fresh

/-- R54, R56: the waiting re-seats of a studio in their order, until one is in progress: those before it found no spare. -/
def nextReseat (m : Dg) (s : Nat) : Dg :=
  (getStudio m s).waiting.foldl (fun m r =>
    if (getStudio m s).reseat.isSome then m
    else beginReseat (updStudio m s fun x => { x with waiting := x.waiting.drop 1 }) r false) m

/-- A slot's record emptied of its group; the counters and the last re-seat stay (Tables 01.13 to 01.17). -/
def clearSlot (m : Dg) (slot : Nat) : Dg :=
  updGrp m slot fun g => { g with state := .unused, laneA := none, laneB := none, laneC := none, pid := 0, det := false,
                                  missing := none, pair := false, shadow := false, held := [], halt := false, haltDefer := false }

/-- R47: lane `l` of a group is fenced: the re-seats of the group's other lanes that wait under R54 are held until the group
is FULL, a CORE_RESEAT is answered BUSY, and a planned one lapses; one of lane `l` itself lapses. -/
def yieldWaiting (m : Dg) (slot l : Nat) : Dg :=
  let mine (r : Reseat) : Bool := r.slot == slot && !r.fenced
  let w := (getStudio m (slot / 4)).waiting.filter mine
  w.foldl (fun m r =>
      if r.lane = l ∨ r.cause = 2 then m
      else if r.cause = 3 then
        match r.old.bind (reseatCmd m) with
        | some c => finish m c stBusy 5 []
        | none => m
      else holdNamed m slot r.lane r.cause)
    (updStudio m (slot / 4) fun x => { x with waiting := x.waiting.filter fun r => !mine r })

/-- The CORE_RESEATs of a group that is lost have failed (notes/assumptions/16.md). -/
def failReseatCmds (m : Dg) (cores : List Nat) : Dg :=
  cores.foldl (fun m c => match reseatCmd m c with
    | some cmd => finish m cmd stFailed 0 []
    | none => m) m

/-- R42, R44: a group is lost: none of its requests goes out any more, and its cores that are not EXCLUDED go to test, a
newcomer under load included. -/
def loseGroup (m : Dg) (slot : Nat) : Dg :=
  let s := slot / 4
  let g := getGrp m slot
  let st := getStudio m s
  let newcomer := match st.reseat with
    | some r => if r.slot = slot then [r.new] else []
    | none => []
  let mine := newcomer.length == 1
  let m := updStudio m s fun x =>
    { x with reseat := if mine then none else x.reseat, waiting := x.waiting.filter (fun r => r.slot != slot),
             planned := x.planned.filter (fun r => r.slot != slot) }
  let m := quench (failHalts (failReseatCmds m g.cores) slot) slot
  let m := ((g.cores ++ newcomer).filter fun c => (getCore m c).role != .excluded).foldl startTest m
  let m := updGrp m slot fun g =>
    { g with state := .lost, laneA := none, laneB := none, laneC := none, held := [], missing := none, halt := false, haltDefer := false }
  let m := updPart m g.pid fun p => { p with state := .lost, waitRestart := p.waitRestart || partFlag m g.pid 3 }
  let m := abortJobs m g.pid
  if mine then nextReseat m s else m

/-- The context of a partition by its PARTITION record (Table 08.16): its group slot, or 16 + the QM core. -/
def recCtx (r : CfgRec) : CtxId := if r.f 1 1 = 2 then 16 + 10 * r.f 2 1 + r.f 3 1 else 4 * r.f 2 1 + r.f 3 1

/-! ### Partition start -/

/-- Base address of an application bank: 0 A, 1 B (Table 06.4). -/
def appBase (bank : Nat) : Nat := 0x61000000 + bank * 0x08000000

/-- The application bank that a partition is bound to: persisted by a glaze, else as the blob says (R339, R440). -/
def boundBank (m : Dg) (pid : Nat) : Nat :=
  match SMap.get m.boot.bind pid with
  | 0 => if partFlag m pid 2 then 1 else 0
  | b => b - 1

/-- The application bank of a partition: the one it is bound to, or the other where S13 took its alternative. -/
def bankOfPid (m : Dg) (pid : Nat) : Nat :=
  if SMap.get m.boot.alt pid then 1 - boundBank m pid else boundBank m pid

/-- Interrupt routing of a partition from its IRQ records (R222). -/
def irqOf (m : Dg) (pid : Nat) : SMap IrqCfg :=
  ((recs m 0x0009).filter fun r => r.f 0 1 == pid).foldl
    (fun t r => SMap.set t (r.f 2 2) ⟨bit (r.f 5 1) 0, r.f 1 1, bit (r.f 5 1) 1⟩) []

/-- Does a side of a partition use the blob's shadow windows: the shadow, until a glaze exchanges the roles (R441). -/
def usesShadow (m : Dg) (pid : Nat) (shadow : Bool) : Bool := shadow != SMap.get m.boot.winSwap pid

/-- Where a side keeps what the blob places at an address: the shadow windows match the live ones in order (R434); an
address at the end of a window, a stack's, goes with it. -/
def sideAddr (m : Dg) (pid : Nat) (shadow : Bool) (a : Nat) : Nat :=
  if usesShadow m pid shadow then
    let live := (windowRecs m pid false).map windowOf
    let sh := (windowRecs m pid true).map windowOf
    let at' (a : Nat) : Option Nat := live.findIdx? fun w => w.base ≤ a && a < w.base + w.size
    match (at' a).or (at' (a - 1)) with
    | some i => match sh[i]?, live[i]? with
      | some w, some v => w.base + (a - v.base)
      | _, _ => a
    | none => a
  else a

/-- The access windows of a side of a partition. -/
def sideWindows (m : Dg) (pid : Nat) (shadow : Bool) : List Window :=
  (windowRecs m pid (usesShadow m pid shadow)).map windowOf

/-- Every byte of a span lies in a window that passes a test; at most `fuel` windows are crossed. -/
def covered (ws : List Window) (ok : Window → Bool) : Nat → Nat → Nat → Bool
  | 0, _, len => len == 0
  | fuel + 1, a, len =>
    if len = 0 then true
    else match ws.find? fun w => ok w && w.base ≤ a && a < w.base + w.size with
      | some w => covered ws ok fuel (w.base + w.size) (a + len - (w.base + w.size))
      | none => false

/-- Memory that Table 06.1 opens to partitions through access windows. -/
def partitionMem (m : Dg) (b : Nat) : Bool :=
  match regionOf m false b with
  | .canvas => true
  | .dram => true
  | .pcie => true
  | _ => false

/-- A byte lies in a readable or a writable access window of a partition, in memory that Table 06.1 opens to partitions. -/
def inSide (m : Dg) (pid : Nat) (write : Bool) (b : Nat) : Bool :=
  partitionMem m b && (sideWindows m pid false).any fun w => w.base ≤ b && b < w.base + w.size && (if write then w.write else w.read)

/-- Where the write rules of Table 06.4 change. -/
def storeBounds : List Nat :=
  [0x60800000, 0x61000000, 0x69000000, 0x71000000, 0x75000000, 0x75F00000, 0x76000000]

/-- The addresses at which what an agent reaches may change: the ranges of Table 06.1, the segments of DRAM, the regions of the
code store, the access windows and the rings. -/
def reachEdges (m : Dg) (ws : List Window) : List Nat :=
  [0x80000, sramBase, sramBase + 0x100000, windowBase, 0x18000000, canvasBase, 0x24000000, paletteBase, 0x30800000, regBase,
   0x50000000, storeBase, 0x78000000, pcieBase, 2 * pcieBase] ++ storeBounds ++
  ((List.range 29).map fun i => dramBase + i * 0x20000000) ++
  (ws.flatMap fun w => [w.base, w.base + w.size]) ++
  ((m.fab.q.filter fun e => e.2.valid).flatMap fun e => [e.2.ringBase, e.2.ringBase + e.2.ringSize])

/-- The first byte of a span that a test refuses, the test changing at the given addresses alone. -/
def firstRefused (edges : List Nat) (ok : Nat → Bool) (a len : Nat) : Option Nat :=
  if len = 0 then none
  else ((a :: edges.filter fun b => a < b && b < a + len).filter fun b => !ok b).min?

/-- The context with which a partition starts: Supervisor mode at its entry point (S14, spec/02 after Table 02.5). The
pending bits of its interrupt controller stand. -/
def startCtx (m : Dg) (pid : Nat) (shadow : Bool) (bank : Nat) (r : CfgRec) (x : Ctx) : Ctx :=
  { (default : Ctx) with
    r := { Regs.reset with mode := .supervisor, pc := BitVec.ofNat 48 (sideAddr m pid shadow (r.f 24 8)),
                           a15s := BitVec.ofNat 64 (sideAddr m pid shadow (r.f 32 8)),
                           slims := BitVec.ofNat 64 (sideAddr m pid shadow (r.f 40 8)), det := r.f 4 1 == 1 },
    irqPend := x.irqPend, irqCfg := irqOf m pid, pid := pid, windows := sideWindows m pid shadow,
    appWin := if partFlag m pid 1 then bank + 1 else 0 }

/-- Copies LEN bytes from an application bank's payload into Canvas RAM (record LOAD); false when a word cannot be
read or written. -/
def loadOne (m : Dg) (bank : Nat) (dst src len : Nat) : Dg × Bool :=
  match readSpan m viaPort1 (appBase bank + 0x1000 + src) len with
  | (m, some bs) => writeSpan m viaPort1 dst bs
  | (m, none) => (m, false)

/-- The LOAD records of a partition carried out (S14, every restart; into the shadow windows at an underpainting). -/
def loadPartition (m : Dg) (pid bank : Nat) (shadow : Bool) : Dg × Bool :=
  ((recs m 0x0007).filter fun r => r.f 0 1 == pid).foldl
    (fun (st : Dg × Bool) r =>
      if st.2 then
        loadOne st.1 bank (sideAddr m pid shadow (r.f 8 8)) (r.f 16 8) (r.f 24 8)
      else st) (m, true)

/-- R276: the claimed slots of a partition's queues are released. -/
def releaseAll (m : Dg) (pid : Nat) : Dg :=
  (SMap.keysWhere m.fab.q fun x => x.valid && x.cons (genOf m x) == pid).foldl releaseQ m

/-- S14 for one partition on a context: claimed slots released, code and data loaded, registers set; the partition is
STARTING until PARTITION_RUNNING. It stays STOPPED when its load fails. -/
def startPartition (m : Dg) (pid : Nat) (c : CtxId) (restart : Bool) : Dg :=
  match partRec m pid with
  | none => m
  | some r =>
    let m := releaseAll m pid
    let bank := bankOfPid m pid
    match loadPartition m pid bank false with
    | (m, false) => updPart m pid fun p => { p with state := .stopped }
    | (m, true) =>
      let m := updCtx m c (startCtx m pid false bank r)
      let m := if c < 16 then updGrp m c fun g => { g with det := r.f 4 1 == 1, pid := pid } else m
      updPart m pid fun p =>
        { p with state := .starting, restarts := if restart then satInc 32 p.restarts else p.restarts, waitRestart := false }

/-- Lanes that a group of a studio has: A, B, C in mode T; A, C in mode D. -/
def lanesOfMode : StMode → List Nat
  | .t => [0, 1, 2]
  | .d => [0, 2]
  | .q => []

/-- R44: a group's cores are seated from READY spares in lane order, if there are enough. -/
def formGroup (m : Dg) (slot pid : Nat) : Option Dg :=
  let s := slot / 4
  let lanes := lanesOfMode (getStudio m s).mode
  if lanes.isEmpty ∨ (readySpares m s).length < lanes.length then none
  else
    let m := lanes.foldl (fun m l => match olderPass m (readySpares m s) with
      | some c => seat m slot l c
      | none => m) m
    some (updGrp m slot fun g =>
      { g with state := .full, under := .full, pair := (getStudio m s).mode == .d, pid := pid, shadow := false })

end Sys2Proof.Machine
end

