-- ==== Sys2Proof/Machine/UpdateOps.lean ====
section
/-! DEFINITION. The operations of underpainting, glaze and revert that other blocks' events set off (spec/08 R432 to
R443): the end of a run, the release of the revert point, the suspension of rotation. -/
namespace Sys2Proof.Machine

def updUnder (m : Dg) (f : Under → Under) : Dg := { m with boot := { m.boot with under := f m.boot.under } }

/-- An underpainting is set up or runs (R432). -/
def underLive (m : Dg) : Bool :=
  match m.boot.under.st with
  | .settingUp => true
  | .running => true
  | .passed => true
  | _ => false

/-- An underpainting, a glaze window or a revert window is in progress (R432, R403). -/
def underBusy (m : Dg) : Bool := underLive m || m.boot.under.st == .revertWindow

/-- Partitions whose window binding names an application bank, 0 A or 1 B (R339). -/
def boundPids (m : Dg) (bank : Nat) : List Nat :=
  ((recs m 0x0002).filter fun r => bit (r.f 5 1) 1 && bankOfPid m (r.f 0 1) == bank).map fun r => r.f 0 1

/-- Contexts bound to an application bank: those of the partitions, and the other side of an underpainting or a revert
window. -/
def boundCount (m : Dg) (bank : Nat) : Nat :=
  (boundPids m bank).length + b2n (underBusy m && m.boot.under.bank == bank)

/-- The key records, which only SEC reads and writes (Table 06.4). They are taken to fill the last MiB of the configuration region
(notes/assumptions/30.md). -/
def keyRecord (a : Nat) : Bool := keyRecBase ≤ a && a < 0x76000000

/-- Table 06.4, R341: may a writer write the code store at an address now. In recovery no Exesh bank runs (R401). -/
def storeAllowed (m : Dg) (w : Writer) (a : Nat) : Bool :=
  if a < 0x61000000 then w == .supervisor && (m.mbx.state == 4 || m.mbx.bank != (a - storeBase) / 0x800000)
  else if a < 0x71000000 then w != .sec && boundCount m ((a - 0x61000000) / 0x8000000) == 0
  else if a < 0x75000000 then w == .sec
  else if keyRecord a then w == .sec
  else if a < 0x76000000 then w != .dma
  else w != .sec

/-- R341: a refused write to the code store, with the address of the word. -/
def writeProtect (m : Dg) (a : Nat) : Dg := reportOpen m 0x08C kCstWriteProtect (wordOf a)

/-- R343: Exesh rewrites the lines that could not be read, from its staged image, in the banks that are free of bindings. -/
def restoreLines (m : Dg) : Dg :=
  m.boot.rewrite.foldl (fun m l =>
    if boundCount m ((l - 0x61000000) / 0x8000000) = 0 then
      let m := (List.range 8).foldl (fun m i => storeClean m (l + 16 * i) (peekWord m (l + 16 * i))) m
      { m with boot := { m.boot with rewrite := m.boot.rewrite.filter (· != l) } }
    else m) m

/-- Slot of the shadow pair, and later of the frozen revert point: 4 × s + 3. -/
def pairSlot (m : Dg) : Nat := m.boot.under.slot / 4 * 4 + 3

/-- The flip group of a partition: the group that its PID numbers (notes/assumptions/17.md). -/
def flipOf (pid : Nat) : Nat := pid

def updFlip (m : Dg) (g : Nat) (f : FlipGrp → FlipGrp) : Dg :=
  { m with fab := { m.fab with flip := SMap.upd m.fab.flip g f } }

/-- Exesh commands a flip of a partition's group; the engine accepts it (R292). -/
def commandFlip (m : Dg) (pid : Nat) : Dg := updFlip m (flipOf pid) fun f => { f with pending := some m.now }

/-- A commanded flip is due at a boundary that has come, or the boundary has already applied it. -/
def flipDue (m : Dg) (pid : Nat) : Bool :=
  let f := SMap.get m.fab.flip (flipOf pid)
  f.pending.isNone || (f.taken < f.boundaries m.now && f.due m.now)

/-- The flip group of the run. -/
def underFlip (m : Dg) : FlipGrp := SMap.get m.fab.flip (flipOf m.boot.under.pid)

/-- The boundary at which a partition's group flips, unless it has already been taken. -/
def flipNow (m : Dg) (pid : Nat) : Dg :=
  if (SMap.get m.fab.flip (flipOf pid)).pending.isSome then takeBoundary m (flipOf pid) else m

/-- A queue of the run as it was before, and its mirror target or twin destroyed (R438). -/
def restoreQ (m : Dg) (u : UnderQ) : Dg :=
  setQ (updQ m u.q fun x =>
    { x with linkmode := 0, link := 0, prod1 := u.prod1, cons1 := u.cons1, flipgrp := u.flipgrp, digest := u.digest,
             digidx := u.digidx, mirror := [] }) u.link default

/-- R57: a core that leaves a pair or a revert point is READY, unless it has been EXCLUDED. -/
def freeCore (m : Dg) (c : Nat) : Dg := if (getCore m c).role = .excluded then m else setRole m c .ready

/-- A context that runs nothing: its core is reset. -/
def idleCtx (m : Dg) (c : CtxId) : Dg := setCtx m c Ctx.reset

/-- R438: the queues restored, the pair stopped, both cores READY with their last PASS unchanged. -/
def dropPair (m : Dg) : Dg :=
  let slot := pairSlot m
  let cores := (getGrp m slot).cores
  let m := m.boot.under.qs.foldl restoreQ m
  let m := updFlip m (flipOf m.boot.under.pid) fun f => { f with pending := none }
  let m := cores.foldl freeCore m
  let m := updWdgs m m.boot.under.pid fun w => { w with second := none }
  idleCtx (clearSlot m slot) slot

/-- R436, R438: the run ends, aborted with a cause of Table 08.8, or in MISMATCH. Outstanding underpainting commands are
answered. While Exesh restarts no queue is unbound: the run ends at step 6 of Table 07.18 (R402, R408). -/
def endUnder (m : Dg) (st : UnderSt) (cause : Nat) : Dg :=
  if underLive m ∧ !exeshDown m then
    let u := m.boot.under
    let m := dropPair m
    let m := updUnder m fun u => { u with st := st, cause := cause, qs := [], glazing := false, startCmd := none,
                                          glazeCmd := none }
    let ans (m : Dg) (r : Option (Nat × Nat)) : Dg :=
      if st = .mismatch then finishAt m r stFailed 4 [] else finishAt m r stAborted 2 []
    restoreLines (ans (ans m u.startCmd) u.glazeCmd)
  else m

/-- A run ends with an abort cause. -/
def abortUnder (m : Dg) (cause : Nat) : Dg := endUnder m .aborted cause

/-- A studio holds the shadow pair or its partner core (R433). -/
def underStudio (m : Dg) (s : Nat) : Bool :=
  let t := m.boot.under.slot / 4
  underBusy m && (s == t || s == partner t)

/-- An event of a group in studio `s` ends a run that involves the studio (causes 1 and 8 of Table 08.8). -/
def abortUnderAt (m : Dg) (s cause : Nat) : Dg := if underLive m && underStudio m s then abortUnder m cause else m

/-- The live partition is stopped, restarted or lost (cause 5). -/
def abortUnderPid (m : Dg) (pid cause : Nat) : Dg :=
  if underLive m && m.boot.under.pid == pid then abortUnder m cause else m

/-- R42, R443: the cores of a live group go to test; an underpainting of its studio ends, and in the revert window the loss of
the new triad brings the revert, unless Exesh restarts, which commands no flip (R402). -/
def groupGone (m : Dg) (g : Nat) : Dg :=
  let pid := (getGrp m g).pid
  let m := loseGroup (abortUnderAt m (g / 4) 1) g
  if m.boot.under.st == .revertWindow && m.boot.under.slot == g && !m.boot.under.released && !exeshDown m then
    commandFlip (updUnder m fun u => { u with revertAt := some m.now }) pid
  else m

/-- Table 08.11: the core that a fault re-seat of studio `s` takes in the revert window: the old triad's lane A core. -/
def revertSpare (m : Dg) (s : Nat) : Option Nat :=
  if m.boot.under.st == .revertWindow && !m.boot.under.released && m.boot.under.slot / 4 == s then
    (getGrp m (pairSlot m)).laneA.filter fun c => (getCore m c).role != .excluded
  else none

/-- Table 08.11: a fault re-seat of a slot in the revert window: the old triad's lane A core becomes READY and the revert point
is released; after one of the new triad itself lane C is not replaced at B1. -/
def takeRevertSpare (m : Dg) (slot : Nat) : Dg :=
  match revertSpare m (slot / 4) with
  | some c =>
    let m := updGrp (setRole m c .ready) (pairSlot m) fun g => { g with laneA := none }
    updUnder m fun u => { u with released := true, keepC := u.keepC || u.slot == slot }
  | none => m

/-- The queues of the run are as before it, and the watchdogs keep one set. -/
def dropLinks (m : Dg) : Dg :=
  let m := m.boot.under.qs.foldl restoreQ m
  let m := updFlip m (flipOf m.boot.under.pid) fun f => { f with pending := none }
  updUnder (updWdgs m m.boot.under.pid fun w => { w with second := none }) fun u => { u with qs := [] }

/-- The end of a glaze (Table 08.9 step 5): slot 4 × s + 3 is UNUSED again, SHADOW_STATUS shows IDLE. -/
def closeWindow (m : Dg) : Dg :=
  let slot := pairSlot m
  restoreLines (updUnder (idleCtx (clearSlot m slot) slot) fun u =>
    { u with st := .idle, closing := false, released := false, keepC := false, revertAt := none, revertCmd := none })

/-- A fault re-seat of a group (R439, R443): it first ends an underpainting that involves the studio, or takes the revert
point's core. -/
def faultReseat (m : Dg) (r : Reseat) (fresh : Bool) : Dg :=
  let m := abortUnderAt m (r.slot / 4) 1
  requestReseat (takeRevertSpare m r.slot) { r with prefer := (revertSpare m (r.slot / 4)).or r.prefer } fresh

/-- R47, R439: a re-seat of a named core by a RESEAT reaction: a fault that calls for a re-seat, it ends an underpainting that
involves the studio. It waits while the group is not FULL or has one under way. -/
def namedReseat (m : Dg) (core : Nat) : Dg :=
  let k := getCore m core
  let g := getGrp m k.slot
  if k.role ≠ .active then m
  else if g.state = .full ∧ (reseatsOf m k.slot).isEmpty then
    faultReseat m ⟨k.slot, k.lane, some core, 0, 1, false, 0, none, none⟩ false
  else holdNamed (abortUnderAt m (k.slot / 4) 1) k.slot k.lane 1

/-- R443: the safe state or a chip reset in the revert window abandons the glaze and the revert point: nothing is
committed, the old cores become READY spares. -/
def abandonGlaze (m : Dg) : Dg :=
  let u := m.boot.under
  if u.st = .revertWindow ∧ !u.closing then
    let m := finishAt m u.revertCmd stAborted 2 []
    let m := if exeshDown m then m else dropLinks m
    let m := (getGrp m (pairSlot m)).cores.foldl freeCore m
    updStudio (closeWindow m) (u.slot / 4) fun x => { x with returnFirst := some u.slot }
  else m

/-- R66, Table 01.9: why rotation is suspended in a studio, 0 when it runs. Where several reasons hold together, the order
underpainting, lack of a spare, debug halt is the model's choice (notes/assumptions/105.md). -/
def suspOf (m : Dg) (s : Nat) : Nat :=
  if (getStudio m s).mode = .q then 0
  else if underStudio m s then 1
  else if !((coresOf s).any fun c => match (getCore m c).role with
      | .ready => true
      | .testing => true
      | .untested => true
      | _ => false) then 2
  else if (List.range 4).any fun k => (getGrp m (4 * s + k)).halt then 3
  else 0

end Sys2Proof.Machine
end

