-- ==== Sys2Proof/Machine/ImageOps.lean ====
section
/-! DEFINITION. Images in the code store (spec/08 R421 to R431): banks and configuration slots, header fields, staging
seals, the contexts bound to a bank; and how a batch seal of the journal ends (spec/10 R532, R544). -/
namespace Sys2Proof.Machine

/-- Base of an image: 0 and 1 the Exesh banks, 2 and 3 the application banks (Table 06.4), 4 and 5 the configuration slots
(notes/assumptions/26.md). -/
def bankBase (b : Nat) : Nat :=
  match b with
  | 0 => 0x60000000
  | 1 => 0x60800000
  | 2 => 0x61000000
  | 3 => 0x69000000
  | 4 => 0x75000000
  | _ => 0x75500000

/-- KIND of the image that a bank takes (Table 08.5). -/
def bankKind (b : Nat) : Nat := b / 2 + 1

/-- Largest PAYLOAD_LEN of a KIND. -/
def payLimit (kind : Nat) : Nat :=
  match kind with
  | 1 => 0x800000 - 4096
  | 2 => 0x8000000 - 4096
  | _ => 0x400000

def getImg (m : Dg) (b : Nat) : CodeBank := SMap.get m.boot.bank b
def updImg (m : Dg) (b : Nat) (f : CodeBank → CodeBank) : Dg :=
  { m with boot := { m.boot with bank := SMap.upd m.boot.bank b f } }

/-- Bytes and numbers of an image by their offset (Table 08.5), as a read gives them: corrected, and none where a word cannot be
read (R343). -/
def imgBytes (m : Dg) (b off len : Nat) : List Byte := (readSpan m viaPort1 (bankBase b + off) len).2.getD []
def imgField (m : Dg) (b off len : Nat) : Nat := ofLe (imgBytes m b off len)

/-- R343: bytes of an image are read, with the reports and corrections that this gives; can they be read. -/
def imgScan (m : Dg) (b off len : Nat) : Dg := (readSpan m viaPort1 (bankBase b + off) len).1
def imgReads (m : Dg) (b off len : Nat) : Bool := (readSpan m viaPort1 (bankBase b + off) len).2.isSome

def imgVersion (m : Dg) (b : Nat) : Nat := imgField m b 16 8
def imgSvn (m : Dg) (b : Nat) : Nat := imgField m b 24 8
def imgPayLen (m : Dg) (b : Nat) : Nat := imgField m b 32 8
def imgDigest (m : Dg) (b : Nat) : List Byte := imgBytes m b 40 48

/-- Digest of a configuration blob: the SHA-384 of all its bytes (notes/assumptions/26.md). -/
def blobDigest (m : Dg) (b : Nat) : List Byte := sha384Of (imgBytes m b 0 (4096 + imgPayLen m b))

/-- R430: the staging seal over the signed header and the bank number. -/
def stageMac (m : Dg) (b : Nat) : Nat := ofLe (hmacOf stagingKey (imgBytes m b 0 512 ++ [BitVec.ofNat 8 b]))

/-- The seal of a bank matches. -/
def sealOk (m : Dg) (b : Nat) : Bool := (getImg m b).mac == some (stageMac m b)

/-- The bank holds an image that verification accepted. -/
def imgHeld (m : Dg) (b : Nat) : Bool := (getImg m b).st == .verified || (getImg m b).st == .active

/-- R423, R414: both payload digests agree with the bytes of the bank, read with the reports that this gives (R343). -/
def digestsOk (m : Dg) (b : Nat) : Dg × Bool :=
  match readSpan m viaPort1 (bankBase b + 4096) (imgPayLen m b) with
  | (m, some p) => (m, imgDigest m b == sha384Of p && imgBytes m b 88 48 == sha3Of p)
  | (m, none) => (m, false)

/-- STATE of UPDATE_STATUS (Table 07.13): ACTIVE shows a bank that runs or that a context is bound to. -/
def shownState (m : Dg) (b : Nat) : BankSt :=
  let st := (getImg m b).st
  let inUse : Bool := if b < 2 then m.mbx.bank == b else 0 < boundCount m (b - 2)
  if imgHeld m b then (if inUse then .active else .verified) else st

def bankStCode : BankSt → Nat
  | .empty => 0
  | .staging => 1
  | .verified => 2
  | .failed => 3
  | .active => 4

/-! ### The end of a batch seal -/

/-- The commands that wait for records up to `last` are answered. -/
def answerSeals (m : Dg) (last : Nat) (ok : Bool) : Dg :=
  let l := m.sec.sealCmds.filter fun e => e.2.2 ≤ last
  l.foldl (fun m e => if ok then finishAt m (some (e.1, e.2.1)) stOk 0 (leBytes 8 last)
      else finishAt m (some (e.1, e.2.1)) stFailed 5 [])
    (updSec m fun x => { x with sealCmds := x.sealCmds.filter fun e => !(e.2.2 ≤ last) })

/-- The seal under way has ended: its commands are answered, and a trigger that waited closes its own batch (R532). -/
def sealEnded (m : Dg) (b : Sealing) (ok : Bool) : Dg :=
  let m := answerSeals m b.last ok
  match m.sec.sealNext with
  | some f => sealTrigger (updSec m fun x => { x with sealNext := none }) f
  | none => m

/-- A batch seal cannot be completed: SEAL_FAIL, and its records stay unsealed for the next trigger (R544). -/
def sealFails (m : Dg) (b : Sealing) : Dg :=
  sealEnded (updSec (reportOpen m 0x0D6 kSealFail 0) fun x =>
    { x with sealing := none, unsealed := b.first, unsealedAt := b.since }) b false

/-- R431: the application counter becomes the SVN of a bank when no context is bound to a bank of lower SVN. -/
def raiseAppSvn (m : Dg) (bank : Nat) : Dg :=
  let svn := imgSvn m (bank + 2)
  let other := 1 - bank
  if 0 < boundCount m other && imgSvn m (other + 2) < svn then m else ctrRaise m 1 svn

end Sys2Proof.Machine
end

