-- ==== Sys2Proof/Machine/Mailbox.lean ====
section
/-! DEFINITION. The claim of a mailbox request (spec/07 R365 to R374), sessions and role keys (R375 to R384), identity
and attestation (R517, R523). -/
namespace Sys2Proof.Machine


/-! ### The claim -/

/-- R369: the command is marked long in its table. -/
def isLong (c : Cmd) : Bool :=
  match c.op with
  | 0x0002 => c.f 0 1 == 4
  | 0x0034 => c.f 0 8 + c.f 20 4 == c.f 8 8
  | 0x0040 => c.f 8 8 + c.f 28 4 == c.f 16 8
  | op => [0x0012, 0x0032, 0x0033, 0x0036, 0x0042, 0x0046, 0x0047, 0x0048, 0x0055, 0x0062, 0x0064, 0x0071, 0x0081, 0x0090,
      0x0096].contains op

/-- The commands that Gesso serves in recovery (R401). -/
def servedInRecovery (c : Cmd) : Bool :=
  [0x0001, 0x0002, 0x0003, 0x0010, 0x0011, 0x0012, 0x0013, 0x0041, 0x0048, 0x0050, 0x0070].contains c.op ||
  (c.op == 0x0040 && c.f 0 1 == 1) || ([0x0097, 0x0099].contains c.op && c.f 0 1 == 3) ||
  ([0x0092, 0x0093].contains c.op && c.f 0 1 == 3)

/-- Outstanding commands of a pair. -/
def pairOut (m : Dg) (pair : Nat) : Nat := (m.mbx.out.filter fun c => c.pair == pair).length

/-- Does Exesh, or Gesso in recovery, claim requests of a pair (R366, R401, R404). -/
def claims (m : Dg) (pair : Nat) : Bool :=
  pair < 32 && m.mbx.restart.isNone && (m.mbx.state == 2 || (m.mbx.state == 4 && pair == 31)) &&
  m.mbx.out.length < 512 && pairOut m pair + 1 ≤ (getQ m (respQ pair)).free

/-- R366: the pair whose turn it is: from the pair at which the round robin stands, the first with a visible request that
may be claimed. -/
def turnOf (m : Dg) : Option Nat :=
  ((List.range 32).map fun i => (m.mbx.turn + i) % 32).find? fun p =>
    claims m p && (hwPeek m 0x00 (reqQ p)).isSome

/-- The header fault of a request, as the offset of the first field found invalid (R365). -/
def headerFault (msg : List Byte) : Option Nat :=
  if msg.length < 32 then some 0
  else if leAt msg 24 4 ≠ msg.length - 32 then some 24
  else if leAt msg 28 4 ≠ 0 then some 28
  else none

/-- Checks 2 to 5 of Table 07.7: the refusal, if any. -/
def claimRefusal (m : Dg) (c : Cmd) : Option (Nat × Nat) :=
  if (findCmd m c.pair c.tag).isSome then some (stTagInUse, 0)
  else match accessOf c.op with
    | none => some (stNotSupported, 0)
    | some a =>
      (rightRefusal m c a).or (if m.mbx.state = 4 ∧ !servedInRecovery c then some (stBusy, 4) else none)

/-- R369: the interim response of a long command, when a slot beyond the reservation is free. ESTIMATE_MS, the expected time
to completion, is a free value (notes/assumptions/28.md). -/
def sendPending (m : Dg) (c : Cmd) : Dg :=
  if isLong c && pairOut m c.pair < (getQ m (respQ c.pair)).free then
    let d := draw m
    sendResp d.1 c.pair c.tag stPending 0 0 c.op (leBytes 4 d.2)
  else m

/-- R380, R382: a claimed request that carries the handle of a session of its pair and endpoint ends its idle time; one with a
tag in use has no effect at all (R368). -/
def touchSession (m : Dg) (c : Cmd) : Dg :=
  { m with mbx := { m.mbx with sessions := m.mbx.sessions.map fun s =>
    if s.handle == c.session && s.pair == c.pair && s.ep == c.ep then { s with lastTime := m.now } else s } }

/-- An entry of PENT (Table 10.5). -/
def pentEntry (p : Pent) (cur : Nat) : List Byte :=
  leBytes 8 (pack [(4, p.step), (2, p.action), (1, 0), (1, b2n (p.start != cur)), (8, p.attempt), (16, p.cause), (32, p.unit)])

/-- The pentimento records of the current and the previous start, newest first. -/
def pentRecent (m : Dg) : List Pent :=
  let cur := ctrValue m 4 % 2 ^ 32
  m.boot.pent.filter fun p => p.start == cur || p.start + 1 == cur

/-- Bytes 0 to 631 of the report (Table 10.5). -/
def attestBody (m : Dg) (nonce : List Byte) : List Byte :=
  let p := pentRecent m
  ascii "DG9-ATT1" ++
  leBytes 8 (pack [(16, 1), (8, nonce.length), (8, if m.part.factory then 1 else 2), (8, timeq m), (8, min p.length 8),
    (16, p.length)]) ++
  fit 64 nonce ++ leBytes 8 (utcMs m) ++ (List.range 8).flatMap (fun i => leBytes 48 (SMap.get m.boot.meas i)) ++
  (List.range 6).flatMap (fun i => leBytes 8 (ctrValue m i)) ++ blobDigest m (4 + m.boot.cfgActive) ++
  fit 64 ((p.take 8).flatMap fun e => pentEntry e (ctrValue m 4 % 2 ^ 32))

/-- R523: SEC builds the report of an ATTEST from the state at its claim, after a read of the counters (R525). -/
def atClaim (m : Dg) (c : Cmd) : Dg :=
  if c.op ≠ 0x0012 then m
  else
    let m := (List.range 6).foldl ctrSettle m
    let body := attestBody m (c.payload.drop 4)
    updSec m fun x => { x with attest := (x.attest.filter fun a => a.1 != (c.pair, c.tag)) ++ [((c.pair, c.tag), body)] }

/-- REQUEST_CLAIM, R362, R365 to R371: the oldest request of the pair whose turn it is is claimed and passes the first five checks; a refused
one is answered, an accepted one is outstanding. -/
def execRequestClaim (pair : Nat) (s : State) : Host.Outcome State Fault Refusal :=
  run s fun m =>
    if turnOf m ≠ some pair then m
    else
      let m := { m with mbx := { m.mbx with turn := (pair + 1) % 32 } }
      let ep := requesterOf m pair
      match hwTake m 0x00 (reqQ pair) with
      | (m, none) => m
      | (m, some (msg, code)) =>
        if code ≠ 0 then m
        else
          let c : Cmd := ⟨pair, leAt msg 16 2, leAt msg 18 2, leAt msg 20 4, ep, msg.drop 32, .claimed⟩
          match headerFault msg with
          | some off =>
            let m := exeshReport m kMbxMalformed pair (reqQ pair) ep
            if msg.length < 20 then sendResp m pair 0 stInvalid off 1 0 []
            else sendResp m pair c.tag stInvalid off 1 c.op []
          | none =>
            match claimRefusal m c with
            | some (st, d) => sendResp (if st = stTagInUse then m else touchSession m c) pair c.tag st d 1 c.op []
            | none => sendPending (atClaim (touchSession { m with mbx := { m.mbx with out := m.mbx.out ++ [c] } } c) c) c

/-! ### Data references (R387) -/

/-- A span lies inside readable, or writable, windows of a partition. -/
def inReach (m : Dg) (pid : Nat) (write : Bool) (a len : Nat) : Bool :=
  let ws := sideWindows m pid false
  covered ws (fun w => if write then w.write else w.read) (ws.length + 1) a len

/-- Where an address of a partition lies: through its application bank window in the bank that its context is bound to, if it
is granted one (R339). -/
def partAddr (m : Dg) (pid a : Nat) : Option Nat :=
  if regionOf m false a ≠ .window then some a
  else match ctxOfPid m pid with
    | some x => if (getCtx m x).appWin = 0 then none else some (appBase ((getCtx m x).appWin - 1) + (a - windowBase))
    | none => none

/-- The offset of a field of a DREF whose KIND is none, or whose reserved bytes are not 0. -/
def drefKind (c : Cmd) (off : Nat) : Option Nat :=
  if 1 < c.f off 1 then some off else if c.f (off + 1) 3 ≠ 0 then some (off + 1) else none

/-- A span of the PCIe window (Table 06.1). -/
def inPcie (a len : Nat) : Bool := 0x10000000000 ≤ a && a + len ≤ 0x20000000000

/-- The data that a DREF at an offset of the payload names, or the refusal. The bytes of the PCIe window are not held by
the module: they are a free value (notes/assumptions/7.md). -/
def drefData (m : Dg) (c : Cmd) (off : Nat) : Dg × Except (Nat × Nat) (List Byte) :=
  let kind := c.f off 1
  let len := c.f (off + 4) 4
  let addr := c.f (off + 8) 8
  match drefKind c off with
  | some bad => (m, .error (stInvalid, 32 + bad))
  | none =>
  if kind = 0 then
    if addr ≠ 0 then (m, .error (stInvalid, 32 + off + 8))
    else if c.payload.length ≠ off + 16 + len then (m, .error (stInvalid, 24))
    else (m, .ok (c.payload.drop (off + 16)))
  else if c.payload.length ≠ off + 16 then (m, .error (stInvalid, 24))
  else if inPcie addr len ∧ (c.ep = 0x3E ∨ 1 ≤ c.ep ∧ c.ep ≤ 0x34 ∧ inReach m c.ep false addr len) then
    let (m, v) := draw m
    (m, .ok (leBytes len v))
  else if 1 ≤ c.ep ∧ c.ep ≤ 0x34 ∧ inReach m c.ep false addr len then
    match partAddr m c.ep addr with
    | none => (m, .error (stDenied, 4))
    | some a => match readSpan m viaPort1 a len with
      | (m, some l) => (m, .ok l)
      | (m, none) => (m, .error (stFailed, 5))
  else (m, .error (stDenied, 4))

/-! ### Sessions -/

/-- The idle time of a role from the blob (R382, R426). -/
def roleIdle (m : Dg) (role : Nat) : Nat := modField m (48 + 4 * (role - 1)) 4 300

/-- A handle that is not 0 and not open, from a random number (R375). -/
def freshHandle (m : Dg) (r : Nat) : Nat :=
  (((List.range 64).map fun i => (r + i) % (2 ^ 32 - 1) + 1).find? fun h => (sessionOf m h).isNone).getD (r % (2 ^ 32 - 1) + 1)

/-- SESSION_OPEN, R375, R383. -/
def execSessionOpen (pair tag : Nat) (s : State) : Host.Outcome State Fault Refusal :=
  run s fun m => carryOut m pair tag 0x0001 fun m c =>
    let role := c.f 0 1
    let card := c.f 1 1
    let k := 8 * pair + role
    if c.payload.length ≠ 8 then (m, badLen)
    else if role = 0 ∨ 6 < role then (m, badField 0)
    else if (role = 6 ∧ card ≠ 1 ∧ card ≠ 2) ∨ (role ≠ 6 ∧ card ≠ 0) then (m, badField 1)
    else if c.f 2 2 ≠ 0 then (m, badField 2)
    else if m.now < SMap.get m.mbx.lockUntil k then
      (m, .err stLockedOut (min ((SMap.get m.mbx.lockUntil k - m.now + second - 1) / second) 65535))
    else if 32 ≤ m.mbx.sessions.length then (m, .err stLimit 1)
    else if !m.sec.trngOk then (m, .err stFailed 0)
    else
      let (m, r) := draw m
      let (m, ch) := draw m
      let h := freshHandle m r
      let want := c.f 4 4
      let idle := if want = 0 then roleIdle m role else min want (roleIdle m role)
      let ss : Session := ⟨h, role, pair, c.ep, card, ch % 2 ^ 384, false, m.now, m.now, idle, none⟩
      ({ m with mbx := { m.mbx with sessions := m.mbx.sessions ++ [ss] } }, .ok (leBytes 4 h ++ leBytes 48 ch))

/-- The proof string of R377. -/
def proofString (ss : Session) : List Byte :=
  ascii "DG9-SESSION1" ++ leBytes 48 ss.challenge ++ deviceId ++ leBytes 1 ss.role ++ leBytes 1 ss.pair ++ leBytes 4 ss.handle

def roleKey (m : Dg) (role idx : Nat) : RoleKey := SMap.get m.mbx.keys (4 * role + idx)

/-- R383: duration of the lockout after the n-th consecutive failure, in s. -/
def lockSeconds (n : Nat) : Nat := min (60 * 2 ^ (min (n - 4) 10)) 3600

/-- R381, R383: a failed proof closes the session, is counted and reported, and may lock the role on the pair. -/
def proofFailed (m : Dg) (c : Cmd) (ss : Session) : Dg :=
  let k := 8 * ss.pair + ss.role
  let n := SMap.get m.mbx.fails k + 1
  let m := endSession (dropCmd m c.pair c.tag) ss.handle false
  let m := { m with mbx := { m.mbx with fails := SMap.set m.mbx.fails k n } }
  let m := exeshReport m kSessionAuthFail (ss.pair + 32 * ss.role) 0 ss.ep
  if n < 4 then m
  else exeshReport { m with mbx := { m.mbx with lockUntil := SMap.set m.mbx.lockUntil k (m.now + lockSeconds n * second) } }
    kSessionLockout (ss.pair + 32 * ss.role) 0 ss.ep

/-- A successful proof (R376, R383). -/
def proofOk (m : Dg) (ss : Session) (key : Option Nat) : Dg :=
  { m with mbx := { m.mbx with
      fails := SMap.set m.mbx.fails (8 * ss.pair + ss.role) 0,
      sessions := m.mbx.sessions.map fun x =>
        if x.handle == ss.handle then { x with auth := true, key := key, lastTime := m.now } else x } }

/-- The OK payload of SESSION_AUTH. -/
def authPayload (ss : Session) : List Byte := leBytes 8 (pack [(8, ss.role), (24, 0), (32, ss.idleS)])

/-- R378: the hash of a passphrase with its salt. -/
def passHash (pass : List Byte) (salt : Nat) : List Byte := pbkdf2 pass (leBytes 16 salt) 200000

/-- The proofs of METHOD 1 to 3 (R377, R378). -/
def proofVerifies (m : Dg) (ss : Session) (method idx : Nat) (proof : List Byte) : Bool :=
  let k := roleKey m ss.role idx
  match method with
  | 1 => k.alg == 1 && dsaVerify k.key "" (proofString ss) proof
  | 2 => k.alg == 2 && ecdsaVerify k.key (proofString ss) proof
  | _ => match m.mbx.pass with
    | some (salt, hash) => ofLe (passHash proof salt) == hash
    | none => false

/-- PROOF_LEN fits the method (R377 to R379). -/
def proofLenOk (method len : Nat) : Bool :=
  match method with
  | 1 => len == 3309
  | 2 => len == 96
  | 3 => 16 ≤ len && len ≤ 64
  | _ => len == 0

/-- A byte lies in a range. -/
def byteIn (lo hi : Nat) (b : Byte) : Bool := lo ≤ b.toNat && b.toNat ≤ hi

/-- A list of bytes is well-formed UTF-8 (R378); the fuel is its length. -/
def utf8Ok : Nat → List Byte → Bool
  | _, [] => true
  | 0, _ :: _ => false
  | n + 1, a :: l =>
    let next (lo hi : Nat) (k : Nat) : Bool :=
      (l.head?.any (byteIn lo hi)) && ((l.drop 1).take (k - 1)).all (byteIn 0x80 0xBF) && k ≤ l.length && utf8Ok n (l.drop k)
    let v := a.toNat
    if v < 0x80 then utf8Ok n l
    else if 0xC2 ≤ v ∧ v ≤ 0xDF then next 0x80 0xBF 1
    else if v = 0xE0 then next 0xA0 0xBF 2
    else if v = 0xED then next 0x80 0x9F 2
    else if 0xE1 ≤ v ∧ v ≤ 0xEF then next 0x80 0xBF 2
    else if v = 0xF0 then next 0x90 0xBF 3
    else if 0xF1 ≤ v ∧ v ≤ 0xF3 then next 0x80 0xBF 3
    else if v = 0xF4 then next 0x80 0x8F 3
    else false

/-- R378: a passphrase is UTF-8. -/
def isUtf8 (l : List Byte) : Bool := utf8Ok l.length l

/-- Values of Fi, and of Di, of ISO/IEC 7816-3 (R539, notes/assumptions/125.md). -/
def cardFi : List Nat := [372, 558, 744, 1116, 1488, 1860, 512, 768, 1024, 1536, 2048]
def cardDi : List Nat := [1, 2, 4, 8, 16, 32, 64, 12, 20]

/-- The clock of a slot in kHz: that of its CARD record, 4 MHz by default (R539). -/
def cardClock (m : Dg) (n : Nat) : Nat :=
  match recBy m 0x001F 0 1 n with
  | some r => if r.f 22 2 = 0 then 4000 else r.f 22 2
  | none => 4000

/-- Fi and Di that the negotiation with a card ends in: a free pair of the standard's values whose elementary time unit is at
least 1.6 µs, 372 and 1 otherwise (R539). -/
def cardRate (khz r : Nat) : Nat × Nat :=
  let f := cardFi.getD (r % 11) 372
  let d := cardDi.getD (r / 11 % 9) 1
  if 16 * d * khz ≤ 10000 * f then (f, d) else (372, 1)

/-- R539: a card that is PRESENT is activated: class B is tried first and then class A. -/
def cardUp (m : Dg) (n : Nat) : Dg :=
  if (getCard m n).st ≠ .present then m
  else
    let (m, r) := draw m
    updSec m fun x => { x with card := SMap.upd x.card n fun k =>
      { k with st := .active, clsB := k.answersB, protoT1 := k.answersT1, vccA := !k.answersB, vccB := k.answersB, clkKHz := cardClock m n,
               fi := (cardRate (cardClock m n) r).1, di := (cardRate (cardClock m n) r).2 } }

/-- SESSION_AUTH, R376 to R383; METHOD 4 waits for the card (R541). -/
def execSessionAuth (pair tag : Nat) (s : State) : Host.Outcome State Fault Refusal :=
  run s fun m => carryOut m pair tag 0x0002 fun m c =>
    let method := c.f 0 1
    let idx := c.f 1 1
    let len := c.f 4 4
    match sessionOf m c.session with
    | none => (m, .err stNoSession 0)
    | some ss =>
      if c.payload.length < 8 then (m, badLen)
      else if method = 0 ∨ 4 < method ∨ (method = 3 ∧ ss.role ≠ 4) ∨ ((method = 4) ≠ (ss.role = 6)) then (m, badField 0)
      else if 4 ≤ idx then (m, badField 1)
      else if c.f 2 2 ≠ 0 then (m, badField 2)
      else if !proofLenOk method len then (m, badField 4)
      else if c.payload.length ≠ 8 + len then (m, badLen)
      else if method = 3 ∧ !isUtf8 (c.payload.drop 8) then (m, badField 8)
      else if ss.auth then (m, .err stInvalid 0xFFFF)
      else if method = 4 then
        if (getCard m ss.card).authCmd.isSome then (m, .err stBusy 2)
        else
          let m := cardUp m ss.card
          (updSec m fun x => { x with card := SMap.upd x.card ss.card fun k => { k with authCmd := some (pair, tag) } }, .wait)
      else if proofVerifies m ss method idx (c.payload.drop 8) then
        (proofOk m ss (if method = 3 then none else some idx), .ok (authPayload ss))
      else (proofFailed m c ss, .err stAuthFailed 0)

/-- SESSION_CLOSE, R382. -/
def execSessionClose (pair tag : Nat) (s : State) : Host.Outcome State Fault Refusal :=
  run s fun m => carryOut m pair tag 0x0003 fun m c =>
    if c.payload.length ≠ 0 then (m, badLen)
    else (endSession (dropCmd m pair tag) c.session true, .ok [])

/-- Commands of a session that are outstanding. -/
def sessionOut (m : Dg) (h : Nat) : Nat := (m.mbx.out.filter fun c => c.session == h).length

/-- SESSION_QUERY, R376, R382. -/
def execSessionQuery (pair tag : Nat) (s : State) : Host.Outcome State Fault Refusal :=
  run s fun m => carryOut m pair tag 0x0004 fun m c =>
    match sessionOf m c.session with
    | none => (m, .err stNoSession 0)
    | some ss =>
      if c.payload.length ≠ 0 then (m, badLen)
      else (m, .ok (leBytes 8 (pack [(8, ss.role), (8, if ss.auth then 2 else 1), (16, sessionOut m ss.handle),
        (32, ss.idleS - (m.now - ss.lastTime) / second)])))

/-- CHALLENGE_TIMEOUT, R376: 30 s after SESSION_OPEN, while no proof has arrived. -/
def execChallengeTimeout (handle : Nat) (s : State) : Host.Outcome State Fault Refusal :=
  run s fun m =>
    match sessionOf m handle with
    | none => m
    | some ss =>
      if ss.auth ∨ m.now < ss.openTime + 30 * second ∨ m.mbx.out.any (fun c => c.session == handle && c.op == 0x0002) then m
      else endSession m handle false

/-- SESSION_IDLE_TIMEOUT, R382. -/
def execSessionIdleTimeout (handle : Nat) (s : State) : Host.Outcome State Fault Refusal :=
  run s fun m =>
    match sessionOf m handle with
    | none => m
    | some ss =>
      if !ss.auth ∨ m.now < ss.lastTime + ss.idleS * second ∨ sessionOut m handle ≠ 0 then m
      else endSession m handle false

/-! ### Role keys and the passphrase -/

/-- Keys installed for a role. -/
def keysOf (m : Dg) (role : Nat) : Nat := ((List.range 4).filter fun i => (roleKey m role i).alg != 0).length

/-- Table 07.8: may a session of a role set or revoke the keys of another. -/
def maySetKey (m : Dg) (sess role : Nat) : Bool :=
  match role with
  | 2 => sess == 2 || (sess == 1 && keysOf m 2 == 0)
  | 3 => sess == 2
  | 4 => sess == 2 || sess == 3
  | 5 => sess == 5 || (sess == 1 && keysOf m 5 == 0)
  | _ => false

/-- R518: a change of the key records is counted and measured. -/
def keyChange (m : Dg) (op role idx alg : Nat) (what : List Byte) : Dg :=
  measExtend (ctrInc m 5) 7 ([op, role, idx, alg].map (BitVec.ofNat 8) ++ sha384Of what)

/-- R518: a key record under the storage key: a fresh IV, then ciphertext and tag. -/
def putRecord (m : Dg) (i : Nat) (plain : List Byte) : Dg :=
  let (m, r) := draw m
  let iv := leBytes 12 r
  storeRecord m (keyAddr i) (iv ++ gcmEncrypt storageKey iv [] plain)

/-- A role key, or none, stored in its key record. -/
def setKey (m : Dg) (role idx : Nat) (k : RoleKey) : Dg :=
  let m := putRecord m (4 * role + idx)
    ([role, idx, k.alg, 0].map (BitVec.ofNat 8) ++ leBytes 4 k.key.length ++ k.key)
  { m with mbx := { m.mbx with keys := SMap.set m.mbx.keys (4 * role + idx) k } }

/-- The passphrase's salt and hash stored in their key record. -/
def setPass (m : Dg) (salt : Nat) (hash : List Byte) : Dg :=
  let m := putRecord m 31 (leBytes 16 salt ++ hash)
  { m with mbx := { m.mbx with pass := some (salt, ofLe hash) } }

/-- ROLE_KEY_SET, R384, R518. -/
def execRoleKeySet (pair tag : Nat) (s : State) : Host.Outcome State Fault Refusal :=
  run s fun m => carryOut m pair tag 0x0005 fun m c =>
    let role := c.f 0 1
    let idx := c.f 1 1
    let alg := c.f 2 1
    let key := c.payload.drop 8
    if 1 ≤ role ∧ role ≤ 6 ∧ !maySetKey m (c.role m) role then (m, .err stDenied 1)
    else if c.payload.length < 8 then (m, badLen)
    else if role = 0 ∨ 5 < role then (m, badField 0)
    else if 4 ≤ idx then (m, badField 1)
    else if alg = 0 ∨ 2 < alg then (m, badField 2)
    else if c.f 3 1 ≠ 0 then (m, badField 3)
    else if c.f 4 4 ≠ (if alg = 1 then 1952 else 97) then (m, badField 4)
    else if c.payload.length ≠ 8 + c.f 4 4 then (m, badLen)
    else (keyChange (setKey m role idx ⟨alg, key⟩) 1 role idx alg key, .ok [])

/-- ROLE_KEY_REVOKE, R384, R382, R518. -/
def execRoleKeyRevoke (pair tag : Nat) (s : State) : Host.Outcome State Fault Refusal :=
  run s fun m => carryOut m pair tag 0x0006 fun m c =>
    let role := c.f 0 1
    let idx := c.f 1 1
    let k := roleKey m role idx
    if 1 ≤ role ∧ role ≤ 6 ∧ !maySetKey m (c.role m) role then (m, .err stDenied 1)
    else if c.payload.length ≠ 2 then (m, badLen)
    else if role = 0 ∨ 5 < role then (m, badField 0)
    else if 4 ≤ idx ∨ k.alg = 0 then (m, badField 1)
    else if role = 2 ∧ keysOf m 2 = 1 then conflict m c
    else
      let m := keyChange (setKey m role idx default) 2 role idx k.alg k.key
      let proved := m.mbx.sessions.filter fun x => x.auth && x.role == role && x.key == some idx && x.handle != c.session
      let own := m.mbx.sessions.filter fun x => x.auth && x.role == role && x.key == some idx && x.handle == c.session
      let m := proved.foldl (fun m x => endSession m x.handle false) m
      (if own.isEmpty then m else endSession (dropCmd m pair tag) c.session false, .ok [])

/-- PASSPHRASE_SET, R378, R518. -/
def execPassphraseSet (pair tag : Nat) (s : State) : Host.Outcome State Fault Refusal :=
  run s fun m => carryOut m pair tag 0x0007 fun m c =>
    let len := c.f 0 4
    if c.payload.length < 4 then (m, badLen)
    else if len < 16 ∨ 64 < len then (m, badField 0)
    else if c.payload.length ≠ 4 + len then (m, badLen)
    else if !isUtf8 (c.payload.drop 4) then (m, badField 4)
    else if !m.sec.trngOk then (m, .err stFailed 0)
    else
      let (m, r) := draw m
      let salt := r % 2 ^ 128
      (keyChange (setPass m salt (passHash (c.payload.drop 4) salt)) 3 4 0 0 (leBytes 16 salt), .ok [])

/-! ### Identity, version, attestation -/

/-- IDENTITY_GET, R517. -/
def execIdentityGet (pair tag : Nat) (s : State) : Host.Outcome State Fault Refusal :=
  run s fun m => carryOut m pair tag 0x0010 fun m c =>
    if c.payload.length ≠ 0 then (m, badLen)
    else (m, .ok (deviceId ++ leBytes 8 (featWord m.part false 0) ++ leBytes 8 (featWord m.part false 7)))

/-- VERSION of an image that a bank holds, 0 for none. -/
def heldVersion (m : Dg) (b : Nat) : Nat := if imgHeld m b then imgVersion m b else 0

/-- VERSION_GET, R385, Table 07.10. -/
def execVersionGet (pair tag : Nat) (s : State) : Host.Outcome State Fault Refusal :=
  run s fun m => carryOut m pair tag 0x0011 fun m c =>
    if c.payload.length ≠ 0 then (m, badLen)
    else
      let act := m.boot.cfgActive
      let staged := 1 - act
      let dig (b : Nat) : List Byte := if imgHeld m b then blobDigest m b else List.replicate 48 0
      (m, .ok (leBytes 8 m.mbx.ver ++ leBytes 8 (heldVersion m (1 - m.mbx.bank)) ++ leBytes 8 m.mbx.bank ++
        leBytes 8 (heldVersion m 2) ++ leBytes 8 (heldVersion m 3) ++ dig (4 + act) ++
        (if m.boot.cfgFallback == some staged then List.replicate 48 0 else dig (4 + staged))))

/-- ATTEST, R523: SEC has built the report from the state at the claim; the signatures follow. -/
def execAttest (pair tag : Nat) (s : State) : Host.Outcome State Fault Refusal :=
  run s fun m => carryOut m pair tag 0x0012 fun m c =>
    let len := c.f 0 4
    if c.payload.length < 4 then (m, badLen)
    else if len < 16 ∨ 64 < len then (m, badField 0)
    else if c.payload.length ≠ 4 + len then (m, badLen)
    else (m, .wait)

/-- ATTESTATION_COMPLETE, R523: both signatures are made and ATTEST is answered; FAILED while an engine that signs is out of service
(R520, notes/assumptions/69.md). -/
def execAttestationComplete (pair tag : Nat) (s : State) : Host.Outcome State Fault Refusal :=
  run s fun m =>
    match m.sec.attest.find? fun e => e.1 == (pair, tag) with
    | none => m
    | some e =>
      if (findCmd m pair tag).all fun c => c.phase != .running then m
      else
        let m := updSec m fun x => { x with attest := x.attest.filter fun a => a.1 != (pair, tag) }
        if !signersUp m then finishAt m (some (pair, tag)) stFailed 0 []
        else
          let (m, r1) := draw m
          let (m, r2) := draw m
          finishAt m (some (pair, tag)) stOk 0 (e.2 ++ idSigs "DG9-ATTEST" e.2 r1 r2)

/-- IDENTITY_KEYS_GET, R517. -/
def execIdentityKeysGet (pair tag : Nat) (s : State) : Host.Outcome State Fault Refusal :=
  run s fun m => carryOut m pair tag 0x0013 fun m c =>
    if c.payload.length ≠ 0 then (m, badLen) else (m, .ok idKeys)

end Sys2Proof.Machine
end

