-- ==== Sys2Proof/Machine/FixOps.lean ====
section
/-! DEFINITION. Fixative's operations (spec/09 R494 to R504, R507, R508): profiles, engagement, last-word frames, release. -/
namespace Sys2Proof.Machine

def updFix (m : Dg) (f : Fix → Fix) : Dg := { m with fix := f m.fix }
def getFixCh (m : Dg) (n : Nat) : FixCh := SMap.get m.fix.ch n
def updFixCh (m : Dg) (n : Nat) (f : FixCh → FixCh) : Dg := updFix m fun x => { x with ch := SMap.upd x.ch n f }
def updFixFr (m : Dg) (n : Nat) (f : FixFr → FixFr) : Dg := updFix m fun x => { x with fr := SMap.upd x.fr n f }

/-- Units of the time base in 1 ms. -/
def unitsPerMs : Nat := 62500

/-! ### Profiles -/

/-- Hold time in ticks; a stale channel has none (R497). -/
def FixCh.holdTicks (c : FixCh) : Nat := if c.staleHeld then 0 else 10 * c.holdMs

/-- R498: the value that a channel drives at tick `k`. -/
def FixCh.valueAt (c : FixCh) (k : Nat) : Nat :=
  let h := c.holdTicks
  let r := 10 * c.rampMs
  if c.forced then c.safe
  else if k < h then c.holdVal
  else if k < h + r then
    ((c.holdVal : Int) + Int.tdiv (((c.safe : Int) - (c.holdVal : Int)) * ((k - h : Nat) : Int)) (r : Int)).toNat
  else c.safe

/-- The channel drives S at tick `k` (R498). -/
def FixCh.atSafe (c : FixCh) (k : Nat) : Bool := c.valueAt k == c.safe

/-- PHASE of a channel when `next` is the number of the next tick (Table 09.15): hold until tick 0, then as its last tick has it. -/
def FixCh.phase (c : FixCh) (next : Nat) : Nat :=
  let k := next - 1
  if c.forced then 3 else if next = 0 ∨ k < c.holdTicks then 1 else if k < c.holdTicks + 10 * c.rampMs then 2 else 3

/-- R497: the latch of a channel at engagement. -/
def FixCh.latch (now : Nat) (c : FixCh) : FixCh :=
  let h := if c.hasArmed then c.armed else c.safe
  let stale := c.hasArmed && c.staleMs != 0 && c.staleMs * unitsPerMs < now - c.armTime
  { c with holdVal := h, out := h, staleHeld := stale, forced := false }

/-- A frame at the beginning of an engagement. -/
def FixFr.restart (f : FixFr) : FixFr :=
  { f with txcount := 0, counter := 0, txerr := false, queued := none, stopped := false }

/-! ### The output lands of plant I/O -/

/-- The level that an output drives onto its land, if any: GPIO mode 1 push-pull, 2 open-drain. -/
def driveLevel (mode : Option Nat) (level driven : Bool) : Option Bool :=
  match mode with
  | some 1 => if driven then some level else none
  | some 2 => if driven && !level then some false else none
  | _ => none

/-- The level at a GPIO land that the module drives: Fixative's while it is engaged, else the value that last reached the land
(R495, R574). -/
def gpioDrives (m : Dg) (g : Nat) : Option Bool :=
  let x := SMap.get m.net.gpio g
  let c := getFixCh m (96 + g)
  if m.fix.engaged && c.configured then driveLevel x.mode (bit c.out 0) (bit c.out 1)
  else driveLevel x.mode x.curLevel x.curDriven

/-- R574: the commanded value of a GPIO reaches its land. -/
def Gpio.commit (x : Gpio) : Gpio := { x with curLevel := x.level, curDriven := x.driven }

/-- A driven GPIO land takes its level. -/
def driveGpio (m : Dg) (g : Nat) : Dg :=
  match gpioDrives m g with
  | some b => { m with net := { m.net with gpio := SMap.upd m.net.gpio g fun x => { x with sensed := b } } }
  | none => m

/-- Fixative's value of a channel reaches its land at once (R498, R569). -/
def driveChannel (m : Dg) (n : Nat) : Dg :=
  let c := getFixCh m n
  if n < 96 then
    if (SMap.get m.net.tmr n).mode = 3 then
      { m with net := { m.net with tmr := SMap.upd m.net.tmr n fun x => { x with curDuty := c.out } } }
    else m
  else if n < 144 then driveGpio m (n - 96)
  else m

/-- The configured channels. -/
def fixChans (m : Dg) : List Nat := SMap.keysWhere m.fix.ch (·.configured)

/-! ### Engagement and release -/

/-- The SAFESTATE_RELEASE that waits for RAMPS_DONE. -/
def releaseCmd (m : Dg) : Option Cmd := m.mbx.out.find? fun c => c.op == 0x0055 && c.phase == .running

/-- R508: a new engagement cause ends the wait for release. -/
def endReleaseWait (m : Dg) : Dg :=
  if m.fix.releasing then
    let m := updFix m fun x => { x with releasing := false }
    match releaseCmd m with
    | some c => finish m c stBusy 2 []
    | none => m
  else m

/-- R495: the frames at a port that entered the switch at an internal port are discarded and counted (DROP_CNT). -/
def holdEgress (x : EthPort) : EthPort :=
  { x with egress := x.egress.filter fun f => !f.internal, drops := min (x.drops + (x.egress.filter (·.internal)).length) 65535 }

/-- R394: the loopback tests of the ports that the last-word frames use end when Fixative takes the ports. -/
def claimPorts (m : Dg) : Dg :=
  (m.net.loops.filter fun l => m.fix.fr.any fun e =>
    e.2.configured && (l.cls == 1 && e.2.port == l.index || l.cls == 3 && e.2.port == 16 + l.index)).foldl loopCut m

/-- R494 step 4: a controller stops transmitting from its fabric queues: the message on offer is released unsent, unless its frame is
already on the line, which completes. Whether it is, no command tells: a free value (notes/assumptions/123.md). -/
def stopOffer (m : Dg) (n : Nat) : Dg :=
  let c := SMap.get m.net.can n
  match c.offered with
  | none => m
  | some o =>
    let (m, v) := draw m
    let onLine := (c.st == .active || c.st == .passive) && v % 2 == 1
    if o.fix ∨ onLine then m
    else releaseQ { m with net := { m.net with can := SMap.upd m.net.can n fun c => { c with offered := none } } } o.n

/-- R507, R510: last-word frames on offer to arbitration are taken back. -/
def dropOffers (m : Dg) (p : Nat → Bool) : Dg :=
  { m with net := { m.net with can := m.net.can.map fun (e : Nat × CanCtl) =>
    match e.2.offered with
    | some o => if o.fix && p o.n then (e.1, { e.2 with offered := none }) else e
    | none => e } }

/-- R503: an Ethernet port keeps the secure associations of the engagement for the last-word frames. -/
def latchSaks (x : EthPort) : EthPort := { x with fixSaks := x.saks }

/-- R494, R497, Table 09.10: Fixative engages with the message that selected it; while it is engaged only the wait for a
release ends. -/
def engage (m : Dg) (src kind : Nat) (chip : Bool) : Dg :=
  if m.fix.engaged then endReleaseWait m
  else
    let m := updFix m fun x =>
      { x with engaged := true, chipLvl := chip, rampsDone := false, releasing := false, causeSrc := src, causeKind := kind,
               engageTime := m.now, tick := 0, resetDone := false,
               ch := x.ch.map fun e => (e.1, e.2.latch m.now), fr := x.fr.map fun e => (e.1, e.2.restart) }
    let m : Dg := { m with net := { m.net with eth := m.net.eth.map fun e => (e.1, latchSaks (holdEgress e.2)) } }
    let m := claimPorts ((m.net.can.map (·.1)).foldl stopOffer m)
    reportOpen ((fixChans m).foldl driveChannel m) 0x0CF kSafeEngaged 0

/-- R507: the safe state is released. -/
def releaseSafe (m : Dg) : Dg :=
  let m := updFix m fun x =>
    { x with engaged := false, chipLvl := false, rampsDone := false, releasing := false,
             fr := x.fr.map fun e => (e.1, { e.2 with queued := none }) }
  let m : Dg := { m with net := { m.net with
    tmr := m.net.tmr.map fun (e : Nat × Timer) => if e.2.mode = 2 then (e.1, { e.2 with curValue := e.2.value }) else e,
    gpio := m.net.gpio.map fun e => (e.1, e.2.commit),
    eth := m.net.eth.map fun e => (e.1, { e.2 with fixSaks := [] }) } }
  let m := dropOffers m fun _ => true
  let m := (List.range 48).foldl driveGpio { m with fcr := { m.fcr with chipSafe := false } }
  reportOpen (endCond m 0x0CF kSafeEngaged) 0x0CF kSafeReleased 0

/-! ### Last-word frames -/

/-- A number as bytes in either order. -/
def orderBytes (big : Bool) (n v : Nat) : List Byte := if big then (leBytes n v).reverse else leBytes n v

/-- A channel value inserted into a frame (Table 09.13). -/
def insertVal (m : Dg) (v : Option FixVal) (l : List Byte) : List Byte :=
  match v with
  | some v => overlay l v.off (orderBytes v.big (if v.wide then 2 else 1) (getFixCh m v.ch).out)
  | none => l

/-- The counter of a frame: the template's value plus the number of this transmission, modulo its width. -/
def FixFr.count (f : FixFr) (n : Nat) : Nat :=
  match f.cnt with
  | some (off, true) => (leAt f.template off 1 % 16 + n) % 16
  | some (off, false) => (leAt f.template off 1 + n) % 256
  | none => 0

def FixFr.insertCnt (f : FixFr) (n : Nat) (l : List Byte) : List Byte :=
  match f.cnt with
  | some (off, narrow) => overlay l off (leBytes 1 (if narrow then leAt l off 1 / 16 * 16 + f.count n else f.count n))
  | none => l

/-- The check field over DATA_ID and the covered bytes: CRC-8/SAE-J1850 or CRC-16/CCITT with the values of Table 02.12. -/
def FixFr.insertCrc (f : FixFr) (l : List Byte) : List Byte :=
  match f.crc with
  | some c =>
    let data := leBytes 2 c.dataId ++ (l.drop c.first).take (c.last + 1 - c.first)
    if c.crc16 then overlay l c.off (orderBytes true 2 (data.foldl (fun a b => crcByteMsb 16 0x1021 a b.toNat) 0xFFFF))
    else overlay l c.off (leBytes 1 (data.foldl (fun a b => crcByteMsb 8 0x1D a b.toNat) 0xFF ^^^ 0xFF))
  | none => l

/-- R502: the frame as it is built for transmission `n` since engagement. -/
def buildFrame (m : Dg) (f : FixFr) (n : Nat) : List Byte :=
  f.insertCrc (f.insertCnt n (insertVal m f.val1 (insertVal m f.val0 (fit f.len f.template))))

/-- R502: a frame is due at tick `k`. -/
def FixFr.dueAt (f : FixFr) (k : Nat) : Bool :=
  f.configured && !f.stopped && 10 * f.offsetMs ≤ k && f.periodMs != 0 && (k - 10 * f.offsetMs) % (10 * f.periodMs) == 0

/-- R502, R503: the frame of tick `k` is queued; one still queued is replaced and reported. -/
def queueFrame (m : Dg) (n : Nat) : Dg :=
  let f := SMap.get m.fix.fr n
  let late := f.queued.isSome
  let b := buildFrame m f (f.txcount + 1)
  let m := updFixFr m n fun f => { f with queued := some b, txerr := late }
  let m : Dg := { m with net := { m.net with can := m.net.can.map fun (e : Nat × CanCtl) => match e.2.offered with
    | some o => if o.fix && o.n == n then (e.1, { e.2 with offered := some { o with bytes := b } }) else e
    | none => e } }
  if late then reportOwn m 0x0CF kSsqTxFail n 0 else m

/-- R503: the transmission of a frame has completed without error. -/
def frameSent (m : Dg) (n : Nat) : Dg :=
  updFixFr m n fun f =>
    { f with queued := none, txcount := (f.txcount + 1) % 2 ^ 32, counter := f.count (f.txcount + 1) }

end Sys2Proof.Machine
end

