-- ==== Sys2Proof/Machine/NetOps.lean ====
section
/-! DEFINITION. Operations of the network and plant I/O blocks (spec/11): lands and ownership, the delivery of received
messages, transmit messages, switch forwarding, the resets of BLOCK_RESET. -/
namespace Sys2Proof.Machine

def updNet (m : Dg) (f : Net → Net) : Dg := { m with net := f m.net }
def getCan (m : Dg) (n : Nat) : CanCtl := SMap.get m.net.can n
def updCan (m : Dg) (n : Nat) (f : CanCtl → CanCtl) : Dg := updNet m fun x => { x with can := SMap.upd x.can n f }
def getLin (m : Dg) (n : Nat) : LinCtl := SMap.get m.net.lin n
def updLin (m : Dg) (n : Nat) (f : LinCtl → LinCtl) : Dg := updNet m fun x => { x with lin := SMap.upd x.lin n f }
def getEth (m : Dg) (p : Nat) : EthPort := SMap.get m.net.eth p
def updEth (m : Dg) (p : Nat) (f : EthPort → EthPort) : Dg := updNet m fun x => { x with eth := SMap.upd x.eth p f }
def getTmr (m : Dg) (n : Nat) : Timer := SMap.get m.net.tmr n
def updTmr (m : Dg) (n : Nat) (f : Timer → Timer) : Dg := updNet m fun x => { x with tmr := SMap.upd x.tmr n f }
def getGpio (m : Dg) (n : Nat) : Gpio := SMap.get m.net.gpio n
def updGpio (m : Dg) (n : Nat) (f : Gpio → Gpio) : Dg := updNet m fun x => { x with gpio := SMap.upd x.gpio n f }
def updPci (m : Dg) (f : Pci → Pci) : Dg := updNet m fun x => { x with pci := f x.pci }

/-! Sources (Table 11.11). -/
def canSrc (n : Nat) : Nat := 0x090 + n
def linSrc (n : Nat) : Nat := 0x0A0 + n
def portSrc (p : Nat) : Nat := 0x0A8 + p
def switchSrc : Nat := 0x0B6
def pcieSrc : Nat := 0x0B7
def gnssSrc : Nat := 0x0B8
def pioSrc : Nat := 0x0C6

/-! ### Lands (Table 11.1) -/

/-- A land group carries function B. -/
def landBits (m : Dg) (group : Nat) : Bool :=
  match recBy m 0x0010 0 1 group with
  | some r => r.f 1 1 == 1
  | none => false

/-- R548: does a resource of an OWNER class have its land. -/
def hasLand (m : Dg) (cls i : Nat) : Bool :=
  match cls with
  | 1 => i < 12 || !landBits m 1
  | 2 => i < 4 || !landBits m 0
  | 4 => i < 88 || landBits m 1
  | 5 => if 40 ≤ i then landBits m 0 else if 32 ≤ i && i < 39 then landBits m 2 else true
  | 7 => i < 6 || !landBits m 3
  | 8 => i != 2 || !landBits m 2
  | _ => true

/-- R426, R573: the resource is opened: an OWNER record assigns it and it has its land. -/
def opened (m : Dg) (cls i : Nat) : Bool := (ownerOf m cls i).isSome && hasLand m cls i

/-! ### Messages -/

/-- The network header of Table 11.2. -/
def netHeader (port format flags id time : Nat) : List Byte :=
  leBytes 16 (pack [(8, port), (8, format), (16, flags), (32, id), (64, time)])

/-- R551: why a received message of a block cannot enter its queue. -/
def dropReason (m : Dg) (qid ep len : Nat) : Option Nat :=
  let x := getQ m qid
  if !queueUsable m x || x.prod (genOf m x) != ep then some 0
  else if x.free = 0 then some 1
  else if x.slotSize < 16 + len then some 2
  else if x.cls = 0 ∧ x.credits = 0 then some 3
  else none

/-- R551: a block publishes a received message, or drops and reports it; the flag tells that it was dropped. -/
def deliver (m : Dg) (src qid ep : Nat) (payload : List Byte) : Dg × Bool :=
  match dropReason m qid ep payload.length with
  | none => ((hwPublish m qid ep payload).1, false)
  | some r =>
    let m := if r = 3 then (hwPublish m qid ep payload).1 else m
    (reportOwn m src kRxDrop r 0, true)

/-- An event of a network block raises the interrupt sources routed for it (Table 08.16, IRQ with ORIGIN 2). -/
def netEvent (m : Dg) (src : Nat) : Dg := raiseOrigin m 2 src
/-- An event of plant I/O (ORIGIN 1). -/
def pioEvent (m : Dg) (src : Nat) : Dg := raiseOrigin m 1 src

/-- R552: the head of a transmit queue is released by its consumer unsent and reported, with its void code or 7. -/
def refuseTx (m : Dg) (src qid code : Nat) : Dg :=
  let x := getQ m qid
  reportOwn (hwTake m (x.cons (genOf m x)) qid).1 src kTxRefused code qid

/-- The partition that produces a queue. -/
def producerOf (m : Dg) (qid : Nat) : Nat := let x := getQ m qid; x.prod (genOf m x)

/-! ### CAN and LIN -/

def canRec (m : Dg) (n : Nat) : Option CfgRec := recBy m 0x0011 0 1 n
def linRec (m : Dg) (n : Nat) : Option CfgRec := recBy m 0x0013 0 1 n

/-- The controller takes part on the bus. -/
def canRuns (c : CanCtl) : Bool := c.st == .active || c.st == .passive

/-- R578: a CAN controller is reset and rejoins. -/
def resetCan (m : Dg) (n : Nat) : Dg :=
  updCan m n fun c => if c.st = .disabled then c else { c with st := .active, tec := 0, rec_ := 0, offered := none }

/-- R578: a LIN controller is reset. -/
def resetLin (m : Dg) (n : Nat) : Dg :=
  updLin m n fun c => if c.st = .disabled then c else { c with st := .active, pos := 0, await := none, out := none }

/-! ### The switch -/

def portRec (m : Dg) (p : Nat) : Option CfgRec := recBy m 0x0014 0 1 p

/-- R559: the largest frame of a port. -/
def maxFrame (m : Dg) (p : Nat) : Nat :=
  let lim := if p = 8 ∨ p = 9 then 1522 else 9216
  match portRec m p with
  | some r => min lim (r.f 6 2)
  | none => lim

/-- R578: a port loses its link; the switch core reports it with the port's source as subject. -/
def portDown (m : Dg) (p : Nat) : Dg :=
  let m := updEth m p fun x =>
    { x with st := .down, speed := 0, sqi := 0, sqiLow := false, linkdown := satInc 16 x.linkdown, egress := [] }
  let m := endCond m (portSrc p) kEthSqiLow
  netEvent (report m switchSrc kEthLinkDown (openDetail m switchSrc kEthLinkDown) 0 (portSrc p)) (portSrc p)

/-- R551, R563: a frame dropped at a port counts in its DROP_CNT. -/
def countDrop (m : Dg) (p : Nat) : Dg := updEth m p fun x => { x with drops := satInc 16 x.drops }

/-- Egress ports of a destination (R559): the static entry of the address and VLAN. -/
def egressOf (m : Dg) (dst vlan : Nat) : Nat :=
  match (recs m 0x0015).find? fun r => r.f 0 6 == dst && r.f 6 2 == vlan with
  | some r => r.f 8 2
  | none => 0

/-- R563: the queue that an internal port's mapping gives. -/
def mapQueue (m : Dg) (iport ingress vlan pcp : Nat) (stream : Option Nat) : Option Nat :=
  let l := (recs m 0x0016).filter fun r => r.f 0 1 == iport
  let byStream : Option CfgRec := match stream with
    | some h => l.find? fun r => r.f 1 1 == 0 && r.f 2 2 == h
    | none => none
  (byStream.or (l.find? fun (r : CfgRec) => r.f 1 1 == 1 && r.f 4 1 == ingress && r.f 2 2 == vlan && r.f 5 1 == pcp)).map fun (r : CfgRec) =>
    r.f 8 4

/-! ### TSN (R560): the functions of the standards that the rule names are PRESUMED (notes/assumptions/126.md) -/

/-- VLAN and PCP of the tag of a frame, 0 where it has none. -/
def vlanOf (data : List Byte) : Nat × Nat :=
  if leAt data 12 2 = 0x0081 then (leAt data 14 1 % 16 * 256 + leAt data 15 1, leAt data 14 1 / 32) else (0, 0)

/-- The records of an 802.1 function that hold for a port: its own, or those of the bridge. -/
def tsnRecs (m : Dg) (fn port : Nat) : List CfgRec :=
  (recs m 0x0017).filter fun r => r.f 1 1 == fn && (r.f 0 1 == port || r.f 0 1 == 0xFF)

/-- The record of a function with an INDEX. -/
def tsnRec (m : Dg) (fn port index : Nat) : Option CfgRec := (tsnRecs m fn port).find? fun r => r.f 2 2 == index

/-- The time of the gates in ns: 802.1AS time, or the time base while it is not synchronised. -/
def gateTime (m : Dg) : Nat := if bit m.net.gptpSync 0 then asNs m else 16 * m.now

/-- The entry of a gate control list in force `left` ns after the cycle began; the last one lasts to the cycle's end. -/
def gateWalk (r : CfgRec) : Nat → Nat → Nat → Nat
  | 0, i, _ => i
  | n + 1, i, left =>
    let d := 8 * r.f (28 + 8 * i) 4
    if n = 0 ∨ left < d then i else gateWalk r n (i + 1) (left - d)

/-- Gate states and byte 1 of the entry in force now; none where the list is empty. -/
def gateNow (m : Dg) (r : CfgRec) : Option (Nat × Nat) :=
  if r.f 20 2 = 0 then none
  else
    let cycle := r.f 16 4
    let i := gateWalk r (r.f 20 2) 0 ((gateTime m + cycle - r.f 8 8 % cycle) % cycle)
    some (r.f (24 + 8 * i) 1, r.f (25 + 8 * i) 1)

/-- 802.1Qbv: the gate of a priority at a port is open; the lists are suspended in a chip reset that Fixative holds the ports
through (R505). -/
def gateOpen (m : Dg) (port prio : Nat) : Bool :=
  (m.fix.engaged && m.boot.due.isSome) ||
  match ((tsnRecs m 2 port).head?).bind (gateNow m) with
  | some (states, _) => bit states prio
  | none => true

/-- The 802.1Qav record of a priority at a port. -/
def shaperOf (m : Dg) (port prio : Nat) : Option CfgRec := (tsnRecs m 6 port).find? fun r => r.f 8 1 == prio

/-- The credit of a class now: it grows with the idle slope. -/
def creditNow (m : Dg) (port prio : Nat) (r : CfgRec) : Int :=
  let x := SMap.get (getEth m port).credit prio
  x.val + ((r.f 16 8 * (m.now - x.at_) : Nat) : Int)

def setCredit (m : Dg) (port prio : Nat) (v : Int) : Dg :=
  updEth m port fun x => { x with credit := SMap.set x.credit prio ⟨v, m.now⟩ }

/-- A frame may leave a port: its gate is open, and the credit of its class is not below zero. -/
def maySend (m : Dg) (port : Nat) (f : EgressFrame) : Bool :=
  gateOpen m port f.prio && match shaperOf m port f.prio with
    | some r => decide (0 ≤ creditNow m port f.prio r)
    | none => true

/-- A frame joins the egress of a port; a class that had none waiting keeps no credit above zero. -/
def enqueue (m : Dg) (port : Nat) (f : EgressFrame) : Dg :=
  let m := match shaperOf m port f.prio with
    | some r =>
      if (getEth m port).egress.any fun g => g.prio == f.prio then m
      else setCredit m port f.prio (min 0 (creditNow m port f.prio r))
    | none => m
  updEth m port fun x => { x with egress := x.egress ++ [f] }

/-- A frame of the egress, by its place, has been sent: its bits are taken from the credit of its class. -/
def dequeue (m : Dg) (port i : Nat) (f : EgressFrame) : Dg :=
  let m := match shaperOf m port f.prio with
    | some r => setCredit m port f.prio (creditNow m port f.prio r - ((8 * f.data.length * second : Nat) : Int))
    | none => m
  updEth m port fun x => { x with egress := x.egress.eraseIdx i, sent := f.data }

/-- What is spent of a bucket after some time at a rate. -/
def refill (spent rate ticks : Nat) : Nat := spent - rate * ticks

/-- 802.1Qci flow meter: a frame is green, yellow or red (0, 1, 2) and takes its bytes from the bucket of its colour. -/
def meterRun (m : Dg) (r : CfgRec) (data : List Byte) : Dg × Nat :=
  let i := r.f 2 2
  let x := SMap.get m.net.meter i
  let t := m.now - x.at_
  let g := refill x.green (r.f 8 8) t
  let y := refill x.yellow (r.f 16 8) t
  let n := 8 * data.length * second
  let room (spent size : Nat) : Bool := spent + n ≤ 8 * size * second
  let dei := leAt data 12 2 == 0x0081 && bit (leAt data 14 1) 4
  let colour := if room g (r.f 24 4) && !(bit (r.f 32 1) 0 && dei) then 0 else if room y (r.f 28 4) then 1 else 2
  let x : Meter := ⟨if colour = 0 then g + n else g, if colour = 1 then y + n else y, m.now⟩
  (updNet m fun z => { z with meter := SMap.set z.meter i x }, colour)

/-- 802.1Qci: the first filter of a stream and priority; the frame's new priority, or none when size, gate or meter drops it. -/
def psfp (m : Dg) (port pcp : Nat) (stream : Option Nat) (data : List Byte) : Dg × Option Nat :=
  let hit := (tsnRecs m 3 port).find? fun r => stream == some (r.f 8 2) && (r.f 10 1 == pcp || r.f 10 1 == 0xFF)
  match hit with
  | none => (m, some pcp)
  | some r =>
    let (openGate, prio) := match (tsnRec m 4 port (r.f 12 2)).bind (gateNow m) with
      | some (states, ipv) => (bit states 0, if ipv = 0xFF then pcp else ipv)
      | none => (true, pcp)
    if (r.f 16 4 ≠ 0 ∧ r.f 16 4 < data.length) ∨ !openGate then (m, none)
    else match (if r.f 14 2 = 0xFFFF then none else tsnRec m 5 port (r.f 14 2)) with
      | none => (m, some prio)
      | some k =>
        let (m, colour) := meterRun m k data
        (m, if colour = 2 ∨ (colour = 1 ∧ bit (k.f 32 1) 1) then none else some prio)

/-- Where the EtherType of a frame stands behind its addresses and VLAN tag, and the sequence number of its R-TAG. -/
def typeAt (data : List Byte) : Nat := if leAt data 12 2 = 0x0081 then 16 else 12
def rtagOf (data : List Byte) : Option Nat :=
  let o := typeAt data
  if leAt data o 2 = 0xC1F1 ∧ o + 6 ≤ data.length then some (256 * leAt data (o + 4) 1 + leAt data (o + 5) 1) else none

/-- The vector recovery of 802.1CB for a sequence number: the new state, whether the frame is taken, whether a number leaves the
history unseen. -/
def frerStep (len resetMs now seq : Nat) (x : Frer) : Frer × Bool × Bool :=
  let ahead := (seq + 65536 - x.seq) % 65536
  let back := (x.seq + 65536 - seq) % 65536
  if !x.live ∨ x.at_ + resetMs * 62500 < now then (⟨true, seq, 1, 1, now⟩, true, false)
  else if back < len then
    if bit x.hist back then (x, false, false) else ({ x with hist := x.hist ||| 2 ^ back, at_ := now }, true, false)
  else if ahead < len then
    let out := (List.range ahead).any fun k => len - ahead + k < x.depth && !bit x.hist (len - ahead + k)
    (⟨true, seq, (x.hist * 2 ^ ahead + 1) % 2 ^ len, min len (x.depth + ahead), now⟩, true, out)
  else (x, false, false)

/-- 802.1CB recovery of a stream at a port: whether the frame is taken, and whether a loss is found. A frame without R-TAG is
taken. -/
def frerRun (m : Dg) (port : Nat) (stream : Option Nat) (data : List Byte) : Dg × Bool × Bool :=
  let hit := (tsnRecs m 7 port).find? fun r => stream == some (r.f 8 2) && bit (r.f 14 2) port
  match hit, rtagOf data with
  | some r, some seq =>
    let (x, takes, lost) := frerStep (r.f 10 1) (r.f 12 2) m.now seq (SMap.get m.net.frer (r.f 2 2))
    (updNet m fun z => { z with frer := SMap.set z.frer (r.f 2 2) x }, takes, lost)
  | _, _ => (m, true, false)

/-- 802.1CB sequence generation: a frame of the stream without R-TAG receives one. -/
def frerTag (m : Dg) (port : Nat) (stream : Option Nat) (data : List Byte) : Dg × List Byte :=
  match (tsnRecs m 8 port).find? fun r => stream == some (r.f 8 2) with
  | none => (m, data)
  | some r =>
    if (rtagOf data).isSome then (m, data)
    else
      let n := SMap.get m.net.seqGen (r.f 2 2)
      let o := typeAt data
      (updNet m fun z => { z with seqGen := SMap.set z.seqGen (r.f 2 2) ((n + 1) % 65536) },
        data.take o ++ [0xF1, 0xC1, 0, 0, BitVec.ofNat 8 (n / 256), BitVec.ofNat 8 n] ++ data.drop o)

/-- An Ethernet frame at an egress of the switch: an internal port turns it into a message, an external port queues it under its
priority. -/
def emit (m : Dg) (ingress vlan pcp : Nat) (stream : Option Nat) (macsec : Bool) (prio : Nat) (data : List Byte) (p : Nat) : Dg :=
  if p = 12 ∨ p = 13 then
    match mapQueue m p ingress vlan pcp stream with
    | none => countDrop (reportOwn m (portSrc p) kRxDrop 1 0) p
    | some q =>
      let hdr := netHeader p 5 (32 * b2n macsec) (stream.getD 0 + 65536 * pcp) m.now
      match deliver m (portSrc p) q (0x58 + (p - 12)) (hdr ++ data) with
      | (m, dropped) => netEvent (if dropped then countDrop m p else m) (portSrc p)
  else if p < 12 then
    if (getEth m p).st ≠ .up ∨ maxFrame m p < data.length then m
    else if m.fix.engaged ∧ (12 ≤ ingress ∨ m.boot.due.isSome) then countDrop m p
    else enqueue m p ⟨decide (12 ≤ ingress), prio, data⟩
  else m

/-- The switch forwards a frame to every egress port of its destination but the one that it came from. -/
def switchForward (m : Dg) (ingress dst vlan pcp : Nat) (stream : Option Nat) (macsec : Bool) (prio : Nat) (data : List Byte) : Dg :=
  let ports := egressOf m dst vlan
  let (m, data) := frerTag m ingress stream data
  ((List.range 14).filter fun p => bit ports p && p != ingress).foldl
    (fun m p => emit m ingress vlan pcp stream macsec prio data p) m

/-- R395, R564: a message of a mailbox pair in its Ethernet framing. -/
def mailFrame (dst src pair : Nat) (msg : List Byte) : List Byte :=
  leBytes 6 dst ++ leBytes 6 src ++ [0x88, 0xB5, BitVec.ofNat 8 pair, 0] ++ msg.drop 16

/-! ### Resets of BLOCK_RESET (Table 11.11) -/

def resetPcie (m : Dg) : Dg :=
  if m.net.pci.up then reportOpen (updPci m fun x => { x with up := false, gen := 0, width := 0 }) pcieSrc kPcieLinkDown 0
  else m

def resetCapture (m : Dg) : Dg :=
  updNet m fun x => { x with tmr := x.tmr.map fun e => if e.2.mode = 1 then (e.1, { e.2 with capture := 0 }) else e }

def resetPulse (m : Dg) : Dg := updNet m fun x => { x with pulse := [] }

/-- A converter's running scans stop and its samples are cleared. -/
def resetAdc (m : Dg) (conv : Nat) : Dg :=
  updNet m fun x =>
    { x with adc := x.adc.filter fun e => e.1 / 12 != conv,
             scan := x.scan.filter fun e => match recBy m 0x001C 0 1 e.1 with
               | some r => r.f 1 1 != conv || r.f 2 1 == 2
               | none => false }

end Sys2Proof.Machine
end

