-- ==== Sys2Proof/Machine/ResetOps.lean ====
section
/-! DEFINITION. The chip reset and what every start finds reset (spec/08 R411, R416; spec/09 R461, R467, R505; spec/12
R591), and the load of an Exesh image (spec/07 R351). -/
namespace Sys2Proof.Machine

def updBoot (m : Dg) (f : Boot → Boot) : Dg := { m with boot := f m.boot }
def updMbx (m : Dg) (f : Mbx → Mbx) : Dg := { m with mbx := f m.mbx }

/-- R57, R420: of the cores only the mark EXCLUDED outlives a start. -/
def excludedOnly (t : SMap Core) : SMap Core :=
  (t.filter fun e => e.2.role == .excluded).map fun e => (e.1, { (default : Core) with role := .excluded })

/-- FCR after a chip reset: log, index, overwrite count and uncleared sets stand (R461, R467). -/
def Fcr.afterReset (f : Fcr) : Fcr :=
  { (default : Fcr) with log := f.log, logNext := f.logNext, logHeld := f.logHeld, overwritten := f.overwritten,
                         uncleared := f.uncleared, pinSev := 2,
                         parkErr := f.parkErr, clkLost := f.clkLost }

/-- SEC after a chip reset: counters, journal, legal time and the card register stand; a seal in progress is lost and its
records are unsealed again. -/
def Sec.afterReset (x : Sec) : Sec :=
  { x with
    keysReady := false, trngOk := false, journalReady := false, katFail := 0,
    unsealed := match x.sealing with
      | some b => b.first
      | none => x.unsealed,
    unsealedAt := match x.sealing with
      | some b => b.since
      | none => x.unsealedAt,
    sealing := none, sealNext := none, sealCmds := [], exporting := none, chainBreak := none, pps := false, ppsCount := 0,
    ppsAt := none, attest := [],
    card := (x.card.filter fun e => e.2.st != .empty).map fun e => (e.1, e.2.off .present) }

/-- The networks and plant I/O after a chip reset; what Fixative holds is not reset (R505). -/
def Net.afterReset (x : Net) (held : Bool) : Net :=
  let d : Net := { (default : Net) with ign := x.ign }
  if held then
    { d with can := x.can, lin := x.lin, eth := x.eth, tmr := x.tmr, gpio := x.gpio, gptpSync := x.gptpSync,
                  gmPort := x.gmPort, meter := x.meter, frer := x.frer, seqGen := x.seqGen }
  else d

/-- The boot record when a start begins: what the code store holds stands, as do the measurement registers (R416); S00 is due. -/
def Boot.afterReset (b : Boot) (now : Nat) : Boot :=
  { b with due := some 0, t0 := now, doneAt := now, winSwap := [], alt := [], bist := [], test := none, audit := [], under := default }

/-- The domains at a start: each is switched on and held in reset until its rails regulate, one that has failed apart
(R593, R594); what Fixative holds is not switched (R505). -/
def domsAtStart (m : Dg) : SMap Domain :=
  (List.range 61).map fun d =>
    let x := SMap.get m.pwr.dom d
    (d, if x.on || x.failed then { x with on := !x.failed } else ⟨true, true, false⟩)

/-- Conditions that a start ends, since what caused them is reset (Table 09.3). -/
def startEnds (held : Bool) : List Nat :=
  [kSpareUnavailable, kRotationOverdue, kLinkFail, kCanvasNoFreeBank] ++
  (if held then [] else [kCanErrorPassive, kCanBusOff, kEthSqiLow, kAdcReference])

/-- Canvas RAM when a start begins: what is retained stands, with the remap tables; every other bank and every register is as after
reset, until S09 (Tables 06.6 to 06.9). RET_LOST of an earlier wake ends (R328), one that has still to be reported stands. -/
def Cnv.afterReset (x : Cnv) : Cnv :=
  let held (k : Bank) : Bool := k.power == .retain
  { bank := x.bank.map fun e =>
      (e.1, if held e.2 then { (default : Bank) with
                power := .retain, retSel := true, onSel := e.2.onSel, retLost := e.2.retLost, lostDue := e.2.lostDue }
            else { (default : Bank) with onSel := e.2.onSel, retLost := e.2.lostDue, lostDue := e.2.lostDue }),
    quad := x.quad.map fun e => (e.1, { (default : Quadrant) with remap := e.2.remap, failed := e.2.failed, shutDone := e.2.shutDone }),
    scrubS := 0, testS := 0, filled := false }

/-- A channel of an engaged Fixative at a start: no value has been accepted since it (R497), and NEVER is set (Table 09.15). -/
def FixCh.atStart (c : FixCh) : FixCh := if c.configured then { c with hasArmed := false, never := true } else c

/-- The state in which every start begins (R411): Drive, S00 due. -/
def startOver (m : Dg) : Dg :=
  let held := m.fix.engaged
  let m := endKinds m (startEnds held)
  { m with
    ctx := Dg.reset.ctx
    stu := { (default : Stu) with core := excludedOnly m.stu.core }
    mbx := { (default : Mbx) with keys := m.mbx.keys, pass := m.mbx.pass, bank := m.mbx.bank, fails := m.mbx.fails,
                                  lockUntil := m.mbx.lockUntil }
    easel := { m.easel with reqBuf := [], overrun := false, respPos := 0, macs := [], attach := [], qmHalt := [], brk := [],
                            pass := [], trace := [], step := [] }
    boot := m.boot.afterReset m.now
    fab := Dg.reset.fab
    cnv := m.cnv.afterReset
    drc := { (default : Drc) with cached := m.drc.cached }
    dma := []
    fcr := m.fcr.afterReset
    wdg := []
    supWdg := { last := m.now, first := true, stop := if m.fcr.clkLost then some m.now else none }
    fix := if held then { m.fix with resetDone := true, ch := m.fix.ch.map fun e => (e.1, e.2.atStart) } else { (default : Fix) with oscBad := m.fix.oscBad }
    sec := m.sec.afterReset
    net := m.net.afterReset held
    pwr := { m.pwr with mode := .drive, loss := false, holdup := false, dom := domsAtStart m, lock := 0, failover := 0, request := none,
                        thenOff := false, ext3v3 := m.pwr.ext3v3 || unpowered m } }

/-- R513: FTEST_N is sampled at a chip reset. No row carries the level of the land: on a factory part it is a free value
(notes/assumptions/119.md). -/
def sampleFtest (m : Dg) : Dg :=
  if m.part.factory then
    let (m, v) := draw m
    { m with ftest := { m.ftest with low := v % 2 == 1 } }
  else m

/-- A chip reset: the measurement registers are zero (R416), FTEST_N is sampled (R513), and a start follows (R411). -/
def chipReset (m : Dg) : Dg := startOver (updBoot (sampleFtest m) fun b => { b with meas := [] })

/-! ### Exesh images -/

/-- The resident image of a bank. -/
def residentOf (m : Dg) (b : Nat) : List Byte := imgBytes m b 4096 (imgField m b 144 8)

/-- R446: the expected triples of the BISTs, which the resource part of a bank holds; the spec does not say where in it
(notes/assumptions/120.md). The marker is 0x5A. -/
def expectedOf (m : Dg) (b : Nat) : SMap Triple :=
  let len := imgField m b 144 8
  let res := imgBytes m b (4096 + len) (imgPayLen m b - len)
  (List.range 64).map fun k =>
    let v := Config.expectedTriple res k
    (k, ⟨v.extractLsb' 0 32, v.extractLsb' 32 32, 0x5A⟩)

/-- R351, R343, R446: the resident image is read, copied into the lane SRAM and measured (Table 08.2, MEAS1); the expected triples
are those of the bank that runs. -/
def loadExesh (m : Dg) (b : Nat) : Dg :=
  let m := imgScan m b 4096 (imgField m b 144 8)
  let m := { m with bistExp := expectedOf m b }
  let img := residentOf m b
  let m := pokes (clearRange m sramBase 0xC0000) sramBase img
  measExtend (updMbx m fun x => { x with bank := b, ver := imgVersion m b }) 1 (sha384Of img)

/-- R413, R444: does a bank hold a verified image whose SVN is not below the counter of its kind. -/
def bankUsable (m : Dg) (b : Nat) : Bool := imgHeld m b && imgReads m b 0 512 && sealOk m b && ctrValue m (b / 2) ≤ imgSvn m b

/-! ### Recovery -/

/-- A mailbox pair is created (R358). -/
def createPair (m : Dg) (r : CfgRec) : Dg :=
  let k := r.f 0 1
  setQ (setQ m (reqQ k) (filled m (pairQueue r (r.f 8 8)))) (respQ k) (filled m (pairQueue r (r.f 16 8)))

/-- A mailbox pair is bound (R358, R359). Exesh holds its own ends by the handles 0xFC0 + 2 × pair and the one after it, and
Easel its ends by the handles 0 and 1: the spec gives none (notes/assumptions/112.md). -/
def bindPair (m : Dg) (r : CfgRec) : Dg :=
  let k := r.f 0 1
  let own := 0xFC0 + 2 * k
  let (h1, h2) := if r.f 1 1 = 0x3F then (0, 1) else (r.f 32 2, r.f 34 2)
  let m := bindQ (bindQ m (reqQ k) 1 (r.f 1 1) h1 0) (reqQ k) 2 0 own 0
  bindQ (bindQ m (respQ k) 1 0 (own + 1) 0) (respQ k) 2 (r.f 1 1) h2 (r.f 6 2)

/-- Pair 31 where no blob names it: four slots each at the beginning of Canvas RAM, class 1. -/
def easelPair : CfgRec :=
  ⟨0x000E, 40, pack [(8, 31), (8, 0x3F), (8, 2), (8, 1), (32, 0), (64, canvasBase), (64, canvasBase + 0x4000)]⟩

/-- R419: in recovery an Easel session reaches the module: pair 31 exists, and its bank is ON. -/
def openRecovery (m : Dg) : Dg :=
  if (getQ m (reqQ 31)).valid then m
  else
    let r := (recBy m 0x000E 0 1 31).getD easelPair
    let m := [r.f 8 8, r.f 16 8].foldl (fun m a => updBank m (bankOf a) fun k => { k with power := .on }) m
    bindPair (createPair m r) r

/-- Every partition is STOPPED, and its DMA jobs end (R347). -/
def stopPartitions (m : Dg) : Dg :=
  m.stu.part.foldl (fun m e => updPart m e.1 fun p => { p with state := .stopped, waitRestart := false }) (abortAllJobs m)

/-- The module enters recovery (R407, R419): no partition runs, and Labazor-S is in STR mode (R89). -/
def enterRecovery (m : Dg) : Dg :=
  let m := updBoot (stopPartitions m) fun b => { b with recovery := true, due := none }
  let m := updCtx m supCtx fun x => { x with r := { x.r with mode := .str } }
  updMbx m fun x => { x with state := 4, restart := none }

end Sys2Proof.Machine
end

