-- ==== Sys2Proof/Machine/Ops.lean ====
section
/-! DEFINITION. What every instruction goes through (spec/02, spec/04): access checks of a context, its store buffer,
taking an exception and the return from one, performance counts, retirement with the load delay, the repeat prefix and
the hardware loops. -/
namespace Sys2Proof.Machine

/-- A synchronous exception: vector, ECAUSE.DETAIL, EADDR where the vector carries an address, and whether the stacked
PC is the next instruction (Table 02.25). -/
structure Exn where
  vec : Nat
  detail : Nat
  addr : Option Nat
  after : Bool
  /-- FPTI of an FP_TRAP (R191) -/
  fpti : Option Word
  deriving DecidableEq, Repr

def exn (vec detail : Nat) : Exn := ⟨vec, detail, none, false, none⟩
def exnAt (vec detail addr : Nat) : Exn := ⟨vec, detail, some (addr % 2 ^ 48), false, none⟩
def illegal (detail : Nat) : Exn := exn 1 detail

/-! ### Access checks -/

/-- Labazor-S. -/
def isSup (c : CtxId) : Bool := c == supCtx

/-- The ring windows of a context (R259): the queue whose ring holds the whole span, if the context's partition is its
producer (read and write) or its consumer (read); mirror targets and twins are the shadow's (R434). -/
def ringWindow (m : Dg) (c : CtxId) (a len : Nat) (write : Bool) : Bool :=
  let pid := (getCtx m c).pid
  match ringAt m a len with
  | none => false
  | some q =>
    let x := getQ m q
    ((m.boot.under.qs.any fun u => u.link == q) == isShadowCtx m c) &&
    x.grants pid write

/-- R93, R98: a span lies in an access window of the context that allows the access: 0 load, 1 store, 2 fetch. -/
def inWindow (m : Dg) (c : CtxId) (acc a len : Nat) : Bool :=
  isSup c ||
  ((getCtx m c).windows.any fun w =>
    w.base ≤ a && a + len ≤ w.base + w.size && (if acc = 0 then w.read else if acc = 1 then w.write else w.exec)) ||
  (acc != 2 && ringWindow m c a len (acc == 1))

/-- The target's power domain is off (R19, R325). -/
def targetDark (m : Dg) (reg : Region) (a : Nat) : Bool :=
  match reg with
  | .canvas => bankDark m a
  | .dram => !m.drc.up
  | .window => !domOn m 51
  | .store => !domOn m 51
  | .pcie => !domOn m 57
  | _ => false

/-- Access outside the windows: DATA_ACCESS detail 1, reported (R98, R609). -/
def denied (m : Dg) (c : CtxId) (acc a : Nat) : Dg × Option Exn :=
  (if isSup c then m else ifaceReport m c kAccessDenied acc a, some (exnAt 4 1 a))

/-- R260: the ring guard. -/
def guardCheck (m : Dg) (c : CtxId) (acc a len : Nat) : Dg × Option Exn :=
  if isSup c then (m, none)
  else match ringAt m a len with
    | none => (m, none)
    | some q =>
      if guardOk m q (getCtx m c).pid (acc == 1) a len then (m, none)
      else (guardReport m c q, some (exnAt 4 4 a))

/-- R207: an access to Canvas RAM or DRAM through a cacheable window, in performance mode. -/
def cached (m : Dg) (c : CtxId) (a len : Nat) : Bool :=
  let x := getCtx m c
  !isSup c && !x.r.det && (regionOf m false a == .canvas || regionOf m false a == .dram) &&
  (x.windows.any fun w => w.cacheable && w.base ≤ a && a + len ≤ w.base + w.size)

/-- R12, R594: the L2 of the context's studio (domains 40 to 43) is off. The accesses that meet it are those that the caches
answer and, in performance mode, loads from the application bank window (notes/assumptions/117.md). -/
def l2Dark (m : Dg) (c : CtxId) : Bool := !domOn m (40 + studioOf c)

/-- The checks of one half of a load or store outside the register space: address range, windows, read-only ranges,
power, the ring guard (R98, R99, R215, R216, R260). A partition reaches Canvas RAM, DRAM, the window of its own bank and the
PCIe window only (R4, R254), whatever a WINDOW record covers. -/
def checkHalf (m : Dg) (c : CtxId) (acc a len : Nat) : Dg × Option Exn :=
  let reg := regionOf m (isSup c) a
  match reg with
  | .unmapped => (m, some (exnAt 4 2 a))
  | .window =>
    if isSup c || (getCtx m c).appWin == 0 then denied m c acc a
    else if acc = 1 then (m, some (exnAt 4 3 a))
    else if targetDark m reg a || (!isSup c && !(getCtx m c).r.det && l2Dark m c) then (m, some (exnAt 4 5 a)) else (m, none)
  | .regs => (m, none)
  | .rom => if !isSup c then denied m c acc a else if acc = 1 then (m, some (exnAt 4 3 a)) else (m, none)
  | .palette => if !isSup c then denied m c acc a else (m, none)
  | .store =>
    if !isSup c then denied m c acc a
    else if targetDark m reg a then (m, some (exnAt 4 5 a))
    else if acc = 0 ∧ keyRecord a then (m, some (exnAt 4 4 a)) else (m, none)
  | _ =>
    if !inWindow m c acc a len then denied m c acc a
    else if targetDark m reg a || (cached m c a len && l2Dark m c) then (m, some (exnAt 4 5 a))
    else guardCheck m c acc a len

/-- The halves of an access: it splits at a 16-byte boundary (R215). -/
def halves (a len : Nat) : List (Nat × Nat) :=
  let k := 16 - a % 16
  if len ≤ k then [(a, len)] else [(a, k), (a + k, len - k)]

/-- Both halves are checked, the lower first (R216). -/
def checkSpan (m : Dg) (c : CtxId) (acc : Nat) : List (Nat × Nat) → Dg × Option Exn
  | [] => (m, none)
  | (a, len) :: r =>
    match checkHalf m c acc a len with
    | (m, some e) => (m, some e)
    | (m, none) => checkSpan m c acc r

/-- Fetch of `len` bytes at the pc (R137, R196, R350): the exception, if any. The second word of a long form must be
fetchable as well as the first. -/
def fetchFault (m : Dg) (c : CtxId) (len : Nat) : Bool :=
  let pc := (getCtx m c).r.pc.toNat
  let last := pc + len - 1
  let reg := regionOf m (isSup c) pc
  reg != regionOf m (isSup c) last ||
  (if isSup c then !(reg == .rom || reg == .sram)
   else match reg with
    | .window => (getCtx m c).appWin == 0 || targetDark m reg pc
    | .canvas => !inWindow m c 2 pc 4 || !inWindow m c 2 (last - 3) 4 || bankDark m pc || bankDark m last
    | _ => true)

/-! ### Store buffer and data -/

/-- The address on the memory side: the application bank window reaches the bound bank (R339). -/
def busAddr (m : Dg) (c : CtxId) (a : Nat) : Nat :=
  if windowBase ≤ a ∧ a < 0x18000000 ∧ !isSup c then appBase ((getCtx m c).appWin - 1) + (a - windowBase) else a

/-- The Canvas port and code-store port of a context (R310, R353). -/
def viaCtx (c : CtxId) : Via := ⟨if isSup c then 1 else 0, studioOf c⟩

def setSb (m : Dg) (c : CtxId) (l : List SbEntry) : Dg := updCtx m c fun x => { x with sb := l }

/-- The context's own store reaches the word that its caches hold. -/
def cacheStore (m : Dg) (c : CtxId) (e : SbEntry) : Dg :=
  updCtx m c fun x => match SMap.get x.dcache (e.addr / 16) with
    | some q => { x with dcache := SMap.set x.dcache (e.addr / 16) (some (BitVec.ofNat 128 (mergeWord q.toNat e.data.toNat e.mask))) }
    | none => x

/-- R218: a dirty word of the L1 data cache is written back. -/
def writeBack (m : Dg) (c : CtxId) (k : Nat) : Dg :=
  if !SMap.get (getCtx m c).dirty k then m
  else
    let m := updCtx m c fun x => { x with dirty := SMap.set x.dirty k false }
    match SMap.get (getCtx m c).dcache k with
    | some q => (writeWord m (viaCtx c) (16 * k) (BitVec.allOnes 16) q.toNat).1
    | none => m

/-- The dirty words of a line are written back. -/
def writeBackLine (m : Dg) (c : CtxId) (l : Nat) : Dg := (List.range 8).foldl (fun m i => writeBack m c (8 * l + i)) m

/-- Every dirty line of the context is written back (Table 01.3 step 4, R214). -/
def writeBackAll (m : Dg) (c : CtxId) : Dg := (SMap.keysWhere (getCtx m c).dirty id).foldl (fun m k => writeBack m c k) m

/-- A line comes into the L1 data cache: which dirty line, if any, leaves for it is a free value
(notes/assumptions/106.md). -/
def evict (m : Dg) (c : CtxId) : Dg :=
  let ks := SMap.keysWhere (getCtx m c).dirty id
  if ks.isEmpty then m
  else
    let (m, v) := draw m
    match ks[v % (ks.length + 1)]? with
    | some k => writeBackLine m c (k / 8)
    | none => m

/-- The line of an address fills the caches: the words that answer are held; a dirty word stays as it is. -/
def fillData (m : Dg) (c : CtxId) (a : Nat) : Dg :=
  (List.range 8).foldl (fun m i =>
    let wa := a / 128 * 128 + 16 * i
    if SMap.get (getCtx m c).dirty (wa / 16) then m
    else match readWord m (viaCtx c) wa with
    | (m, some w) => updCtx m c fun x => { x with dcache := SMap.set x.dcache (wa / 16) (some (BitVec.ofNat 128 w)) }
    | (m, none) => updCtx m c fun x => { x with dcache := SMap.set x.dcache (wa / 16) none }) (evict m c)

/-- A store through a cacheable window reaches its word in the L1 data cache, which is dirty until it is written back: by IFLUSH
(R218), FENCE (R214), a re-seat, or when it leaves, at a time that is a free value (notes/assumptions/106.md). -/
def cacheWrite (m : Dg) (c : CtxId) (e : SbEntry) : Dg :=
  let k := e.addr / 16
  let m := if (SMap.get (getCtx m c).dcache k).isNone then fillData m c e.addr else m
  match SMap.get (getCtx m c).dcache k with
  | none => (writeWord m (viaCtx c) e.addr e.mask e.data.toNat).1
  | some _ =>
    let m := updCtx (cacheStore m c e) c fun x => { x with dirty := SMap.set x.dirty k true }
    let (m, v) := draw m
    if v % 2 = 1 then writeBack m c k else m

/-- R325: the access meets a bank that is waking, and waits. -/
def waits (m : Dg) (a len : Nat) : Bool :=
  (halves a len).any fun h => wakingAt m h.1

/-- What the memory makes of a store that has left its buffer (R216): the ring guard checks it against the indices as they stand
now (R260), and the code store refuses what Labazor-S may not write (R341). -/
def memStore (m : Dg) (c : CtxId) (e : SbEntry) : Dg :=
  if isSup c && regionOf m true e.addr == .store && !storeAllowed m .supervisor e.addr then writeProtect m e.addr
  else
    let ring := if isSup c then none else ringAt m e.addr 16
    match ring.filter fun q => !guardOk m q (getCtx m c).pid true e.addr 16 with
    | some q => guardReport m c q
    | none =>
      if cached m c e.addr 16 then cacheWrite m c e
      else match writeWord m (viaCtx c) e.addr e.mask e.data.toNat with
      | (m, true) => cacheStore m c e
      | (m, false) => m

/-- R210: the oldest entry drains; one that meets a waking bank waits (R325). -/
def drainOne (m : Dg) (c : CtxId) : Dg :=
  match (getCtx m c).sb with
  | [] => m
  | e :: r => if waits m e.addr 16 then m else memStore (setSb m c r) c e

/-- R325: a store in the buffer meets a waking bank, so what follows every store must wait. -/
def drainWaits (m : Dg) (c : CtxId) : Bool := (getCtx m c).sb.any fun e => waits m e.addr 16

/-- The oldest `n` entries drain in program order. -/
def drainN (m : Dg) (c : CtxId) : Nat → Dg
  | 0 => m
  | n + 1 => drainN (drainOne m c) c n

/-- Every entry drains. -/
def drainAll (m : Dg) (c : CtxId) : Dg := drainN m c (getCtx m c).sb.length

/-- R213, R214: every older store is visible to every agent. -/
def showStores (m : Dg) (c : CtxId) : Dg := writeBackAll (drainAll m c) c

/-- The byte mask of `len` bytes at an address in its word. -/
def maskOf (a len : Nat) : BitVec 16 := BitVec.ofNat 16 ((2 ^ len - 1) * 2 ^ (a % 16))

/-- A half of a store enters the buffer; a full buffer, of which eleven entries are reserved for frames, drains first. -/
def bufferHalf (m : Dg) (c : CtxId) (a len v : Nat) : Dg :=
  let m := if 21 ≤ (getCtx m c).sb.length then drainN m c ((getCtx m c).sb.length - 20) else m
  updCtx m c fun x =>
    { x with sb := x.sb ++ [⟨a / 16 * 16, maskOf a len, BitVec.ofNat 128 (v * 2 ^ (8 * (a % 16)))⟩] }

/-- A store of `len` bytes at retirement, its halves together (R216). -/
def bufferStore (m : Dg) (c : CtxId) (a len v : Nat) : Dg :=
  (halves a len).foldl (fun m h => bufferHalf m c h.1 h.2 (v / 2 ^ (8 * (h.1 - a)) % 2 ^ (8 * h.2))) m

/-- R210: a load that an older buffered store overlaps without holding it whole waits until that store has drained. -/
def settle (m : Dg) (c : CtxId) (a len : Nat) : Dg :=
  let sb := (getCtx m c).sb
  let hit (e : SbEntry) : Bool := e.addr == a / 16 * 16 && (e.mask &&& maskOf a len) != 0
  match sb.reverse.findIdx? hit with
  | none => m
  | some i => match sb.reverse[i]? with
    | some e => if e.mask &&& maskOf a len = maskOf a len then m else drainN m c (sb.length - i)
    | none => m

/-- R210: the youngest buffered store that holds the bytes of a load. -/
def forward (m : Dg) (c : CtxId) (a len : Nat) : Option Nat :=
  ((getCtx m c).sb.reverse.find? fun e => e.addr == a / 16 * 16 && e.mask &&& maskOf a len == maskOf a len).map
    fun e => bits e.data.toNat (8 * (a % 16)) (8 * len)

/-- R207, R208: a load through the caches. A dirty word is the context's own store. A word that they hold is read as they hold it, whatever another agent has written
since; whether a word that differs from memory is still held is a free value (notes/assumptions/106.md). -/
def readCached (m : Dg) (c : CtxId) (a : Nat) : Dg × Option Nat :=
  let fill (m : Dg) : Dg × Option Nat :=
    let m := fillData m c a
    (m, (SMap.get (getCtx m c).dcache (a / 16)).map (·.toNat))
  match SMap.get (getCtx m c).dcache (a / 16) with
  | none => fill m
  | some q =>
    if q.toNat = peekWord m a ∨ SMap.get (getCtx m c).dirty (a / 16) then (m, some q.toNat)
    else
      let (m, v) := draw m
      if v % 2 = 0 then (m, some q.toNat) else fill m

/-- The data of one half of a load: from the store buffer, from the caches, or from memory; none is an error response. -/
def readHalf (m : Dg) (c : CtxId) (a len : Nat) : Dg × Option Nat :=
  let m := settle m c a len
  match forward m c a len with
  | some v => (m, some v)
  | none =>
    match (if cached m c a len then readCached m c a else readWord m (viaCtx c) (busAddr m c a)) with
    | (m, some w) => (m, some (bits w (8 * (a % 16)) (8 * len)))
    | (m, none) => (m, none)

/-- A load of the halves, the lower first, each checked and read before the next and joined above the one before; an error
response is DATA_ACCESS with detail 4. The exception is that of the lower faulting half (R216). -/
def readHalves (m : Dg) (c : CtxId) : List (Nat × Nat) → Dg × Except Exn Nat
  | [] => (m, .ok 0)
  | (a, len) :: r =>
    match checkHalf m c 0 a len with
    | (m, some e) => (m, .error e)
    | (m, none) =>
      match readHalf m c a len with
      | (m, none) => (m, .error (exnAt 4 4 a))
      | (m, some v) =>
        match readHalves m c r with
        | (m, .error e) => (m, .error e)
        | (m, .ok w) => (m, .ok (v + w * 2 ^ (8 * len)))

/-- R260: the windows allow an access of which a part lies in a ring and a part outside it: the ring guard refuses it whole. -/
def straddles (m : Dg) (c : CtxId) (acc a len : Nat) : Option Nat :=
  if isSup c || !((halves a len).all fun h => inWindow m c acc h.1 h.2) then none
  else (ringAt m a len).filter fun q =>
    !((getQ m q).ringBase ≤ a && a + len ≤ (getQ m q).ringBase + (getQ m q).ringSize)

/-- The checks of a whole access (R93, R98, R216, R260). -/
def checkAccess (m : Dg) (c : CtxId) (acc a len : Nat) : Dg × Option Exn :=
  match straddles m c acc a len with
  | some q => (guardReport m c q, some (exnAt 4 4 a))
  | none => checkSpan m c acc (halves a len)

/-- A checked load outside the register space. -/
def loadMem (m : Dg) (c : CtxId) (a len : Nat) : Dg × Except Exn Nat :=
  match straddles m c 0 a len with
  | some q => (guardReport m c q, .error (exnAt 4 4 a))
  | none => readHalves m c (halves a len)

/-- A load that is part of another instruction (RET, ERET). The PCIe window answers it with a free value
(notes/assumptions/107.md). -/
def loadPart (m : Dg) (c : CtxId) (a len : Nat) : Dg × Except Exn Nat :=
  if regionOf m (isSup c) a = .pcie then
    match checkAccess m c 0 a len with
    | (m, some e) => (m, .error e)
    | (m, none) =>
      let (m, err) := draw m
      let (m, v) := draw m
      (m, if err % 2 = 1 then .error (exnAt 4 4 a) else .ok (v % 2 ^ (8 * len)))
  else loadMem m c a len

/-- A checked store outside the register space. -/
def storeMem (m : Dg) (c : CtxId) (a len v : Nat) : Dg × Option Exn :=
  match checkAccess m c 1 a len with
  | (m, some e) => (m, some e)
  | (m, none) => (bufferStore m c a len v, none)

/-! ### Performance counters -/

/-- R240, R241: counter `n` wraps. -/
def pmcWrap (m : Dg) (c : CtxId) (n : Nat) : Dg :=
  let r := (getCtx m c).r
  let v := r.pmovf.toNat
  let v' := if bit v n then setBits v (16 + 4 * n) 4 (satInc 4 (bits v (16 + 4 * n) 4)) else setBits v n 1 1
  let ie := if n < 2 then bit r.pmctl.toNat (16 + n) else bit (SMap.get r.pmsel n).toNat 10
  let ctl := if bit r.pmctl.toNat 9 then setBits r.pmctl.toNat 0 8 0 else r.pmctl.toNat
  let m := updCtx m c fun x =>
    { x with r := { x.r with pmovf := BitVec.ofNat 64 v', pmctl := BitVec.ofNat 64 ctl, pmc := SMap.set x.r.pmc n 0 } }
  if ie then raiseIrq m c 0 else m

/-- The event that counter `n` counts in the mode of the registers: 0 for none (Tables 04.11 to 04.13). -/
def eventOf (r : Regs) (n : Nat) : Nat :=
  if n = 0 then 0x01 else if n = 1 then 0x02
  else if bit (SMap.get r.pmsel n).toNat (if r.mode = .user then 8 else 9) then bits (SMap.get r.pmsel n).toNat 0 8 else 0

/-- Counter `n` counts time, cache misses, mispredictions or stalls (Table 04.13), in deterministic mode only those that count
there: the model has no number for them. -/
def countsTime (r : Regs) (n : Nat) : Bool :=
  let ev := eventOf r n
  ev == 0x01 || ev == 0x09 || ev == 0x0A || ev == 0x0B ||
  (!r.det && (ev == 0x03 || ev == 0x04 || ev == 0x05 || ev == 0x06 || ev == 0x0E || ev == 0x0F))

/-- R235, R236: the counter counts the cycles by which an access lasts longer than in Table 04.8. -/
def countsOverrun (r : Regs) (n : Nat) : Bool := r.det && eventOf r n == 0x12

/-- Does counter `n` count an event in the mode: PMC1 counts retired instructions in every mode (Tables 04.11, 04.12). -/
def counts (r : Regs) (n ev : Nat) : Bool := bit r.pmctl.toNat n && n != 0 && ev != 0 && eventOf r n == ev

/-- The enabled counters that `f` picks go on by a free value each. None goes beyond its last value: that it wraps is the row
PMC_WRAP (notes/assumptions/23.md). -/
def passFree (m : Dg) (c : CtxId) (f : Regs → Nat → Bool) : Dg :=
  if (getCtx m c).r.pmctl = 0 then m
  else (List.range 8).foldl (fun m n =>
    let r := (getCtx m c).r
    if bit r.pmctl.toNat n && f r n then
      let (m, v) := draw m
      updCtx m c fun x => { x with r := { x.r with pmc := SMap.upd x.r.pmc n fun o => BitVec.ofNat 64 (min (o.toNat + v) (2 ^ 64 - 1)) } }
    else m) m

/-- An enabled counter of time has gone on by a free value since the instruction before (notes/assumptions/23.md). -/
def passTime (m : Dg) (c : CtxId) : Dg := passFree m c countsTime

/-- One event of a code of Table 04.13; of 0x12 a free number of cycles. Where a wrap clears PMCTL.EN (R240), the counters of a
lower number have counted an event of the same cycle and those of a higher number have not: the model's choice
(notes/assumptions/118.md). -/
def countEv (m : Dg) (c : CtxId) (ev : Nat) : Dg :=
  if (getCtx m c).r.pmctl = 0 then m
  else if ev = 0x12 then passFree m c countsOverrun
  else (List.range 8).foldl (fun m n =>
    let r := (getCtx m c).r
    if counts r n ev then
      (if SMap.get r.pmc n = BitVec.allOnes 64 then pmcWrap m c n
       else updCtx m c fun x => { x with r := { x.r with pmc := SMap.upd x.r.pmc n (· + 1) } })
    else m) m

/-! ### Fetch (R196 to R201, R234) -/

/-- The line can be fetched (R93, R196). -/
def lineOk (m : Dg) (c : CtxId) (l : Nat) : Bool :=
  match regionOf m (isSup c) (l * 128) with
  | .window => (getCtx m c).appWin != 0 && domOn m 51
  | .canvas => inWindow m c 2 (l * 128) 128 && !bankDark m (l * 128)
  | _ => false

/-- The line is in a line buffer or, in performance mode, in the L1 instruction cache. -/
def Ctx.holds (x : Ctx) (l : Nat) : Bool := x.lines.contains l || (!x.r.det && x.l1i.contains l)

/-- Line buffers that do not await data: a request takes one, in deterministic mode only the one that is outstanding (R201,
R234). -/
def Ctx.room (x : Ctx) : Nat := if x.r.det then 4 - min 1 x.lineReq.length else 4 - min 3 x.lineReq.length

/-- A line arrives in its buffer, and in performance mode in the L1 (R197), which holds 512 lines. -/
def Ctx.hold (x : Ctx) (l : Nat) : Ctx :=
  let y := { x with lineReq := x.lineReq.filter (· != l) }
  { y with lines := (l :: x.lines.filter (· != l)).take y.room,
           l1i := if x.r.det then x.l1i else (l :: x.l1i.filter (· != l)).take 512 }

/-- A line that is used becomes the most recently used of its buffers. -/
def Ctx.useLine (x : Ctx) (l : Nat) : Ctx :=
  if x.lines.contains l then { x with lines := l :: x.lines.filter (· != l) } else x

/-- A line is requested, unless it is held or has been requested; in deterministic mode the requests are made one after the
other (R201), in performance mode as long as a buffer is free for them. Requests to the code store count as LINE_REQ. -/
def requestLine (m : Dg) (c : CtxId) (l : Nat) : Dg :=
  let x := getCtx m c
  if isSup c || x.holds l || x.lineReq.contains l || !lineOk m c l || (!x.r.det && 3 ≤ x.lineReq.length) then m
  else
    let y := { x with lineReq := x.lineReq ++ [l] }
    let m := setCtx m c { y with lines := y.lines.take y.room }
    if regionOf m false (l * 128) = .window then countEv m c 0x08 else m

/-- A line is read from the code store or from Canvas RAM; the flag tells that it has arrived (R200, R308, R343). -/
def fillLine (m : Dg) (c : CtxId) (l : Nat) : Dg × Bool :=
  let drop (m : Dg) : Dg := updCtx m c fun x => { x with lineReq := x.lineReq.filter (· != l) }
  if !lineOk m c l then (drop m, false)
  else if waits m (l * 128) 1 then (m, false)
  else match readSpan m (viaCtx c) (busAddr m c (l * 128)) 128 with
    | (m, some _) => (updCtx m c fun x => x.hold l, true)
    | (m, none) => (drop m, false)

/-- R234: a line that an instruction needs: requests made before it are served first. -/
def demandLine (m : Dg) (c : CtxId) (l : Nat) : Dg × Bool :=
  if (getCtx m c).holds l then (updCtx m c fun x => x.useLine l, true)
  else
    let m := (getCtx m c).lineReq.foldl (fun m k => (fillLine m c k).1) m
    if (getCtx m c).holds l then (updCtx m c fun x => x.useLine l, true) else fillLine (requestLine m c l) c l

/-- R197, R234: an instruction begins in a line, and the lines that follow are requested: in deterministic mode the next one when
the first instruction of the line begins, in performance mode the two next whenever they are held nowhere. -/
def beginLine (m : Dg) (c : CtxId) (l : Nat) : Dg :=
  let enters := (getCtx m c).curLine != some l
  let m := updCtx m c fun x => { x with curLine := some l }
  if (getCtx m c).r.det then (if enters then requestLine m c (l + 1) else m)
  else requestLine (requestLine m c (l + 1)) c (l + 2)

/-- R325: a line that the instruction needs and that is held nowhere lies in a waking bank, and the fetch waits. -/
def fetchWaits (m : Dg) (c : CtxId) (len : Nat) : Bool :=
  let pc := (getCtx m c).r.pc.toNat
  !isSup c && [pc / 128, (pc + len - 1) / 128].any fun l => !(getCtx m c).holds l && waits m (l * 128) 1

/-- The fetch of an instruction of `len` bytes; false is FETCH_ACCESS. Labazor-S has no line buffers (R196). -/
def fetch (m : Dg) (c : CtxId) (len : Nat) : Dg × Bool :=
  let pc := (getCtx m c).r.pc.toNat
  if fetchFault m c len then (m, false)
  else if isSup c then (m, true)
  else match demandLine m c (pc / 128) with
    | (m, false) => (m, false)
    | (m, true) =>
      let m := beginLine m c (pc / 128)
      if (pc + len - 1) / 128 = pc / 128 then (m, true) else demandLine m c ((pc + len - 1) / 128)

/-! ### Taking an exception -/

/-- The frame of Table 02.26: offset and 16-byte words from the new supervisor A15 upward. -/
def frameWords (r : Regs) (pc : Addr) (status : Word) : List Nat :=
  (List.range 8).map (fun i => (r.getD i).toNat) ++
  [(SMap.get r.a 0).toNat + (SMap.get r.a 1).toNat * 2 ^ 64, (SMap.get r.a 2).toNat + (SMap.get r.a 3).toNat * 2 ^ 64,
   pc.toNat + status.toNat * 2 ^ 64]

/-- The source that reports for a context: voter, core, or the first supervisor lane (R148). -/
def ctxSrc (c : CtxId) : Nat := if c < 16 then voterSrc c else if c < 56 then c - 16 else 0x050

/-- A report under the source of a context whose values the spec leaves open; a voter's message names its slot (R46). -/
def ctxReport (m : Dg) (c : CtxId) (kind : Nat) : Dg :=
  if c < 16 then voterReport m c kind 3 (openDetail m (voterSrc c) kind % 16) 0 (voterSrc c)
  else reportOpen m (ctxSrc c) kind 0

/-- EXC_DOUBLE of a context (R148): the voter, the core, or the three supervisor lanes. -/
def doubleReport (m : Dg) (c : CtxId) : Dg :=
  if c < 16 then voterReport m c kExcDouble 3 0 0 (tagPid (getCtx m c).pid)
  else if isSup c then (List.range 3).foldl (fun m l => reportOpen m (0x050 + l) kExcDouble 0) m
  else reportOpen m (ctxSrc c) kExcDouble 0

/-- R148: a failed entry stops the context and reports EXC_DOUBLE; stores that have retired still reach memory. The group or QM
core is then restarted as a lost one is (R43, R44, notes/assumptions/108.md); the shadow's failure ends the underpainting
(cause 2); on Labazor-S the recovery path is entered, in STR mode (R89). -/
def entryFail (m : Dg) (c : CtxId) : Dg :=
  let pid := (getCtx m c).pid
  let shadow := isShadowCtx m c
  let m := updCtx (drainAll (failHalts m c) c) c fun x => { x with stopped := true, load := none }
  let m := doubleReport m c
  if isSup c then openRecovery (enterRecovery (setCtx m c Ctx.reset))
  else if shadow then (if underLive m then abortUnder m 2 else m)
  else
    let m := abortUnderPid m pid 5
    if c < 16 then groupGone m c
    else abortJobs (updPart m pid fun p => { p with state := .lost, waitRestart := partFlag m pid 3 }) pid

/-- What an entry changes beside the frame: vector, ECAUSE word, EADDR, IE and IPL. -/
structure Entry where
  vec : Nat
  cause : Word
  eaddr : Option Nat
  pc : Addr
  repact : Bool
  ie : Bool
  ipl : Nat

/-- R146: the eleven words of the frame are stored, each checked (R148); a register takes no 16-byte store (R97). -/
def storeFrame (m : Dg) (c : CtxId) : Nat → List Nat → Dg × Bool
  | _, [] => (m, true)
  | a, w :: r =>
    match checkAccess m c 1 a 16 with
    | (m, some _) => (m, false)
    | (m, none) =>
      if regionOf m (isSup c) a = .regs then (m, false)
      else storeFrame (updCtx m c fun x => { x with sb := x.sb ++ [⟨a, BitVec.allOnes 16, BitVec.ofNat 128 w⟩] }) c (a + 16) r

/-- R142, R148: the handler address in a vector entry; none when it cannot be read or is not valid. An entry in the register
space is taken as one that cannot be read (notes/assumptions/107.md). -/
def vectorOf (m : Dg) (c : CtxId) (vec : Nat) : Dg × Option Addr :=
  let a := ((getCtx m c).r.evbase.toNat + 8 * vec) % 2 ^ 48
  if regionOf m (isSup c) a = .regs then (m, none)
  else match loadPart m c a 8 with
    | (m, .ok v) => (m, if v % 4 = 0 ∧ v < 2 ^ 48 then some (BitVec.ofNat 48 v) else none)
    | (m, .error _) => (m, none)

/-- R146, R148: the module with the frame of an exception stored, in the entries of the store buffer that are reserved for it
(R210), and the vector read, and the handler's address; none where the entry fails. `pc` and `status` are the words
stacked. That a failed entry leaves none of its frame words in the buffer, and that the reports of the access which failed
are not sent beside EXC_DOUBLE, is the model's choice (notes/assumptions/117.md). -/
def frameAndHandler (m : Dg) (c : CtxId) (r : Regs) (vec : Nat) (pc : Addr) (status : Word) : Option (Dg × Addr) :=
  let sp := r.a15s.toNat
  if sp % 16 ≠ 0 ∨ sp < 176 ∨ sp - 176 < r.slims.toNat then none
  else match storeFrame (drainN m c ((getCtx m c).sb.length - 21)) c (sp - 176) (frameWords r pc status) with
    | (_, false) => none
    | (m, true) => match vectorOf m c vec with
      | (_, none) => none
      | (m, some h) => some (m, h)

/-- The counters of a context go on from where they are; every other register is taken from `r`. -/
def Regs.withCounts (r o : Regs) : Regs := { r with pmctl := o.pmctl, pmovf := o.pmovf, pmc := o.pmc }

/-- R146, R148, R226, R228: an exception or interrupt is taken from the registers `r`, which are those of the resumption
point: ECAUSE and EADDR, frame on the supervisor stack, mode, the handler's address; the handler's line is requested, in
performance mode in place of the requests that were under way (Table 04.6 steps 2 and 4). That STATUS.REPACT is 0 after the
entry, which R146 does not list, is the model's choice (notes/assumptions/117.md). -/
def enter (m : Dg) (c : CtxId) (r : Regs) (e : Entry) : Dg :=
  let r' := { r with ecause := e.cause, eaddr := match e.eaddr with
                                                | some a => BitVec.ofNat 64 a
                                                | none => r.eaddr }
  let m0 := updCtx m c fun x => { x with r := r'.withCounts x.r, load := none }
  match frameAndHandler m0 c r e.vec e.pc (statusWord { r with repact := e.repact }) with
  | none => entryFail m0 c
  | some (m, h) =>
    let q : Regs := { r' with a15s := r.a15s - 176, mode := if r.mode = .str then .str else .supervisor,
                              ie := e.ie, ipl := e.ipl, pc := h, repact := false, rep := none, holdoff := 2 }
    countEv (requestLine (updCtx m c fun x =>
      { x with r := q.withCounts x.r, lineReq := if r.det then x.lineReq else [] }) c (h.toNat / 128)) c 0x12

/-- R325: the vector entry lies in a waking bank, and the entry waits. -/
def entryWaits (m : Dg) (c : CtxId) (vec : Nat) : Bool :=
  waits m (((getCtx m c).r.evbase.toNat + 8 * vec) % 2 ^ 48) 8

/-- A load retires (R206): INSTRET, and QUEUE_OPS for a dequeue. -/
def countLoad (m : Dg) (c : CtxId) (l : Option PendLoad) : Dg :=
  match l with
  | none => m
  | some l =>
    let m := countEv m c 0x02
    if l.deq.isSome then countEv m c 0x11 else m

/-- The registers with the value of the outstanding load in its destination. -/
def withLoad (x : Ctx) : Regs :=
  match x.load with
  | none => x.r
  | some l =>
    if l.isA then x.r.setA l.reg (l.value.setWidth 64) else x.r.setD l.reg l.value

/-- R103, R105, R125, R143: a synchronous exception. In a load's shadow neither retires and execution resumes at the
load; in an iteration the earlier iterations have retired and the stacked PC is the instruction. The next instruction that a
SYSCALL or BKPT at the end of a loop body stacks is the one behind it, and the loop does not act (R115): the model's choice
(notes/assumptions/117.md). -/
def takeExn (m : Dg) (c : CtxId) (e : Exn) : Dg :=
  let x := getCtx m c
  let inRep := x.r.rep.isSome
  let shadow := x.load.isSome && !inRep
  let r := match x.load with
    | some l => if inRep then withLoad x else l.before
    | none => x.r
  let r := match e.fpti with
    | some v => { r with fpti := v }
    | none => r
  let m := countEv (if inRep then countLoad m c x.load else m) c 0x0D
  let m := if shadow then countEv m c 0x13 else m
  let pc := if e.after && !shadow then r.pc + 4 else r.pc
  enter m c r ⟨e.vec, ecauseWord e.vec shadow inRep e.detail, e.addr, pc, r.repact, r.ie, r.ipl⟩

/-! ### Interrupts -/

/-- The maskable interrupt that comes first: the highest level, then the lowest source; only levels above IPL (R145,
R224). -/
def bestIrq (x : Ctx) : Option Nat :=
  (SMap.keysWhere x.irqPend id).foldl (fun best i =>
    let l := (SMap.get x.irqCfg i).level
    if l ≤ x.r.ipl then best
    else match best with
      | none => some i
      | some b => if (SMap.get x.irqCfg b).level < l then some i else some b) none

/-- R103, R105, R144, R145, R226: an NMI or a maskable interrupt is taken at the boundary at which the context stands. -/
def irqDue (x : Ctx) : Bool :=
  !(x.load.isSome && x.r.rep.isNone) && (x.nmi || ((bestIrq x).isSome && x.r.ie && x.r.holdoff == 0))

/-- An interrupt enters at the boundary: between iterations the prefix is stacked with REPACT = 1 (R125). -/
def enterIrq (m : Dg) (c : CtxId) (vec : Nat) (ie : Bool) (ipl : Nat) : Dg :=
  let x := getCtx m c
  let r := withLoad x
  enter (countEv (countLoad m c x.load) c 0x0C) c r ⟨vec, ecauseWord vec false false 0, none, r.rep.getD r.pc, r.rep.isSome || r.repact, ie, ipl⟩

/-- R224, R225: the interrupt that is due is taken; its pending bit is cleared. It waits for a vector entry in a waking bank
(R325). -/
def takeIrq (m : Dg) (c : CtxId) : Dg :=
  let x := getCtx m c
  if !irqDue x then m
  else if x.nmi then if entryWaits m c 31 then m else enterIrq (setCtx m c { x with nmi := false }) c 31 false 15
  else match bestIrq x with
    | none => m
    | some i =>
      if entryWaits m c (32 + i) then m
      else enterIrq (setCtx m c { x with irqPend := SMap.set x.irqPend i false }) c (32 + i) x.r.ie (SMap.get x.irqCfg i).level

/-! ### Retirement -/

/-- What a load leaves for its shadow: destination, value, halves outstanding, deferred dequeue. -/
structure Pend where
  isA : Bool
  reg : Nat
  value : Quad
  wait : List Nat
  deq : Option DeqDefer

/-- The outcome of an instruction's own work: an exception; new registers with the next pc, for a load its destination's
value, and the codes of Table 04.13 it counts; a branch of R198, taken or not; or nothing retires yet (a load from the PCIe
window). -/
inductive IRes where
  | trap (m : Dg) (e : Exn)
  | done (m : Dg) (r : Regs) (next : Option Addr) (load : Option Pend) (evs : List Nat)
  | branch (m : Dg) (r : Regs) (next : Option Addr) (kind : BrKind)
  | hold (m : Dg)

/-- R115, R116: end of body at the innermost level, then at each enclosing level whose exit coincides. -/
def endLoops (pcI : Addr) : Nat → Regs → Addr → Regs × Addr
  | 0, r, next => (r, next)
  | n + 1, r, next =>
    let k := r.ldepth - 1
    if r.ldepth = 0 then (r, next)
    else if SMap.get r.ls k ≤ pcI ∧ pcI < SMap.get r.le k ∧ next = SMap.get r.le k then
      let lc := SMap.get r.lc k - 1
      let r := { r with lc := SMap.set r.lc k lc }
      if lc ≠ 0 then (r, SMap.get r.ls k) else endLoops pcI n { r with ldepth := k } next
    else (r, next)

/-- R75, Table 07.24: branch trace of a taken branch, written by Easel: the code store refuses what R341 does. -/
def traceBranch (m : Dg) (c : CtxId) (target : Addr) : Dg :=
  let t := SMap.get m.easel.trace c
  if t.enable ∧ 16 ≤ t.len then
    let a := t.buf + t.written % t.len
    let m := if regionOf m true a = .store ∧ !storeAllowed m .supervisor a then writeProtect m a
      else (writeSpan m viaPort1 a (leBytes 8 target.toNat ++ leBytes 8 m.now)).1
    { m with easel := { m.easel with trace := SMap.set m.easel.trace c { t with written := t.written + 16 } } }
  else m

/-- R72: single steps of the context are still to be made. -/
def stepping (m : Dg) (c : CtxId) : Bool := 0 < (SMap.get m.easel.step c).left

/-- The single steps of a context end: EASEL_STEP answers with the PC and the instructions retired (Table 07.24). -/
def endStep (m : Dg) (c : CtxId) : Dg :=
  let t := SMap.get m.easel.step c
  finishAt { m with easel := { m.easel with step := SMap.set m.easel.step c default } } (some (31, t.tag)) stOk 0
    (leBytes 8 (getCtx m c).r.pc.toNat ++ leBytes 4 t.done)

/-- R72: one instruction has retired under single step. -/
def stepped (m : Dg) (c : CtxId) : Dg :=
  let t := SMap.get m.easel.step c
  if t.left = 0 then m
  else
    let m := { m with easel := { m.easel with step := SMap.set m.easel.step c { t with left := t.left - 1, done := t.done + 1 } } }
    if t.left = 1 then endStep m c else m

/-- A breakpoint, a watchpoint or BKPT halts a context; single steps end with the instruction. The halt of a group ends an
underpainting of its studio (R399). -/
def haltAt (m : Dg) (c : CtxId) : Dg :=
  if stepping m c then
    { m with easel := { m.easel with step := SMap.upd m.easel.step c fun t => { t with left := 1 } } }
  else if c < 16 then
    let m := abortUnderAt m (c / 4) 8
    if (getGrp m c).state = .unused then m else haltCtx m c true
  else haltCtx m c true

/-- An instruction of `len` bytes retires: the load before it retires with it (R100, R103, R206), the loop registers act
(R115), the interrupt hold-off counts down (R226). An instruction that changes MODE is counted in the mode after it: the
model's choice (notes/assumptions/118.md). -/
def retire (m : Dg) (c : CtxId) (len : Nat) (r : Regs) (next : Option Addr) (ld : Option Pend) (before : Regs) : Dg :=
  let x := getCtx m c
  let m := applyDeq m ((x.load.map (·.deq)).getD none)
  let pcI := r.pc
  let seq := pcI + BitVec.ofNat 48 len
  let (r, nx) := endLoops pcI 4 r (next.getD seq)
  let r := { r with pc := nx, holdoff := r.holdoff - 1 }
  let m := updCtx m c fun x =>
    { x with r := r,
             load := ld.map fun p => ⟨p.isA, p.reg, p.value, p.wait, before, p.deq⟩ }
  let m := countLoad m c x.load
  let m := passTime (if ld.isSome then m else countEv m c 0x02) c
  stepped (if next.isSome && next != some seq then traceBranch m c nx else m) c

/-- An iteration of a repeated instruction retires: REPCNT counts down; after the last, execution goes on behind the
instruction, otherwise it stays at it (R122, R126). -/
def retireRep (m : Dg) (c : CtxId) (r : Regs) (ld : Option Pend) (before : Regs) : Dg :=
  let n := if r.repcnt = 0 then 0 else r.repcnt - 1
  if n = 0 then retire m c 4 { r with repcnt := n, rep := none, repact := false } none ld before
  else
    let x := getCtx m c
    let m := applyDeq m ((x.load.map (·.deq)).getD none)
    let m := updCtx m c fun x =>
      { x with r := { r with repcnt := n, holdoff := r.holdoff - 1 },
               load := ld.map fun p => ⟨p.isA, p.reg, p.value, p.wait, before, p.deq⟩ }
    let m := countLoad m c x.load
    stepped (passTime (if ld.isSome then m else countEv m c 0x02) c) c

/-- R198: a branch has retired: the direction predictor follows BZ and BNZ, a taken branch takes its entry, and calls and
returns move the return stack. What the predictor holds of a direction is the model's choice (notes/assumptions/109.md). -/
def noteBranch (m : Dg) (c : CtxId) (pc seq : Addr) (kind : BrKind) (target : Option Addr) : Dg :=
  let x := getCtx m c
  if isSup c || x.r.det then m
  else
    let i := bits pc.toNat 2 10
    let tag := pc.toNat / 2 ^ 12
    let x := if kind = .bz ∨ kind = .bnz then { x with dir := SMap.set x.dir i target.isSome } else x
    match target with
    | none => setCtx m c x
    | some t =>
      let set := SMap.get x.btb i
      let m := setCtx m c { x with
        btb := SMap.set x.btb i ((⟨tag, kind, t⟩ :: set.filter fun e => e.tag != tag).take 4),
        ras := match kind with
          | .call => (seq :: x.ras).take 16
          | .callr => (seq :: x.ras).take 16
          | .ret => x.ras.drop 1
          | _ => x.ras }
      if set.any fun e => e.tag == tag then m else countEv m c 0x07

/-- The run state of a context: a group that is seated and neither frozen, halted nor lost, with a partition that has
been started; a QM core; Labazor-S. -/
def runnable (m : Dg) (c : CtxId) : Bool :=
  let x := getCtx m c
  let started : Bool := match (getPart m x.pid).state with
    | .starting => true
    | .running => true
    | _ => false
  !x.waiting && !x.stopped && x.pcie.isNone &&
  (if c < 16 then
    let g := getGrp m c
    (!g.halt || stepping m c) && started && (!g.shadow || underLive m) &&
    (match g.state with
     | .full => true
     | .degraded => true
     | .reseating => ((getStudio m (c / 4)).reseat.bind (·.frozen)).isNone
     | _ => false)
   else if c < 56 then (getCore m (c - 16)).role == .qm && !(getCore m (c - 16)).clockStopped && (!halted m c || stepping m c) && started
   else c == supCtx && !unpowered m && !halted m c)

/-- R75: an enabled breakpoint unit of the context matches an address. -/
def breakHit (m : Dg) (c : CtxId) (a : Nat) : Bool :=
  (List.range 4).any fun u =>
    let b := SMap.get m.easel.brk (8 * c + u)
    b.enable && (a &&& b.mask) == (b.addr &&& b.mask)

/-- R75: a watchpoint unit matches an access: 1 read, 2 write, 3 either. -/
def watchHit (m : Dg) (c : CtxId) (a len kind : Nat) : Bool :=
  (List.range 4).any fun u =>
    let b := SMap.get m.easel.brk (8 * c + 4 + u)
    b.enable && (b.access == 3 || b.access == kind) &&
    ((List.range len).any fun i => ((a + i) &&& b.mask) == (b.addr &&& b.mask))

/-- A completed access that a watchpoint unit matches halts the context behind its instruction (R75). -/
def watched (m : Dg) (c : CtxId) (a len kind : Nat) : Dg := if watchHit m c a len kind then haltAt m c else m

/-- An instruction of a context: `len` bytes, whether it may be an iteration, and its own work from the registers it
reads (a load's shadow reads the old destination) and those it writes onto (R100, R101). An interrupt that is due comes first
(R144, R225). It has no effect where the context does not run (notes/assumptions/5.md), nor where its fetch or the vector entry
of its exception meets a waking bank (R325). -/
def instr (m : Dg) (c : CtxId) (len : Nat) (body : Dg → Regs → Regs → IRes) : Dg :=
  if !runnable m c then m
  else if irqDue (getCtx m c) && !stepping m c then takeIrq m c
  else if breakHit m c (getCtx m c).r.pc.toNat && !SMap.get m.easel.pass c then
    (if stepping m c then endStep m c else haltAt m c)
  else
    let m := { m with easel := { m.easel with pass := SMap.set m.easel.pass c false } }
    let m0 := m
    let take (m : Dg) (e : Exn) : Dg := if entryWaits m0 c e.vec then m0 else takeExn m c e
    if fetchWaits m c len then m
    else match fetch m c len with
    | (m, false) => take m (exnAt 3 0 (getCtx m c).r.pc.toNat)
    | (m, true) =>
      let x := getCtx m c
      let base := withLoad x
      match body m x.r base with
      | .trap m e => take m e
      | .hold m => m
      | .branch m r next kind =>
        let m := noteBranch (retire m c len r next none base) c x.r.pc (x.r.pc + BitVec.ofNat 48 len) kind next
        if kind = .call ∨ kind = .callr ∨ kind = .ret then countEv m c 0x12 else m
      | .done m r next ld evs =>
        evs.foldl (fun m e => countEv m c e)
          (if x.r.rep.isSome then retireRep m c r ld base else retire m c len r next ld base)

end Sys2Proof.Machine
end

