-- ==== Sys2Proof/Machine/IntOps.lean ====
section
/-! DEFINITION. Integer, compare, move, shuffle, field, multiply, division, decimal and checksum instructions (spec/03
R150 to R174, spec/02 R87, R113, R127 to R130, R140). -/
namespace Sys2Proof.Machine

/-- The result of an instruction that writes registers only. -/
def regs (m : Dg) (r : Regs) : IRes := .done m r none none []

/-- ILLEGAL with the lowest detail whose condition holds (R141). -/
def lowest (l : List (Bool × Nat)) : Option Nat := (l.find? (·.1)).map (·.2)

/-- Runs the work of an instruction whose encoding passes its checks. -/
def checked (l : List (Bool × Nat)) (k : Dg → Regs → Regs → IRes) (m : Dg) (src base : Regs) : IRes :=
  match lowest l with
  | some d => .trap m (illegal d)
  | none => k m src base

/-- The RRR instructions whose result is one value in Dd (Table 03.1); `unary` reserves s2. -/
def rrrBody (op : Nat) (unary : Bool) (f : Rrr) (m : Dg) (src base : Regs) : IRes :=
  let v := (intWidth f.w).bind fun w => rrrValue op f.fn.toNat w (src.getD f.s1.toNat) (src.getD f.s2.toNat)
  match v with
  | none => .trap m (illegal 2)
  | some v => if unary && f.s2 != 0 then .trap m (illegal 3) else regs m (base.setD f.d.toNat v)

/-- The RRI instructions (R157, R158, R160); `rsv` tells that a reserved field is not zero. -/
def rriBody (op : Nat) (rsv : Bool) (f : Rri) (m : Dg) (src base : Regs) : IRes :=
  let v := (intWidth f.w).bind fun w => rriValue op w f.imm (src.getD f.d.toNat) (src.getD f.s1.toNat)
  match v with
  | none => .trap m (illegal 2)
  | some v => if rsv then .trap m (illegal 3) else regs m (base.setD f.d.toNat v)

/-- R161, R162: MAC and MACS. -/
def macBody (sat : Bool) (f : Rrr) (m : Dg) (src base : Regs) : IRes :=
  checked [((intWidth f.w).isNone || 4 ≤ f.fn.toNat, 2), (4 ≤ f.d.toNat, 4)] (fun m src base =>
    let w := (intWidth f.w).getD 8
    let e := macExact f.fn.toNat w (SMap.get src.acc f.d.toNat) (src.getD f.s1.toNat) (src.getD f.s2.toNat)
    let e := if sat then clampInt (-(2 ^ 255)) (2 ^ 255 - 1) e else e
    regs m { base with acc := SMap.set base.acc f.d.toNat (BitVec.ofInt 272 e) }) m src base

/-- R163, R167, R168: DIVE. -/
def diveBody (f : Rrr) (m : Dg) (src base : Regs) : IRes :=
  let fn := f.fn.toNat
  let st := bits fn 2 5
  checked [(4 ≤ f.w.toNat || st == f.d.toNat, 2), (bit fn 1, 3)] (fun m src base =>
    let w := (intWidth f.w).getD 8
    let (q, a, b) := (src.getD f.d.toNat, src.getD f.s1.toNat, src.getD f.s2.toNat)
    regs m ((base.setD f.d.toNat (dive (bit fn 0) w q a b)).setD st (diveStatus (bit fn 0) w q a b))) m src base

/-- R171 to R173: DEC; FN[1:0] names the operation, FN[6:2] the validity register. -/
def decBody (f : Rrr) (m : Dg) (src base : Regs) : IRes :=
  let fn := f.fn.toNat
  let v := bits fn 2 5
  checked [(f.w.toNat != 4 || v == f.d.toNat, 2), (2 ≤ fn % 4 && f.s2 != 0, 3)] (fun m src base =>
    match decOp (fn % 4) (src.getD f.s1.toNat) (src.getD f.s2.toNat) with
    | some x => regs m ((base.setD f.d.toNat x).setD v 1)
    | none => regs m ((base.setD f.d.toNat 0).setD v 0)) m src base

/-- R113: SEL. -/
def selBody (f : Rrrr) (m : Dg) (src base : Regs) : IRes :=
  checked [((intWidth f.w).isNone, 2), (f.rsv != 0, 3)] (fun m src base =>
    let w := (intWidth f.w).getD 8
    let (k, a, b) := (src.getD f.cond.toNat, src.getD f.s1.toNat, src.getD f.s2.toNat)
    regs m (base.setD f.d.toNat (ofElems w fun i => if elem w k i != 0 then elem w a i else elem w b i))) m src base

/-- R85, R87: MOV by its FN. -/
def movBody (f : Rrr) (m : Dg) (src base : Regs) : IRes :=
  let (fn, d, s1, s2) := (f.fn.toNat, f.d.toNat, f.s1.toNat, f.s2.toNat)
  let badReg : Bool :=
    match fn with
    | 0 => false
    | 1 => 16 ≤ s1
    | 2 => 16 ≤ d
    | 3 => 16 ≤ d || 16 ≤ s1
    | 4 => 17 ≤ s2
    | 5 => 17 ≤ s2
    | 6 => 4 ≤ d || 3 ≤ s2
    | _ => 4 ≤ s1 || 3 ≤ s2
  checked [((intWidth f.w).isNone || 8 ≤ fn, 2), (badReg, 4)] (fun m src base =>
    regs m (match fn with
      | 0 => base.setD d (src.getD s1)
      | 1 => base.setD d ((src.getA s1).setWidth 128)
      | 2 => base.setA d ((src.getD s1).setWidth 64)
      | 3 => base.setA d (src.getA s1)
      | 4 => base.setSpecial s2 (src.getD s1).toNat
      | 5 => base.setD d (BitVec.ofNat 128 (src.getSpecial s2))
      | 6 => base.setAccPart d s2 (src.getD s1)
      | _ => base.setD d (src.getAccPart s1 s2))) m src base

/-- R128: CRCS. -/
def crcsBody (f : Rrr) (m : Dg) (src base : Regs) : IRes :=
  checked [((intWidth f.w).isNone || f.fn != 0, 2)] (fun m src base =>
    regs m (base.setD f.d.toNat
      (crcStep src.crcpoly src.crcpolyv ((intWidth f.w).getD 8 / 8) (src.getD f.s1.toNat) (src.getD f.s2.toNat)))) m src base

/-- R140: LI. -/
def liBody (f : Long) (m : Dg) (src base : Regs) : IRes :=
  let x := f.x.toNat
  let reg := bits x 11 5
  checked [(bits x 0 10 != 0, 3), (bit x 10 && 16 ≤ reg, 4)] (fun m _ base =>
    regs m (if bit x 10 then base.setA reg (f.imm.signExtend 64) else base.setD reg (f.imm.signExtend 128))) m src base

/-- ADD, R151. -/
def execAdd (c : CtxId) (f : Rrr) (s : State) : Host.Outcome State Fault Refusal :=
  run s fun m => instr m c 4 (rrrBody 0x01 false f)

/-- ADD.C, R153. -/
def execAddC (c : CtxId) (f : Rrr) (s : State) : Host.Outcome State Fault Refusal :=
  run s fun m => instr m c 4 (rrrBody 0x01 false f)

/-- SUB, R151. -/
def execSub (c : CtxId) (f : Rrr) (s : State) : Host.Outcome State Fault Refusal :=
  run s fun m => instr m c 4 (rrrBody 0x02 false f)

/-- SUB.B, R153. -/
def execSubB (c : CtxId) (f : Rrr) (s : State) : Host.Outcome State Fault Refusal :=
  run s fun m => instr m c 4 (rrrBody 0x02 false f)

/-- ADDSAT, R152. -/
def execAddsat (c : CtxId) (f : Rrr) (s : State) : Host.Outcome State Fault Refusal :=
  run s fun m => instr m c 4 (rrrBody 0x03 false f)

/-- SUBSAT, R152. -/
def execSubsat (c : CtxId) (f : Rrr) (s : State) : Host.Outcome State Fault Refusal :=
  run s fun m => instr m c 4 (rrrBody 0x04 false f)

/-- AND, R151. -/
def execAndd (c : CtxId) (f : Rrr) (s : State) : Host.Outcome State Fault Refusal :=
  run s fun m => instr m c 4 (rrrBody 0x05 false f)

/-- OR, R151. -/
def execOrr (c : CtxId) (f : Rrr) (s : State) : Host.Outcome State Fault Refusal :=
  run s fun m => instr m c 4 (rrrBody 0x06 false f)

/-- XOR, R151. -/
def execXorr (c : CtxId) (f : Rrr) (s : State) : Host.Outcome State Fault Refusal :=
  run s fun m => instr m c 4 (rrrBody 0x07 false f)

/-- ANDN, R151. -/
def execAndn (c : CtxId) (f : Rrr) (s : State) : Host.Outcome State Fault Refusal :=
  run s fun m => instr m c 4 (rrrBody 0x08 false f)

/-- SHL, R154. -/
def execShl (c : CtxId) (f : Rrr) (s : State) : Host.Outcome State Fault Refusal :=
  run s fun m => instr m c 4 (rrrBody 0x09 false f)

/-- SHR, R154. -/
def execShr (c : CtxId) (f : Rrr) (s : State) : Host.Outcome State Fault Refusal :=
  run s fun m => instr m c 4 (rrrBody 0x0A false f)

/-- SHRA, R154. -/
def execShra (c : CtxId) (f : Rrr) (s : State) : Host.Outcome State Fault Refusal :=
  run s fun m => instr m c 4 (rrrBody 0x0B false f)

/-- ROT, R154. -/
def execRot (c : CtxId) (f : Rrr) (s : State) : Host.Outcome State Fault Refusal :=
  run s fun m => instr m c 4 (rrrBody 0x0C false f)

/-- MIN, R151. -/
def execMin (c : CtxId) (f : Rrr) (s : State) : Host.Outcome State Fault Refusal :=
  run s fun m => instr m c 4 (rrrBody 0x0D false f)

/-- MAX, R151. -/
def execMax (c : CtxId) (f : Rrr) (s : State) : Host.Outcome State Fault Refusal :=
  run s fun m => instr m c 4 (rrrBody 0x0E false f)

/-- UNARY NEG, R155. -/
def execNeg (c : CtxId) (f : Rrr) (s : State) : Host.Outcome State Fault Refusal :=
  run s fun m => instr m c 4 (rrrBody 0x0F true f)

/-- UNARY ABS, R155. -/
def execAbs (c : CtxId) (f : Rrr) (s : State) : Host.Outcome State Fault Refusal :=
  run s fun m => instr m c 4 (rrrBody 0x0F true f)

/-- UNARY ABSSAT, R155. -/
def execAbssat (c : CtxId) (f : Rrr) (s : State) : Host.Outcome State Fault Refusal :=
  run s fun m => instr m c 4 (rrrBody 0x0F true f)

/-- UNARY NOT, R155. -/
def execNott (c : CtxId) (f : Rrr) (s : State) : Host.Outcome State Fault Refusal :=
  run s fun m => instr m c 4 (rrrBody 0x0F true f)

/-- UNARY CLZ, R156. -/
def execClz (c : CtxId) (f : Rrr) (s : State) : Host.Outcome State Fault Refusal :=
  run s fun m => instr m c 4 (rrrBody 0x0F true f)

/-- UNARY CTZ, R156. -/
def execCtz (c : CtxId) (f : Rrr) (s : State) : Host.Outcome State Fault Refusal :=
  run s fun m => instr m c 4 (rrrBody 0x0F true f)

/-- UNARY DVINIT.U, R165. -/
def execDvinitU (c : CtxId) (f : Rrr) (s : State) : Host.Outcome State Fault Refusal :=
  run s fun m => instr m c 4 (rrrBody 0x0F true f)

/-- UNARY DVINIT.S, R165. -/
def execDvinitS (c : CtxId) (f : Rrr) (s : State) : Host.Outcome State Fault Refusal :=
  run s fun m => instr m c 4 (rrrBody 0x0F true f)

/-- MUL, R151. -/
def execMul (c : CtxId) (f : Rrr) (s : State) : Host.Outcome State Fault Refusal :=
  run s fun m => instr m c 4 (rrrBody 0x18 false f)

/-- MULH, R151. -/
def execMulh (c : CtxId) (f : Rrr) (s : State) : Host.Outcome State Fault Refusal :=
  run s fun m => instr m c 4 (rrrBody 0x19 false f)

/-- DIVS, R166. -/
def execDivs (c : CtxId) (f : Rrr) (s : State) : Host.Outcome State Fault Refusal :=
  run s fun m => instr m c 4 (rrrBody 0x1C false f)

/-- CMP, R111. -/
def execCmp (c : CtxId) (f : Rrr) (s : State) : Host.Outcome State Fault Refusal :=
  run s fun m => instr m c 4 (rrrBody 0x40 false f)

/-- SHUF, R159. -/
def execShuf (c : CtxId) (f : Rrr) (s : State) : Host.Outcome State Fault Refusal :=
  run s fun m => instr m c 4 (rrrBody 0x44 false f)

/-- PAR, R129. -/
def execPar (c : CtxId) (f : Rrr) (s : State) : Host.Outcome State Fault Refusal :=
  run s fun m => instr m c 4 (rrrBody 0x49 false f)

/-- BREV, R130. -/
def execBrev (c : CtxId) (f : Rrr) (s : State) : Host.Outcome State Fault Refusal :=
  run s fun m => instr m c 4 (rrrBody 0x4A false f)

/-- BCNT, R156. -/
def execBcnt (c : CtxId) (f : Rrr) (s : State) : Host.Outcome State Fault Refusal :=
  run s fun m => instr m c 4 (rrrBody 0x4B false f)

/-- ADDI, R157. -/
def execAddi (c : CtxId) (f : Rri) (s : State) : Host.Outcome State Fault Refusal :=
  run s fun m => instr m c 4 (rriBody 0x10 false f)

/-- ANDI, R157. -/
def execAndi (c : CtxId) (f : Rri) (s : State) : Host.Outcome State Fault Refusal :=
  run s fun m => instr m c 4 (rriBody 0x11 false f)

/-- ORI, R157. -/
def execOri (c : CtxId) (f : Rri) (s : State) : Host.Outcome State Fault Refusal :=
  run s fun m => instr m c 4 (rriBody 0x12 false f)

/-- XORI, R157. -/
def execXori (c : CtxId) (f : Rri) (s : State) : Host.Outcome State Fault Refusal :=
  run s fun m => instr m c 4 (rriBody 0x13 false f)

/-- SHLI, R157: IMM12[11:7] is reserved. -/
def execShli (c : CtxId) (f : Rri) (s : State) : Host.Outcome State Fault Refusal :=
  run s fun m => instr m c 4 (rriBody 0x14 (bits f.imm.toNat 7 5 != 0) f)

/-- SHRI, R157. -/
def execShri (c : CtxId) (f : Rri) (s : State) : Host.Outcome State Fault Refusal :=
  run s fun m => instr m c 4 (rriBody 0x15 (bits f.imm.toNat 7 5 != 0) f)

/-- SHRAI, R157. -/
def execShrai (c : CtxId) (f : Rri) (s : State) : Host.Outcome State Fault Refusal :=
  run s fun m => instr m c 4 (rriBody 0x16 (bits f.imm.toNat 7 5 != 0) f)

/-- MOVI, R157: s1 is reserved. -/
def execMovi (c : CtxId) (f : Rri) (s : State) : Host.Outcome State Fault Refusal :=
  run s fun m => instr m c 4 (rriBody 0x17 (f.s1 != 0) f)

/-- CMPI, R158. -/
def execCmpi (c : CtxId) (f : Rri) (s : State) : Host.Outcome State Fault Refusal :=
  run s fun m => instr m c 4 (rriBody 0x41 false f)

/-- INS, R160: IMM12[11:7] is reserved. -/
def execIns (c : CtxId) (f : Rri) (s : State) : Host.Outcome State Fault Refusal :=
  run s fun m => instr m c 4 (rriBody 0x45 (bits f.imm.toNat 7 5 != 0) f)

/-- EXT, R160: IMM12[11:8] is reserved. -/
def execExt (c : CtxId) (f : Rri) (s : State) : Host.Outcome State Fault Refusal :=
  run s fun m => instr m c 4 (rriBody 0x46 (bits f.imm.toNat 8 4 != 0) f)

/-- MAC, R161. -/
def execMac (c : CtxId) (f : Rrr) (s : State) : Host.Outcome State Fault Refusal :=
  run s fun m => instr m c 4 (macBody false f)

/-- MACS, R162. -/
def execMacs (c : CtxId) (f : Rrr) (s : State) : Host.Outcome State Fault Refusal :=
  run s fun m => instr m c 4 (macBody true f)

/-- DIVE, R167, R168. -/
def execDive (c : CtxId) (f : Rrr) (s : State) : Host.Outcome State Fault Refusal :=
  run s fun m => instr m c 4 (diveBody f)

/-- DEC DADD, R172. -/
def execDadd (c : CtxId) (f : Rrr) (s : State) : Host.Outcome State Fault Refusal :=
  run s fun m => instr m c 4 (decBody f)

/-- DEC DSUB, R172. -/
def execDsub (c : CtxId) (f : Rrr) (s : State) : Host.Outcome State Fault Refusal :=
  run s fun m => instr m c 4 (decBody f)

/-- DEC DTOB, R171. -/
def execDtob (c : CtxId) (f : Rrr) (s : State) : Host.Outcome State Fault Refusal :=
  run s fun m => instr m c 4 (decBody f)

/-- DEC BTOD, R172. -/
def execBtod (c : CtxId) (f : Rrr) (s : State) : Host.Outcome State Fault Refusal :=
  run s fun m => instr m c 4 (decBody f)

/-- SEL, R113. -/
def execSel (c : CtxId) (f : Rrrr) (s : State) : Host.Outcome State Fault Refusal :=
  run s fun m => instr m c 4 (selBody f)

/-- MOV, R87. -/
def execMov (c : CtxId) (f : Rrr) (s : State) : Host.Outcome State Fault Refusal :=
  run s fun m => instr m c 4 (movBody f)

/-- CRCS, R128. -/
def execCrcs (c : CtxId) (f : Rrr) (s : State) : Host.Outcome State Fault Refusal :=
  run s fun m => instr m c 4 (crcsBody f)

/-- LI, R140. -/
def execLi (c : CtxId) (f : Long) (s : State) : Host.Outcome State Fault Refusal :=
  run s fun m => instr m c 8 (liBody f)

end Sys2Proof.Machine
end

