-- ==== Sys2Proof/Machine/Control.lean ====
section
/-! DEFINITION. Control flow (spec/02): branches and jumps, calls and returns with their frames, hardware loops, the
repeat prefix, undefined opcodes. -/
namespace Sys2Proof.Machine

/-- A jump: the next pc, which must be 4-byte aligned (ALIGN detail 3). -/
def jumpTo (m : Dg) (r : Regs) (k : BrKind) (t : Addr) : IRes :=
  if t.toNat % 4 ≠ 0 then .trap m (exn 5 3) else .branch m r (some t) k

/-- R112: BZ and BNZ. -/
def branchBody (onZero : Bool) (f : Br) (m : Dg) (src base : Regs) : IRes :=
  let k : BrKind := if onZero then .bz else .bnz
  if (src.getD f.t.toNat == 0) == onZero then jumpTo m base k (relWords src.pc (f.disp.signExtend 64))
  else .branch m base none k

/-- BZ, R112. -/
def execBz (c : CtxId) (f : Br) (s : State) : Host.Outcome State Fault Refusal :=
  run s fun m => instr m c 4 (branchBody true f)

/-- BNZ, R112. -/
def execBnz (c : CtxId) (f : Br) (s : State) : Host.Outcome State Fault Refusal :=
  run s fun m => instr m c 4 (branchBody false f)

/-- J, R139. -/
def execJ (c : CtxId) (disp : BitVec 25) (s : State) : Host.Outcome State Fault Refusal :=
  run s fun m => instr m c 4 fun m src base => jumpTo m base .j (relWords src.pc (disp.signExtend 64))

/-- JR, R139. -/
def execJr (c : CtxId) (f : Jr) (s : State) : Host.Outcome State Fault Refusal :=
  run s fun m => instr m c 4 fun m src base =>
    if f.rsvHi ≠ 0 ∨ f.rsvLo ≠ 0 then .trap m (illegal 3) else jumpTo m base .jr ((src.getA f.an.toNat).setWidth 48)

/-- JL, R140. -/
def execJl (c : CtxId) (f : Long) (s : State) : Host.Outcome State Fault Refusal :=
  run s fun m => instr m c 8 fun m src base =>
    if f.x ≠ 0 then .trap m (illegal 3) else jumpTo m base .jl (relWords src.pc (f.imm.signExtend 64))

/-! ### Calls and returns -/

/-- The saved registers of a MASK, lowest first (R107). -/
def maskRegs (mask : BitVec 16) : List Nat := (List.range 16).filter (fun i => mask.getLsbD i) |>.map (16 + ·)

/-- Bytes of a frame (Table 02.11). -/
def frameSize (mask : BitVec 16) : Nat := 16 + 16 * (maskRegs mask).length

/-- The stack limit of the mode (R108). -/
def stackLimit (r : Regs) : Nat := if r.mode = .user then r.slimu.toNat else r.slims.toNat

/-- The checks of whole accesses, one after another. -/
def checkAccesses (m : Dg) (c : CtxId) (acc len : Nat) : List Nat → Dg × Option Exn
  | [] => (m, none)
  | a :: l =>
    match checkAccess m c acc a len with
    | (m, some e) => (m, some e)
    | (m, none) => checkAccesses m c acc len l

/-- A list of 16-byte stores, all checked before the first is made (R110); those of the PCIe window leave in order, behind the
older stores of the context (R211, R212). -/
def storeQuads (m : Dg) (c : CtxId) (a : Nat) (l : List Nat) : Dg × Option Exn :=
  let addrs := (List.range l.length).map fun i => a + 16 * i
  match checkAccesses m c 1 16 addrs with
  | (m, some e) => (m, some e)
  | (m, none) =>
    if regionOf m (isSup c) a = .pcie then
      (pcieWrote (drainAll m c) ((addrs.zip l).map fun e => (e.1 - pcieBase, leBytes 16 e.2)), none)
    else ((addrs.zip l).foldl (fun m e => bufferStore m c e.1 16 e.2) m, none)

/-- R108: a call to a target from the instruction of `len` bytes. The stores of a frame in the PCIe window leave through the
root port (R566). That an A15 or a new stack pointer at or above 2^48 raises ADDRESS, as R94 has it for loads and stores, is
the model's choice (notes/assumptions/110.md). -/
def callBody (c : CtxId) (len : Nat) (mask : BitVec 16) (k : BrKind) (target : Addr) (m : Dg) (src base : Regs) : IRes :=
  let a15 := (src.getA 15).toNat
  let size := frameSize mask
  let sp := a15 - size
  if size ≤ a15 ∧ 2 ^ 48 ≤ sp then .trap m (exnAt 6 0 sp)
  else if a15 % 16 ≠ 0 then .trap m (exn 5 2)
  else if target.toNat % 4 ≠ 0 then .trap m (exn 5 3)
  else if size ≤ a15 ∧ regionOf m (isSup c) sp = .regs then .trap m (exnAt 5 1 sp)
  else if a15 < size ∨ sp < stackLimit src then .trap m (exn 7 0)
  else if drainWaits m c && (regionOf m (isSup c) sp == .pcie || 20 ≤ (getCtx m c).sb.length) then .hold m
  else
    let w0 := (src.getA 14).toNat + mask.toNat * 2 ^ 64
    match storeQuads m c sp (w0 :: (maskRegs mask).map fun i => (src.getD i).toNat) with
    | (m, some e) => .trap m e
    | (m, none) =>
      let r := (base.setA 15 (BitVec.ofNat 64 sp)).setA 14 ((src.pc + BitVec.ofNat 48 len).setWidth 64)
      .branch m r (some target) k

/-- CALL, R108. -/
def execCall (c : CtxId) (f : Long) (s : State) : Host.Outcome State Fault Refusal :=
  run s fun m => instr m c 8 fun m src base => callBody c 8 f.x .call (relWords src.pc (f.imm.signExtend 64)) m src base

/-- CALLR, R108. Bits [63:48] of An are dropped from the target, as those of A14 are by RET: the model's choice
(notes/assumptions/110.md). -/
def execCallr (c : CtxId) (f : CallR) (s : State) : Host.Outcome State Fault Refusal :=
  run s fun m => instr m c 4 fun m src base =>
    if f.rsv ≠ 0 then .trap m (illegal 3)
    else callBody c 4 f.mask .callr ((src.getA f.an.toNat).setWidth 48) m src base

/-- R109, R110: RET: the mask word, the saved registers, then A14. A frame in the register space is refused as a whole: the
16-byte loads of R109 are (R97). -/
def retBody (c : CtxId) (mask : BitVec 16) (m : Dg) (src base : Regs) : IRes :=
  let sp := (src.getA 15).toNat
  let target : Addr := (src.getA 14).setWidth 48
  let w := sp + 8
  if 2 ^ 48 ≤ w then .trap m (exnAt 6 0 w)
  else if regionOf m (isSup c) w = .regs then .trap m (exnAt 5 1 w)
  else if target.toNat % 4 ≠ 0 then .trap m (exn 5 3)
  else if waits m w 8 || waits m (sp + frameSize mask - 16) 16 then .hold m
  else match loadPart m c w 8 with
    | (m, .error e) => .trap m e
    | (m, .ok word) =>
      let l := maskRegs mask
      let step (st : Dg × Except Exn (List Nat)) (i : Nat) : Dg × Except Exn (List Nat) :=
        match st with
        | (m, .error e) => (m, .error e)
        | (m, .ok vs) => match loadPart m c (sp + 16 + 16 * i) 16 with
          | (m, .error e) => (m, .error e)
          | (m, .ok v) => (m, .ok (vs ++ [v]))
      if word ≠ mask.toNat then .trap m (exn 8 0)
      else match (List.range l.length).foldl step (m, .ok []) with
        | (m, .error e) => .trap m e
        | (m, .ok vs) => match loadPart m c sp 8 with
          | (m, .error e) => .trap m e
          | (m, .ok a14) =>
            let r := (l.zip vs).foldl (fun r e => r.setD e.1 (BitVec.ofNat 128 e.2)) base
            let r := (r.setA 14 (BitVec.ofNat 64 a14)).setA 15 (BitVec.ofNat 64 (sp + frameSize mask))
            .branch m r (some target) .ret

/-- RET, R109. -/
def execRet (c : CtxId) (f : CallR) (s : State) : Host.Outcome State Fault Refusal :=
  run s fun m => instr m c 4 fun m src base =>
    if f.an ≠ 0 ∨ f.rsv ≠ 0 then .trap m (illegal 3) else retBody c f.mask m src base

/-! ### Hardware loops -/

/-- R114, R117: a loop of `words` words behind an instruction of `len` bytes. A loop that does not nest raises LOOP even where
its count is 0: the model's choice (notes/assumptions/110.md). R117 is taken as it stands for a handler too: one that opens a
loop at level LDEPTH, beside the active loops of the interrupted task, raises LOOP with detail 2, where R121 and its example let
it open: the model's choice (notes/assumptions/117.md). -/
def loopBody (len count words : Nat) (m : Dg) (src base : Regs) : IRes :=
  let k := src.ldepth
  let ls := src.pc + BitVec.ofNat 48 len
  let le := ls + BitVec.ofNat 48 (4 * words)
  let inside (x : Addr) : Bool := SMap.get src.ls (k - 1) ≤ x && x ≤ SMap.get src.le (k - 1)
  if 4 ≤ k then .trap m (exn 9 1)
  else if 0 < k && !(inside ls && inside le) then .trap m (exn 9 2)
  else if count = 0 then .done m base (some le) none []
  else
    regs m { base with ls := SMap.set base.ls k ls, le := SMap.set base.le k le,
                       lc := SMap.set base.lc k (BitVec.ofNat 32 count), ldepth := k + 1 }

/-- LOOPI, R114. ILLEGAL has detail 3 for a LEN of 0, which Table 02.7 does not name: the model's choice
(notes/assumptions/110.md). -/
def execLoopi (c : CtxId) (f : LoopI) (s : State) : Host.Outcome State Fault Refusal :=
  run s fun m => instr m c 4 fun m src base =>
    if f.len = 0 ∨ f.rsv ≠ 0 then .trap m (illegal 3) else loopBody 4 f.count.toNat f.len.toNat m src base

/-- LOOP, R114: the count is bits [31:0] of Dn. For a LEN of 0 see LOOPI. -/
def execLoop (c : CtxId) (f : Long) (s : State) : Host.Outcome State Fault Refusal :=
  run s fun m => instr m c 8 fun m src base =>
    let len := bits f.imm.toNat 0 24
    if len = 0 ∨ bits f.x.toNat 0 11 ≠ 0 ∨ bits f.imm.toNat 24 8 ≠ 0 then .trap m (illegal 3)
    else loopBody 8 (bits (src.getD (bits f.x.toNat 11 5)).toNat 0 32) len m src base

/-- LBREAK, R118. -/
def execLbreak (c : CtxId) (rsv : BitVec 25) (s : State) : Host.Outcome State Fault Refusal :=
  run s fun m => instr m c 4 fun m src base =>
    if rsv ≠ 0 then .trap m (illegal 3)
    else if src.ldepth = 0 then .trap m (exn 9 3)
    else .done m { base with ldepth := src.ldepth - 1 } (some (SMap.get src.le (src.ldepth - 1))) none []

/-! ### The repeat prefix -/

/-- Table 02.23: an opcode marked repeatable. -/
def repeatable (op : Nat) : Bool :=
  (1 ≤ op && op ≤ 0x1C) || (0x20 ≤ op && op ≤ 0x3B) || (0x40 ≤ op && op ≤ 0x46) || (0x48 ≤ op && op ≤ 0x4B)

/-- R123, R124: the detail with which REP before a word is ILLEGAL. -/
def repRefused (w : BitVec 32) : Option Nat :=
  let n := w.toNat
  if !repeatable (opcodeOf w) then some 6
  else if opcodeOf w = 0x2E ∧ bits n 20 5 = bits n 16 4 then some 6
  else if opcodeOf w = 0x43 ∧ bits n 0 7 = 4 ∧ bits n 10 5 = 16 then some 7
  else none

/-- REP, R122: the iterations follow as commands of their own. ILLEGAL has detail 3 for a COUNT other than 0 with S = 1, which
Table 02.7 does not name: the model's choice (notes/assumptions/110.md). -/
def execRep (c : CtxId) (f : RepF) (s : State) : Host.Outcome State Fault Refusal :=
  run s fun m => instr m c 4 fun m src base =>
    if f.rsv ≠ 0 ∨ (f.s ∧ f.count ≠ 0) then .trap m (illegal 3)
    else match repRefused f.next with
      | some d => .trap m (illegal d)
      | none =>
        let n : BitVec 16 := if f.s then src.repcnt else f.count.setWidth 16
        if n = 0 then .done m { base with repcnt := 0 } (some (src.pc + 8)) none []
        else regs m { base with repcnt := n, rep := some src.pc }

/-! ### Undefined opcodes -/

/-- UNDEFINED_OPCODE, R139, R140: a word that spells no instruction raises ILLEGAL, with the detail that its decoding finds: 1
for an undefined primary or extended opcode, 2 for an FN that its opcode does not list. A word that spells an instruction makes
no such occurrence: it is that instruction's command. -/
def execUndefinedOpcode (c : CtxId) (word : BitVec 32) (s : State) : Host.Outcome State Fault Refusal :=
  run s fun m =>
    match decodeInstr c word 0 0 with
    | .error d => instr m c (if opcodeOf word = 0x7F then 8 else 4) fun m _ _ => .trap m (illegal d)
    | .ok _ => m

end Sys2Proof.Machine
end

