-- ==== Sys2Proof/Machine/System.lean ====
section
/-! DEFINITION. Control and status registers (spec/02 Table 02.4, spec/03 Table 03.5, spec/04 Table 04.9), system
instructions, and the events of the pipeline and of the interrupt controller (spec/04). -/
namespace Sys2Proof.Machine

/-- A CSR number of Table 02.4, 03.5 or 04.9 that the core has (R92, R183, R237). -/
def csrExists (sup : Bool) (n : Nat) : Bool :=
  n ≤ 6 || (0x10 ≤ n && n ≤ 0x13) || (0x20 ≤ n && n ≤ 0x2C) || n == 0x30 || n == 0x31 || (0xF00 ≤ n && n ≤ 0xF07) ||
  (!sup && ((0x40 ≤ n && n ≤ 0x42) || n == 0x100 || n == 0x101 || (0x108 ≤ n && n ≤ 0x10F) || (0x112 ≤ n && n ≤ 0x117)))

/-- A read-only CSR. -/
def csrRo (n : Nat) : Bool := n == 1 || n == 2 || n == 0x42 || 0xF00 ≤ n

/-- The value of a CSR. -/
def csrRead (p : Part) (sup : Bool) (r : Regs) (n : Nat) : Word :=
  match n with
  | 0x000 => statusWord r
  | 0x001 => r.ecause
  | 0x002 => r.eaddr
  | 0x003 => r.evbase
  | 0x004 => r.slimu
  | 0x005 => r.slims
  | 0x006 => r.a15u
  | 0x02C => r.repcnt.setWidth 64
  | 0x030 => r.crcpoly
  | 0x031 => r.crcpolyv
  | 0x040 => r.fpcr
  | 0x041 => r.fpsr
  | 0x042 => r.fpti
  | 0x100 => r.pmctl
  | 0x101 => r.pmovf
  | _ =>
    if 0xF00 ≤ n then BitVec.ofNat 64 (featWord p sup (n - 0xF00))
    else if 0x112 ≤ n then SMap.get r.pmsel (n - 0x110)
    else if 0x108 ≤ n then SMap.get r.pmc (n - 0x108)
    else if 0x20 ≤ n then BitVec.ofNat 64 (r.getSpecial (n - 0x20 + 4))
    else (SMap.get r.bk (n - 0x10)).setWidth 64

/-- R17: a value that places a reserved encoding into an enumerated field of a CSR. -/
def csrReserved (n v : Nat) : Bool :=
  match n with
  | 0x000 => bits v 0 2 == 3 || 5 ≤ bits v 8 3
  | 0x030 => 5 ≤ bits v 0 3 || (bits v 0 3 == 4 && bits v 4 6 < 7)
  | 0x040 => bits v 0 3 == 0 || 6 ≤ bits v 0 3
  | _ => 0x112 ≤ n && n ≤ 0x117 && 0x14 ≤ bits v 0 8

/-- R241: a W1C write of PMOVF, `hw` the bits that wraps set in the same cycle (R18). -/
def pmovfClear (pmovf v hw : Nat) : Nat :=
  (List.range 8).foldl (fun x n =>
    if bit hw n then
      (if bit x n then setBits x (16 + 4 * n) 4 (satInc 4 (bits x (16 + 4 * n) 4)) else setBits x n 1 1)
    else if bit v n then setBits (setBits x n 1 0) (16 + 4 * n) 4 0 else x) pmovf

/-- The writable bits of a CSR take a value (R16); W1C for PMOVF. -/
def csrWrite (r : Regs) (n v : Nat) : Regs :=
  let keep (l : List (Nat × Nat)) : Word := BitVec.ofNat 64 (l.foldl (fun a e => a + bits v e.1 e.2 * 2 ^ e.1) 0)
  match n with
  | 0x000 => setStatus r ((modeOf v).getD r.mode) v
  | 0x003 => { r with evbase := keep [(13, 35)] }
  | 0x004 => { r with slimu := keep [(4, 44)] }
  | 0x005 => { r with slims := keep [(4, 44)] }
  | 0x006 => { r with a15u := BitVec.ofNat 64 v }
  | 0x02C => { r with repcnt := BitVec.ofNat 16 v }
  | 0x030 => { r with crcpoly := keep [(0, 10)] }
  | 0x031 => { r with crcpolyv := BitVec.ofNat 64 v }
  | 0x040 => { r with fpcr := keep [(0, 3), (4, 5)] }
  | 0x041 => { r with fpsr := keep [(0, 5)] }
  | 0x100 => { r with pmctl := keep [(0, 10), (16, 2)] }
  | 0x101 => { r with pmovf := BitVec.ofNat 64 (pmovfClear r.pmovf.toNat v 0) }
  | _ =>
    if 0x112 ≤ n then { r with pmsel := SMap.set r.pmsel (n - 0x110) (keep [(0, 11)]) }
    else if 0x108 ≤ n then { r with pmc := SMap.set r.pmc (n - 0x108) (BitVec.ofNat 64 v) }
    else if 0x20 ≤ n then r.setSpecial (n - 0x20 + 4) v
    else { r with bk := SMap.set r.bk (n - 0x10) (BitVec.ofNat 16 v) }

/-- R88, R238: a CSR access that User mode may not make. -/
def csrPrivileged (r : Regs) (n : Nat) (write : Bool) : Bool :=
  r.mode == .user &&
  ((1 ≤ n && n ≤ 6) || (n == 0 && write) || (0x100 ≤ n && n ≤ 0x1FF && (write || !bit r.pmctl.toNat 8)))

/-- CSRR, R92. -/
def execCsrr (c : CtxId) (f : CsrF) (s : State) : Host.Outcome State Fault Refusal :=
  run s fun m => instr m c 4
    (checked [(f.rsv != 0, 3), (!csrExists (isSup c) f.csr.toNat, 8)] fun m src base =>
      if csrPrivileged src f.csr.toNat false then .trap m (exn 2 0)
      else regs m (base.setD f.d.toNat ((csrRead m.part (isSup c) src f.csr.toNat).setWidth 128)))

/-- CSRW: bits [63:0] of Dd into a CSR (R92); a reserved encoding is rejected whole and reported (R17). -/
def csrwBody (c : CtxId) (f : CsrF) (hw : Nat) : Dg → Regs → Regs → IRes :=
  checked [(f.rsv != 0, 3), (!csrExists (isSup c) f.csr.toNat || csrRo f.csr.toNat, 8)] fun m src base =>
    let n := f.csr.toNat
    let v := bits (src.getD f.d.toNat).toNat 0 64
    if csrPrivileged src n true || (n == 0 && bits v 0 2 == 2 && src.mode != .str) then .trap m (exn 2 0)
    else if csrReserved n v then regs (ctxReport m c kRegReserved) base
    else if n = 0x101 then regs m { base with pmovf := BitVec.ofNat 64 (pmovfClear base.pmovf.toNat v hw) }
    else regs m (csrWrite base n v)

/-- CSRW, R92. -/
def execCsrw (c : CtxId) (f : CsrF) (s : State) : Host.Outcome State Fault Refusal :=
  run s fun m => instr m c 4 (csrwBody c f 0)

/-- CSRW to STATUS, R89. -/
def execStatusWrite (c : CtxId) (f : CsrF) (s : State) : Host.Outcome State Fault Refusal :=
  run s fun m => instr m c 4 (csrwBody c f 0)

/-- R239: counter `n` counts now: not in a re-seat pause nor under a halt, and while WAIT stops the context only cycles. -/
def countsNow (m : Dg) (c : CtxId) (n : Nat) : Bool :=
  let r := (getCtx m c).r
  let frozen : Bool := c < 16 && (getGrp m c).state == .reseating && ((getStudio m (c / 4)).reseat.bind (·.frozen)).isSome
  bit r.pmctl.toNat n && !frozen && !halted m c && (eventOf r n == 0x01 || !(getCtx m c).waiting)

/-- R240: counter `n` can wrap now: one that counts cycles at any value, since the model has no number for them
(notes/assumptions/23.md), another that counts an event in the mode from its last value. -/
def canWrap (m : Dg) (c : CtxId) (n : Nat) : Bool :=
  let r := (getCtx m c).r
  n < 8 && countsNow m c n && eventOf r n != 0 &&
  (countsTime r n || countsOverrun r n || SMap.get r.pmc n == BitVec.allOnes 64)

/-- CSRW to PMOVF, R241, R18: the counters of `hw` that can wrap do so in the same cycle: their interrupts are raised and FRZOVF
acts (R240), whether the write is accepted or not. -/
def execPmovfWrite (c : CtxId) (f : CsrF) (hw : BitVec 8) (s : State) : Host.Outcome State Fault Refusal :=
  run s fun m => instr m c 4 fun m src base =>
    let wrapped := (List.range 8).filter fun n => bit hw.toNat n && canWrap m c n
    let wraps (m : Dg) : Dg := wrapped.foldl (fun m n => pmcWrap m c n) m
    match csrwBody c f (ofBitList ((List.range 8).map wrapped.contains)) m src base with
    | .trap m e => .trap (wraps m) e
    | .done m r next ld evs =>
      let m := wraps m
      let o := (getCtx m c).r
      .done m { r with pmctl := o.pmctl, pmc := o.pmc } next ld evs
    | x => x

/-! ### System instructions -/

/-- SYSCALL, R143: the argument in EADDR, the next instruction stacked. -/
def execSyscall (c : CtxId) (f : Sys) (s : State) : Host.Outcome State Fault Refusal :=
  run s fun m => instr m c 4 (checked [(f.rsv != 0, 3)] fun m _ _ =>
    .trap m { exnAt 11 0 f.arg.toNat with after := true })

/-- The eleven words of the frame at the supervisor A15 (Table 02.26). -/
def loadFrame (m : Dg) (c : CtxId) (a : Nat) : Nat → Dg × Except Exn (List Nat)
  | 0 => (m, .ok [])
  | n + 1 =>
    match loadPart m c a 16 with
    | (m, .error e) => (m, .error e)
    | (m, .ok v) => match loadFrame m c (a + 16) n with
      | (m, .error e) => (m, .error e)
      | (m, .ok r) => (m, .ok (v :: r))

/-- R144: STATUS of a frame is read first, since what it holds comes before the other words' DATA_ACCESS; where it cannot be read,
the lowest word that cannot be read gives the exception. -/
def loadStatus (m : Dg) (c : CtxId) (a : Nat) : Dg × Except Exn Nat :=
  match loadPart m c (a + 160) 16 with
  | (m, .ok v) => (m, .ok v)
  | (m, .error e) =>
    match loadFrame m c a 10 with
    | (m, .error e) => (m, .error e)
    | (m, .ok _) => (m, .error e)

/-- R147: the registers that a frame at `sp` restores; the return from an exception, beside its taking in Ops. Iterations that
remain are resumed; with none left REPACT is cleared and execution goes on behind the repeated instruction (R122, R125), also
where that instruction ends a loop body, which is not evaluated: the model's choice (notes/assumptions/117.md).
Bits [63:48] of the frame's PC are dropped: the model's choice (notes/assumptions/110.md). -/
def restoreFrame (base : Regs) (sp : Word) (md : Mode) (l : List Nat) (isRep : Bool) : Regs × Addr :=
  let at' (i : Nat) : Nat := l.getD i 0
  let st := at' 10 / 2 ^ 64
  let pc : Addr := BitVec.ofNat 48 (at' 10 % 2 ^ 64)
  let r := (List.range 8).foldl (fun r i => r.setD i (BitVec.ofNat 128 (at' i))) base
  let r := (List.range 4).foldl (fun (r : Regs) i =>
    { r with a := SMap.set r.a i (BitVec.ofNat 64 (at' (8 + i / 2) / 2 ^ (64 * (i % 2)))) }) r
  let r := setStatus { r with a15s := sp + 176 } md st
  if bit st 11 && isRep then
    (if r.repcnt = 0 then ({ r with repact := false }, pc + 8) else ({ r with rep := some pc }, pc + 4))
  else (r, pc)

/-- ERET, R147; `at_` is the word at the frame PC. A frame PC that is not 4-byte aligned raises ALIGN with detail 3 at the ERET:
the model's choice (notes/assumptions/110.md). -/
def execEret (c : CtxId) (f : Sys) (at_ : BitVec 32) (s : State) : Host.Outcome State Fault Refusal :=
  run s fun m => instr m c 4 (checked [(f.rsv != 0 || f.arg != 0, 3)] fun m src base =>
    let sp := src.a15s.toNat
    if src.mode = .user then .trap m (exn 2 0)
    else if 2 ^ 48 ≤ sp then .trap m (exnAt 6 0 sp)
    else if regionOf m (isSup c) sp = .regs then .trap m (exnAt 5 1 sp)
    else if waits m sp 16 || waits m (sp + 160) 16 then .hold m
    else match loadStatus m c sp with
      | (m, .error e) => .trap m e
      | (m, .ok w) =>
        let st := w / 2 ^ 64
        let isRep := opcodeOf at_ == 0x7E
        match modeOf st with
        | none => .trap m (illegal 0x0A)
        | some md =>
          if 5 ≤ bits st 8 3 ∨ (bit st 11 ∧ !isRep) then .trap m (illegal 0x0A)
          else if md = .str ∧ src.mode ≠ .str then .trap m (exn 2 0)
          else if w % 4 ≠ 0 then .trap m (exn 5 3)
          else match loadFrame m c sp 10 with
            | (m, .error e) => .trap m e
            | (m, .ok l) =>
              let (r, pc) := restoreFrame base src.a15s md (l ++ [w]) isRep
              .done m r (some pc) none [0x12])

/-- FENCE, R214: every older store is visible to every agent before it completes. -/
def execFence (c : CtxId) (f : Sys) (s : State) : Host.Outcome State Fault Refusal :=
  run s fun m => instr m c 4 (checked [(f.rsv != 0 || f.arg != 0, 3)] fun m _ base =>
    if drainWaits m c then .hold m else regs (showStores m c) base)

/-- R218: a line leaves the line buffers, the L1 instruction cache and, with the branches in it, the branch target buffer. -/
def Ctx.flushLine (x : Ctx) (l : Nat) : Ctx :=
  { x with lines := x.lines.filter (· != l), lineReq := x.lineReq.filter (· != l), l1i := x.l1i.filter (· != l),
           btb := x.btb.filterMap fun e =>
             let keep := e.2.filter fun b => (b.tag * 2 ^ 12 + e.1 * 4) / 128 != l
             if keep.isEmpty then none else some (e.1, keep) }

/-- IFLUSH An, R218: older stores drain; the line that holds An is written back where it is dirty, and flushed. -/
def execIflush (c : CtxId) (f : Sys) (s : State) : Host.Outcome State Fault Refusal :=
  run s fun m => instr m c 4 (checked [(f.rsv != 0 || bits f.arg.toNat 0 12 != 0, 3)] fun m src base =>
    let l := (src.getA (bits f.arg.toNat 12 4)).toNat % 2 ^ 48 / 128
    if drainWaits m c then .hold m
    else regs (updCtx (writeBackLine (drainAll m c) c l) c fun x => x.flushLine l) base)

/-- WAIT, R227: the context stops until WAIT_WAKE. -/
def execWaitt (c : CtxId) (f : Sys) (s : State) : Host.Outcome State Fault Refusal :=
  run s fun m => instr m c 4 (checked [(f.rsv != 0 || f.arg != 0, 3)] fun m src base =>
    if src.mode = .user then .trap m (exn 2 0)
    else regs (updCtx m c fun x => { x with waiting := true }) base)

/-- An Easel session is attached to a context (R398). -/
def easelAttached (m : Dg) (c : CtxId) : Bool :=
  m.easel.attach.any fun t =>
    (t.tkind == 1 && c < 16 && t.index == c) || (t.tkind == 2 && 16 ≤ c && c < 56 && t.index == c - 16) ||
    (t.tkind == 3 && isSup c)

/-- BKPT, R143: BREAKPOINT, or with a session attached a halt at the next instruction (R72, R398), of the supervisor target
too. -/
def execBkpt (c : CtxId) (f : Sys) (s : State) : Host.Outcome State Fault Refusal :=
  run s fun m => instr m c 4 (checked [(f.rsv != 0 || f.arg != 0, 3)] fun m _ base =>
    if easelAttached m c then regs (haltAt m c) base
    else .trap m { exn 12 0 with after := true })

/-! ### Pipeline and interrupt events -/

/-- The value of a load from the PCIe window once its halves are present. -/
def pcieValue (p : PcieLoad) : Nat :=
  let hs := halves p.addr (memSize p.op)
  let v (i : Nat) (len : Nat) : Nat := bits (((SMap.get p.got i).getD 0).toNat) 0 (8 * len)
  match hs with
  | [(_, l0)] => v 0 l0
  | [(_, l0), (_, l1)] => v 0 l0 + v 1 l1 * 2 ^ (8 * l0)
  | _ => 0

/-- What happens while an Easel halt stops the context is not counted (R239). -/
def uncounted (m : Dg) (c : CtxId) (f : Dg → Dg) : Dg :=
  let ctl := (getCtx m c).r.pmctl
  if !halted m c then f m
  else
    let m := f (updCtx m c fun x => { x with r := { x.r with pmctl := 0 } })
    updCtx m c fun x => { x with r := { x.r with pmctl := ctl } }

/-- R216, R104: a PCIe load whose halves have all been answered completes, or takes DATA_ACCESS with detail 4 at its lower
faulting half. -/
def pcieFinish (m : Dg) (c : CtxId) : Dg := uncounted m c fun m =>
  let x := getCtx m c
  match x.pcie with
  | none => m
  | some p =>
    let hs := halves p.addr (memSize p.op)
    if !((List.range hs.length).all fun i => (SMap.get p.got i).isSome || p.errs.contains i) then m
    else
      let m := setCtx m c { x with pcie := none }
      match (List.range hs.length).find? fun i => p.errs.contains i with
      | some i => takeExn m c (exnAt 4 4 ((hs.getD i (p.addr, 0)).1))
      | none =>
        let base := withLoad x
        let r := match p.base with
          | some (i, v) => base.setA i v
          | none => base
        let v := pcieValue p
        let m := watched m c p.addr (memSize p.op) 1
        let ld : Pend :=
          if p.op = 0x2E then ⟨true, p.reg, BitVec.ofNat 128 v, [], none⟩ else ⟨false, p.reg, extendLoad p.op v, [], none⟩
        let m := if x.r.rep.isSome then retireRep m c r (some ld) base
          else retire m c (p.next - x.r.pc).toNat r none (some ld) base
        countEv (if hs.length = 2 then countEv m c 0x10 else m) c 0x12

/-- LOAD_RESPONSE, R216: a half of an outstanding load is answered. -/
def execLoadResponse (c : CtxId) (half : Nat) (data : BitVec 128) (err : Bool) (s : State) : Host.Outcome State Fault Refusal :=
  run s fun m =>
    let x := getCtx m c
    match x.pcie with
    | some p =>
      let p := if err then { p with errs := p.errs ++ [half] } else { p with got := SMap.set p.got half (some data) }
      pcieFinish (setCtx m c { x with pcie := some p }) c
    | none => match x.load with
      | some l => setCtx m c { x with load := some { l with wait := l.wait.filter (· != half) } }
      | none => m

/-- STORE_BUFFER_DRAIN, R210; a collision of writes to the same Canvas word leaves port 0's write standing and is counted and
reported (R311). Labazor-S writes through port 1: its store is discarded, and it takes DATA_ACCESS with detail 0x04 (R312). -/
def execStoreBufferDrain (c : CtxId) (wcoll : Bool) (s : State) : Host.Outcome State Fault Refusal :=
  run s fun m =>
    match (getCtx m c).sb with
    | [] => m
    | e :: r =>
      if waits m e.addr 16 then m
      else if wcoll && regionOf m true e.addr == .canvas && !bankDark m e.addr then
        (if isSup c then takeExn (collide (setSb m c r) e.addr) c (exnAt 4 4 e.addr) else drainOne (collide m e.addr) c)
      else drainOne m c

/-- LINE_FETCH_COMPLETE, R200, R306, R338, R343: the oldest requested line returns; a line with an uncorrectable word, or whose
check code finds another address, is not held. The upset acts on its first word. -/
def execLineFetchComplete (c : CtxId) (u : Upset) (s : State) : Host.Outcome State Fault Refusal :=
  run s fun m =>
    match (getCtx m c).lineReq with
    | [] => m
    | l :: rest =>
      if waits m (l * 128) 1 then m
      else if !lineOk m c l then updCtx m c fun x => { x with lineReq := rest }
      else
        let a := busAddr m c (l * 128)
        let m := setErr m a 0 (getErr m a 0 ^^^ u.bits)
        if u.wrongAddr then updCtx (wrongAddrRead m (viaCtx c) a) c fun x => { x with lineReq := rest }
        else (fillLine m c l).1

/-- WAIT_WAKE, R227: an eligible interrupt or an NMI ends WAIT. -/
def execWaitWake (c : CtxId) (s : State) : Host.Outcome State Fault Refusal :=
  run s fun m =>
    let x := getCtx m c
    if x.waiting && (x.nmi || (bestIrq x).isSome) then setCtx m c { x with waiting := false } else m

/-- INTERRUPT_SOURCE_EVENT, R221, R223: an event of a routed source, 8 to 511; sources 0 and 1 are raised by their own triggers,
and the reserved ones never. -/
def execInterruptSourceEvent (c : CtxId) (src : Nat) (s : State) : Host.Outcome State Fault Refusal :=
  run s fun m => if 8 ≤ src ∧ src < 512 then raiseIrq m c src else m

/-- INTERRUPT_TAKEN, R103, R144, R145, R224 to R226: at a boundary that allows it. A halted context takes none, under single
step either (R76). -/
def execInterruptTaken (c : CtxId) (s : State) : Host.Outcome State Fault Refusal :=
  run s fun m => if runnable m c && !stepping m c then takeIrq m c else m

/-- PMC_WRAP, R239, R240: a counter that can wrap does. -/
def execPmcWrap (c : CtxId) (n : Nat) (s : State) : Host.Outcome State Fault Refusal :=
  run s fun m => if canWrap m c n then pmcWrap m c n else m

end Sys2Proof.Machine
end

