-- ==== Sys2Proof/Machine/Net.lean ====
section
/-! DEFINITION. The events of the vehicle networks (spec/11 R549 to R568, R576). -/
namespace Sys2Proof.Machine

/-! ### CAN -/

/-- Identifier and IDE of a frame's ID as filters compare them: IDE in bit 31 of a filter's words (R555). -/
def filterMatches (r : CfgRec) (f : Frame) : Bool :=
  let xl := f.format == 3
  let ide := !xl && f.flags.getLsbD 0
  let id := if ide then f.id.toNat % 2 ^ 29 else f.id.toNat % 2 ^ 11
  let id1 := r.f 4 4
  let id2 := r.f 8 4
  let ideOk := xl || (if r.f 2 1 = 0 then !bit id2 31 || ide == bit id1 31 else ide == bit id1 31)
  let idOk := if r.f 2 1 = 0 then (id ^^^ id1) &&& id2 &&& (2 ^ 29 - 1) == 0
    else id1 % 2 ^ 29 ≤ id && id ≤ id2 % 2 ^ 29
  let xlOk := !xl || ((!bit (r.f 14 1) 0 || leAt f.data 0 1 == r.f 12 1) && (!bit (r.f 14 1) 1 || leAt f.data 1 1 == r.f 13 1))
  1 ≤ f.format && f.format ≤ 3 && bit (r.f 3 1) (f.format - 1) && ideOk && idOk && xlOk

/-- The first matching filter of a controller in filter order (R555). -/
def filterOf (m : Dg) (n : Nat) (f : Frame) : Option CfgRec :=
  ((recs m 0x0012).filter fun r => r.f 0 1 == n && filterMatches r f).foldl
    (fun b r => match b with
      | some x => if r.f 1 1 < x.f 1 1 then some r else some x
      | none => some r) none

/-- The receive error counter after a frame received without error: ISO 11898-1 takes it from above 127 to a value of
119 to 127 that the standard leaves open (notes/assumptions/33.md). -/
def recGood (m : Dg) (n : Nat) : Dg :=
  let c := getCan m n
  if 127 < c.rec_ then
    let (m, v) := draw m
    updCan m n fun c => { c with rec_ := 119 + v % 9 }
  else updCan m n fun c => { c with rec_ := c.rec_ - 1 }

/-- A controller whose counters are both below 128 is error-active again. -/
def canSettle (m : Dg) (n : Nat) : Dg :=
  let c := getCan m n
  if c.st = .passive ∧ c.tec < 128 ∧ c.rec_ < 128 then
    endCond (updCan m n fun c => { c with st := .active }) (canSrc n) kCanErrorPassive
  else m

/-- CAN_FRAME_RECEIVED, R549 to R551, R555: the first matching filter's queue takes the frame. -/
def execCanFrameReceived (n : Nat) (f : Frame) (s : State) : Host.Outcome State Fault Refusal :=
  run s fun m =>
    match canRec m n with
    | none => m
    | some r =>
      if !canRuns (getCan m n) ∨ !(1 ≤ f.format ∧ f.format ≤ 3 ∧ bit (r.f 1 1) (f.format - 1)) then m
      else
        let m := canSettle (recGood m n) n
        match filterOf m n f with
        | none => m
        | some x =>
          let hdr := netHeader n f.format f.flags.toNat f.id.toNat m.now
          match deliver m (canSrc n) (x.f 16 4) (0x40 + n) (hdr ++ f.data) with
          | (m, false) => netEvent m (canSrc n)
          | (m, true) => netEvent (updCan m n fun c => { c with rxDrop := satInc 16 c.rxDrop }) (canSrc n)

/-- Data lengths that a format can carry; CAN FD has the lengths of its DLC codes (notes/assumptions/33.md). -/
def canLenOk (format len : Nat) : Bool :=
  match format with
  | 1 => len ≤ 8
  | 2 => len ≤ 8 || [12, 16, 20, 24, 32, 48, 64].contains len
  | 3 => 7 ≤ len && len ≤ 2054
  | _ => false

/-- FLAGS that a transmit message may set, ignored bits included (R552). -/
def txFlags (format : Nat) : Nat :=
  0x68 ||| match format with
    | 1 => 0x03
    | 2 => 0x05
    | 3 => 0x10
    | _ => 0

/-- The network header of a transmit message: PORT, FORMAT, FLAGS and ID. -/
def txHead (msg : List Byte) : Nat × Nat × Nat × Nat := (leAt msg 16 1, leAt msg 17 1, leAt msg 18 2, leAt msg 20 4)

/-- R552: a transmit message fits a port: its FORMAT is one of those given, PORT and the flags agree. -/
def txFits (msg : List Byte) (port : Nat) (formats : List Nat) : Bool :=
  let (p, f, flags, _) := txHead msg
  32 ≤ msg.length && p == port && formats.contains f && flags &&& txFlags f == flags

/-- A message fits a CAN controller. -/
def canFits (r : CfgRec) (n : Nat) (msg : List Byte) : Bool :=
  let (_, f, flags, id) := txHead msg
  txFits msg n ([1, 2, 3].filter fun f => bit (r.f 1 1) (f - 1)) && canLenOk f (msg.length - 32) &&
  (if f != 3 && bit flags 0 then id < 2 ^ 29 else id < 2 ^ 11)

/-- The transmit queues of a controller. -/
def canQueues (r : CfgRec) : List Nat := ((List.range 8).map fun i => r.f (32 + 4 * i) 4).filter (· != 0xFFFFFFFF)

/-- A queue that a hardware endpoint consumes, with a message at its head. -/
def headFor (m : Dg) (ep q : Nat) : Option (List Byte × Nat) := hwPeek m ep q

/-- Messages at the head of a queue that are void or do not fit are released unsent until one fits (R552). -/
def refuseHead (m : Dg) (src ep : Nat) (fits : List Byte → Bool) (q : Nat) : Nat → Dg
  | 0 => m
  | n + 1 => match headFor m ep q with
    | some (msg, code) =>
      if code = 0 ∧ fits msg then m else refuseHead (refuseTx m src q (if code = 0 then 7 else code)) src ep fits q n
    | none => m

/-- Ill-fitting messages at the heads of a list of queues released unsent (R552). -/
def refuseHeads (m : Dg) (src ep : Nat) (fits : List Byte → Bool) (qs : List Nat) : Dg :=
  qs.foldl (fun m q => refuseHead m src ep fits q (getQ m q).count) m

/-- The offer with the lowest identifier, ties to the earlier. -/
def lowestId (l : List (Nat × Offer)) : Option Offer :=
  (l.foldl (fun (b : Option (Nat × Offer)) e => match b with
    | some x => if e.1 < x.1 then some e else some x
    | none => some e) none).map (·.2)

/-- The last-word frames that wait for a controller (R503). -/
def fixOffers (m : Dg) (n : Nat) : List (Nat × Offer) :=
  m.fix.fr.filterMap fun e =>
    if e.2.configured && e.2.port == n then e.2.queued.map fun b => (e.2.canId % 2 ^ 31, ⟨true, e.1, b⟩) else none

/-- CAN_TRANSMIT_CLAIM, R552, R556, R495: the head with the lowest identifier is claimed and offered to arbitration; while
Fixative is engaged messages are claimed and released, and last-word frames are offered. -/
def execCanTransmitClaim (n : Nat) (s : State) : Host.Outcome State Fault Refusal :=
  run s fun m =>
    match canRec m n with
    | none => m
    | some r =>
      if !canRuns (getCan m n) then m
      else
        let qs := canQueues r
        let m := refuseHeads m (canSrc n) (0x40 + n) (canFits r n) qs
        let offer (m : Dg) (o : Option Offer) : Dg := updCan m n fun c => { c with offered := o }
        if m.fix.engaged then
          let m := qs.foldl (fun m q => if (headFor m (0x40 + n) q).isSome then (hwTake m (0x40 + n) q).1 else m) m
          if (getCan m n).offered.isSome then m else offer m (lowestId (fixOffers m n))
        else if (getCan m n).offered.isSome then m
        else
          let l := qs.filterMap fun q => (headFor m (0x40 + n) q).map fun e => (leAt e.1 20 4, (⟨false, q, e.1.drop 16⟩ : Offer))
          match lowestId l with
          | some o => offer (claimQ m o.n) (some o)
          | none => m

/-- CAN_FRAME_TRANSMITTED, R556, R503: the frame on offer has been sent, or met an error and is sent again. -/
def execCanFrameTransmitted (n : Nat) (ok : Bool) (s : State) : Host.Outcome State Fault Refusal :=
  run s fun m =>
    let c := getCan m n
    match c.offered with
    | none => m
    | some o =>
      if !canRuns c then m
      else if ok then
        let m := updCan m n fun c => { c with tec := c.tec - 1, offered := none }
        let m := if o.fix then frameSent m o.n else releaseQ m o.n
        netEvent (canSettle m n) (canSrc n)
      else
        let m := reportOpen (updCan m n fun c => { c with tec := min (c.tec + 8) 255 }) (canSrc n) kCanProtocol 0
        if m.fix.engaged ∧ !o.fix then releaseQ (updCan m n fun c => { c with offered := none }) o.n else m

/-- CAN_ERROR_PASSIVE, R557. -/
def execCanErrorPassive (n tec rec_ : Nat) (s : State) : Host.Outcome State Fault Refusal :=
  run s fun m =>
    if (getCan m n).st ≠ .active ∨ (tec < 128 ∧ rec_ < 128) then m
    else
      let m := updCan m n fun c => { c with st := .passive, tec := min tec 255, rec_ := min rec_ 255 }
      netEvent (reportOpen m (canSrc n) kCanErrorPassive 0) (canSrc n)

/-- CAN_BUS_OFF, R557. -/
def execCanBusOff (n : Nat) (s : State) : Host.Outcome State Fault Refusal :=
  run s fun m =>
    if !canRuns (getCan m n) then m
    else
      let m := updCan m n fun c => { c with st := .busOff, busoff := satInc 16 c.busoff, offAt := m.now }
      netEvent (reportOpen (endCond m (canSrc n) kCanErrorPassive) (canSrc n) kCanBusOff 0) (canSrc n)

/-- BUSOFF_RECOVERY, R557: after the delay of the blob and the standard recovery the controller rejoins. -/
def execBusoffRecovery (n : Nat) (s : State) : Host.Outcome State Fault Refusal :=
  run s fun m =>
    match canRec m n with
    | none => m
    | some r =>
      let c := getCan m n
      if c.st ≠ .busOff ∨ m.now < c.offAt + r.f 2 2 * unitsPerMs then m
      else endCond (updCan m n fun c => { c with st := .active, tec := 0, rec_ := 0 }) (canSrc n) kCanBusOff

/-! ### LIN -/

/-- Entry `i` of a LIN record: frame ID, ACTION, TXQ. -/
def linEntry (r : CfgRec) (i : Nat) : Nat × Nat × Nat := (r.f (24 + 8 * i) 1, r.f (25 + 8 * i) 1, r.f (28 + 8 * i) 4)

/-- A message fits the publication of a LIN frame ID. -/
def linFits (n id : Nat) (msg : List Byte) : Bool :=
  let (_, _, _, x) := txHead msg
  txFits msg n [4] && x == id && 33 ≤ msg.length && msg.length ≤ 40

/-- R558: the data of a frame ID published: the head message's, or the data last sent. -/
def linPublish (m : Dg) (n id q : Nat) : Dg :=
  let m := refuseHeads m (linSrc n) (0x50 + n) (linFits n id) [q]
  let put (m : Dg) (d : List Byte) : Dg :=
    updLin m n fun x => { x with out := some (id, d), sent := SMap.set x.sent id (some d) }
  match headFor m (0x50 + n) q with
  | some (msg, _) => put (hwTake m (0x50 + n) q).1 (msg.drop 32)
  | none => match SMap.get (getLin m n).sent id with
    | some d => put m d
    | none => updLin m n fun x => { x with out := none }

/-- A LIN fault counts in ERR_CNT (Table 11.14). -/
def linFault (m : Dg) (n kind : Nat) : Dg :=
  netEvent (reportOpen (updLin m n fun x => { x with errs := satInc 16 x.errs, await := none }) (linSrc n) kind 0) (linSrc n)

/-- LIN_SCHEDULE_SLOT, R558: the next schedule entry of a master. A response that is still missing is reported. -/
def execLinScheduleSlot (n : Nat) (s : State) : Host.Outcome State Fault Refusal :=
  run s fun m =>
    match linRec m n with
    | none => m
    | some r =>
      let x := getLin m n
      if x.st ≠ .active ∨ !x.master ∨ r.f 16 2 = 0 then m
      else
        let m := if x.await.isSome then linFault m n kLinNoResponse else m
        let (id, action, q) := linEntry r (x.pos % r.f 16 2)
        let m := updLin m n fun x => { x with pos := (x.pos + 1) % r.f 16 2, out := none }
        match action with
        | 0 => linPublish m n id q
        | 1 => updLin m n fun x => { x with await := some id }
        | _ => updLin m n fun x =>
          { x with st := .sleep, out := some (0x3C, 0 :: List.replicate 7 (BitVec.ofNat 8 0xFF)) }

/-- LIN_FRAME_RECEIVED, R551, R558: a response is checked and published, or the fault of its slot is reported. The
go-to-sleep command puts a slave to sleep (notes/assumptions/33.md). -/
def execLinFrameReceived (n id : Nat) (data : List Byte) (res : LinOk) (s : State) : Host.Outcome State Fault Refusal :=
  run s fun m =>
    match linRec m n with
    | none => m
    | some r =>
      let x := getLin m n
      if x.st ≠ .active ∨ 64 ≤ id then m
      else match res with
        | .error => linFault m n kLinError
        | .noResponse => if x.await = some id then linFault m n kLinNoResponse else m
        | .ok =>
          if data.isEmpty ∨ 8 < data.length then m
          else
            let m := updLin m n fun x => { x with await := if x.await = some id then none else x.await }
            let hdr := netHeader n 4 (64 * b2n (bit (r.f 8 8) id)) id m.now
            let m := netEvent (deliver m (linSrc n) (r.f 4 4) (0x50 + n) (hdr ++ data)).1 (linSrc n)
            if !x.master ∧ id = 0x3C ∧ leAt data 0 1 = 0 then updLin m n fun x => { x with st := .sleep } else m

/-- LIN_HEADER_RECEIVED, R558: a slave publishes the frames that its entries give it. -/
def execLinHeaderReceived (n id : Nat) (s : State) : Host.Outcome State Fault Refusal :=
  run s fun m =>
    match linRec m n with
    | none => m
    | some r =>
      let x := getLin m n
      if x.st ≠ .active ∨ x.master then m
      else match (List.range (r.f 16 2)).find? fun i => (linEntry r i).1 == id && (linEntry r i).2.2 != 0xFFFFFFFF with
        | some i => linPublish m n id (linEntry r i).2.2
        | none => m

/-- LIN_WAKE_UP, R558. -/
def execLinWakeUp (n : Nat) (s : State) : Host.Outcome State Fault Refusal :=
  run s fun m => if (getLin m n).st = .sleep then updLin m n fun x => { x with st := .active } else m

/-! ### Ethernet -/

/-- ETH_FRAME_RECEIVED, R551, R559 to R561, R563: a frame at an external port is checked, passes stream filter, gate, meter and
recovery, and is forwarded. -/
def execEthFrameReceived (port : Nat) (f : EthFrame) (s : State) : Host.Outcome State Fault Refusal :=
  run s fun m =>
    let x := getEth m port
    if 12 ≤ port ∨ x.st ≠ .up ∨ maxFrame m port < f.data.length then m
    else if !f.fcsOk then netEvent (reportOpen m (portSrc port) kEthFcs 0) (portSrc port)
    else if x.macsec ∧ !f.macsecOk then netEvent (countDrop (reportOpen m (portSrc port) kMacsecDrop 0) port) (portSrc port)
    else
      match psfp m port f.pcp f.stream f.data with
      | (m, none) => netEvent (reportOpen m (portSrc port) kPsfpDrop 0) (portSrc port)
      | (m, some prio) =>
        let (m, takes, lost) := frerRun m port f.stream f.data
        let m := if lost then netEvent (reportOpen m (portSrc port) kFrerLoss 0) (portSrc port) else m
        if takes then switchForward m port f.dst f.vlan f.pcp f.stream x.macsec prio f.data else m

/-- The pair, if any, whose response queue an internal port consumes. -/
def pairOfResp (m : Dg) (port q : Nat) : Option Nat :=
  (List.range 31).find? fun p => respQ p == q && requesterOf m p == 0x58 + (port - 12)

/-- The MAC address of a switch port. -/
def portMac (m : Dg) (p : Nat) : Nat := ((portRec m p).map fun r => r.f 8 6).getD 0

/-- ETH_INTERNAL_TRANSMIT, R552, R563, R564: the head of a transmit queue of an internal port enters the switch; a
mailbox response takes its framing. -/
def execEthInternalTransmit (port q : Nat) (s : State) : Host.Outcome State Fault Refusal :=
  run s fun m =>
    if port ≠ 12 ∧ port ≠ 13 then m
    else
      let ep := 0x58 + (port - 12)
      match headFor m ep q with
      | none => m
      | some (msg, code) =>
        if code ≠ 0 then refuseTx m (portSrc port) q code
        else match pairOfResp m port q with
          | some pair =>
            let dst := ((recBy m 0x000E 0 1 pair).map fun r => r.f 24 6).getD 0
            switchForward (hwTake m ep q).1 port dst 0 0 none false 0 (mailFrame dst (portMac m port) pair msg)
          | none =>
            if !(recs m 0x0016).any (fun r => r.f 0 1 == port && r.f 1 1 == 2 && r.f 8 4 == q) then m
            else
              let data := msg.drop 32
              let (_, _, _, id) := txHead msg
              if !txFits msg port [5] ∨ 2 ^ 19 ≤ id ∨ data.length < 14 ∨ maxFrame m port < data.length then
                refuseTx m (portSrc port) q 7
              else
                let (vlan, pcp) := vlanOf data
                switchForward (hwTake m ep q).1 port (leAt data 0 6) vlan pcp (some (id % 2 ^ 16)) false pcp data

/-- ETH_FRAME_TRANSMITTED, R503, R495, R395, R560: a port has sent the frame that waits longest of those that gates and shapers
let out, or the oldest response of pair 31, in the
framing of its request and to that request's source; last-word frames go first, and alone during
a chip reset that Fixative holds the port through (R505). -/
def execEthFrameTransmitted (port : Nat) (s : State) : Host.Outcome State Fault Refusal :=
  run s fun m =>
    if 12 ≤ port ∨ (getEth m port).st ≠ .up then m
    else match (SMap.keysWhere m.fix.fr fun f => f.configured && f.port == 16 + port && f.queued.isSome).head? with
      | some n => frameSent (updEth m port fun x => { x with sent := ((SMap.get m.fix.fr n).queued).getD [] }) n
      | none =>
        if m.fix.engaged && m.boot.due.isSome then m
        else match (getEth m port).egress.zipIdx.find? fun e => maySend m port e.1 with
        | some (f, i) => dequeue m port i f
        | none => match hwPeek m 0x3F (respQ 31) with
          | none => m
          | some (msg, _) => match easelReturn m msg with
            | some (p, mac) =>
              if p = port then
                updEth (takeEaselResp m msg) port fun x => { x with sent := mailFrame mac (portMac m port) 31 msg }
              else m
            | none => m

/-- MACSEC_KEY_MESSAGE, R561, R547: a key message of the port's key partition. Its layout is open: which association it
changes, and whether it installs or retires it, are free values (notes/assumptions/34.md). -/
def execMacsecKeyMessage (port : Nat) (s : State) : Host.Outcome State Fault Refusal :=
  run s fun m =>
    match portRec m port with
    | none => m
    | some r =>
      let q := r.f 16 4
      match headFor m 0x58 q with
      | none => m
      | some (msg, code) =>
        let pid := producerOf m q
        let m := (hwTake m 0x58 q).1
        if 12 ≤ port ∨ code ≠ 0 then m
        else if pid ≠ r.f 5 1 then 
            report m (portSrc port) kResourceConflict (openDetail m (portSrc port) kResourceConflict) q (tagPid pid)
        else
          let (m, v) := draw m
          updEth m port fun x => { x with saks := SMap.set x.saks (v % 18) (if v / 18 % 2 = 0 then some (msg.drop 16) else none) }

/-- MAILBOX_FRAME_RECEIVED, R564: a mailbox frame at an internal port becomes a request of its pair. -/
def execMailboxFrameReceived (port : Nat) (payload : List Byte) (s : State) : Host.Outcome State Fault Refusal :=
  run s fun m =>
    if port ≠ 12 ∧ port ≠ 13 then m
    else
      let ep := 0x58 + (port - 12)
      let pair := leAt payload 0 1
      if 31 ≤ pair ∨ leAt payload 1 1 ≠ 0 ∨ requesterOf m pair ≠ ep then m
      else match deliver m (portSrc port) (reqQ pair) ep (payload.drop 2) with
        | (m, false) => m
        | (m, true) => countDrop m port

/-- PHY_CALIBRATION_STEP, R562: a calibration step and the signal quality that it measures; the threshold of ETH_SQI_LOW
is open (notes/assumptions/7.md). -/
def execPhyCalibrationStep (port sqi : Nat) (s : State) : Host.Outcome State Fault Refusal :=
  run s fun m =>
    let x := getEth m port
    if 10 ≤ port ∨ x.st ≠ .up then m
    else
      let q := sqi % 8
      let low := decide (q < Config.sqiLow)
      let m := updEth m port fun x => { x with sqi := q, sqiLow := low }
      if low && !x.sqiLow then netEvent (reportOpen m (portSrc port) kEthSqiLow 0) (portSrc port)
      else if !low && x.sqiLow then endCond m (portSrc port) kEthSqiLow
      else m

/-- ETH_LINK_DOWN, R578. -/
def execEthLinkDown (port : Nat) (s : State) : Host.Outcome State Fault Refusal :=
  run s fun m => if port < 12 && (getEth m port).st == .up then portDown m port else m

/-- ETH_LINK_UP, R559: the link comes up at the speed of the blob. -/
def execEthLinkUp (port : Nat) (s : State) : Host.Outcome State Fault Refusal :=
  run s fun m =>
    match portRec m port with
    | none => m
    | some r =>
      if 12 ≤ port ∨ (getEth m port).st ≠ .down then m
      else
        let m := updEth m port fun x => { x with st := .up, speed := r.f 1 1 }
        netEvent (endCondIf m switchSrc kEthLinkDown fun f => f.subject == portSrc port) (portSrc port)

/-- GPTP_UNSYNC, R560, R599: a gPTP domain loses its synchronisation. -/
def execGptpUnsync (dom : Nat) (s : State) : Host.Outcome State Fault Refusal :=
  run s fun m =>
    if 2 ≤ dom ∨ !bit m.net.gptpSync dom then m
    else
      let m := updNet m fun x =>
        { x with gptpSync := setBits x.gptpSync dom 1 0, gmPort := if dom = 0 then 0xFF else x.gmPort }
      netEvent (reportOpen m switchSrc kGptpUnsync dom) switchSrc

/-! ### PCIe -/

/-- PCIE_LINK_DOWN, R578. -/
def execPcieLinkDown (s : State) : Host.Outcome State Fault Refusal :=
  run s fun m => if m.net.pci.up then netEvent (resetPcie m) pcieSrc else m

/-- PCIE_LINK_UP, R565: the link trains to a generation and width within the limits of the blob. -/
def execPcieLinkUp (gen width : Nat) (s : State) : Host.Outcome State Fault Refusal :=
  run s fun m =>
    match (recs m 0x0018).head? with
    | none => m
    | some r =>
      if m.net.pci.up ∨ gen = 0 ∨ r.f 8 1 < gen ∨ r.f 9 1 < width ∨ !([1, 2, 4].contains width) then m
      else netEvent (endCond (updPci m fun x => { x with up := true, gen := gen, width := width }) pcieSrc kPcieLinkDown) pcieSrc

/-- PCIE_AER_ERROR, R565. -/
def execPcieAerError (uncorrectable : Bool) (s : State) : Host.Outcome State Fault Refusal :=
  run s fun m =>
    if !m.net.pci.up then m
    else if uncorrectable then
      netEvent (reportOpen (updPci m fun x => { x with aerUncorr := satInc 16 x.aerUncorr }) pcieSrc kPcieAerUncorrectable 0) pcieSrc
    else
      netEvent (reportOpen (updPci m fun x => { x with aerCorr := satInc 16 x.aerCorr }) pcieSrc kPcieAerCorrected 0) pcieSrc

/-- PCIE_CPL_TIMEOUT, R566: the outstanding read of a context ends with an error response. -/
def execPcieCplTimeout (c : CtxId) (s : State) : Host.Outcome State Fault Refusal :=
  run s fun m =>
    match (getCtx m c).pcie with
    | none => m
    | some p =>
      let open_ := (List.range (halves p.addr (memSize p.op)).length).filter fun i =>
        (SMap.get p.got i).isNone && !p.errs.contains i
      let m := reportOpen (updPci m fun x => { x with cplTimeout := satInc 16 x.cplTimeout }) pcieSrc kPcieCplTimeout p.addr
      pcieFinish (updCtx m c fun x => { x with pcie := some { p with errs := p.errs ++ open_ } }) c

/-- The PCIe host side, partition 0x3E. -/
def hostPid : Nat := 0x3E

/-- R567, R259: the access windows of 0x3E, ring windows among them, allow a request. -/
def hostWindows (m : Dg) (write : Bool) (a len : Nat) : Bool :=
  (spanIn m false .canvas a len || spanIn m false .dram a len) &&
  (firstRefused (reachEdges m (sideWindows m hostPid false)) (fun b => inSide m hostPid write b ||
    ((ringAt m b 1).any fun q => (getQ m q).grants hostPid write)) a len).isNone

/-- R260, R567: what becomes of a request of the device: refused by the windows or by the ring guard, or allowed. -/
inductive HostReach where
  | denied
  | guarded (q : Nat)
  | allowed
  deriving DecidableEq, Repr

/-- R260: the ring guard sees only the requests that the windows allow. -/
def hostReach (m : Dg) (write : Bool) (a len : Nat) : HostReach :=
  if !hostWindows m write a len then .denied
  else match (ringAt m a len).filter fun q => !guardOk m q hostPid write a len with
    | some q => .guarded q
    | none => .allowed

/-- PCIE_INBOUND_REQUEST, R567: a request of the device. What a read returns leaves the module. -/
def execPcieInboundRequest (write : Bool) (addr len : Nat) (data : List Byte) (s : State) :
    Host.Outcome State Fault Refusal :=
  run s fun m =>
    let n := if write then data.length else len
    if !m.net.pci.up ∨ n = 0 then m
    else match hostReach m write addr n with
      | .denied => reportOpen m pcieSrc kPcieInboundDenied addr
      | .guarded q => guardRefused m hostPid q
      | .allowed => if write then (writeSpan m viaFabric addr data).1 else (readSpan m viaFabric addr n).1

/-- The queue that a handle of the host side names for a direction, or the refusal code of Table 05.10. -/
def hostQueue (m : Dg) (h dir : Nat) : Except Nat Nat :=
  let e := SMap.get m.fab.handles (4096 * hostPid + h)
  let x := getQ m e.q
  if e.dir = 0 then .error 1
  else if e.dir ≠ dir ∨ (if dir = 1 then x.prod (genOf m x) else x.cons (genOf m x)) ≠ hostPid then .error 2
  else if dir = 1 ∨ queueUsable m x then .ok e.q
  else .error 5

/-- The report of a refused operation of the host side (Table 05.10), from the interfaces of the hardware endpoints. -/
def hostRefused (m : Dg) (h code : Nat) : Dg :=
  let q := (SMap.get m.fab.handles (4096 * hostPid + h)).q
  if code = 1 ∨ code = 2 then report m 0x06F kAccessDenied (hostPid + 512) q (tagPid hostPid)
  else if code = 4 then fabEvt (report m 0x06F kQ0Budget (hostPid + 512) q (tagPid hostPid)) hostPid 2 q h 0
  else m

/-- The queue page answers: the blob sets it and the link is up (R568). -/
def pageUp (m : Dg) (h : Nat) : Bool := h < 4096 && m.net.pci.up && !(recs m 0x0018).isEmpty

/-- QUEUE_PAGE_DOORBELL, R568. -/
def execQueuePageDoorbell (h n : Nat) (s : State) : Host.Outcome State Fault Refusal :=
  run s fun m =>
    if !pageUp m h then m
    else match hostQueue m h 1 with
      | .error code => hostRefused m h code
      | .ok q =>
        let n := n % 2 ^ 16
        match publishRefusal m (getQ m q) n with
        | some code => hostRefused m h code
        | none => publish m q n hostPid h

/-- QUEUE_PAGE_DEQ, R568, R270. -/
def execQueuePageDeq (h : Nat) (s : State) : Host.Outcome State Fault Refusal :=
  run s fun m =>
    if !pageUp m h then m
    else match hostQueue m h 2 with
      | .error code => hostRefused m h code
      | .ok q =>
        let m := releaseQ m q
        let x := getQ m q
        if 0 < x.count then voidClaimed (claimQ m q) q hostPid (x.voidCode x.rd) else m

/-- QUEUE_PAGE_DEQ_REL, R568, R270. -/
def execQueuePageDeqRel (h : Nat) (s : State) : Host.Outcome State Fault Refusal :=
  run s fun m =>
    if !pageUp m h then m
    else match hostQueue m h 2 with
      | .error code => hostRefused m h code
      | .ok q => releaseQ m q

/-! ### GNSS -/

/-- The GNSS UART's record, when it is opened. -/
def gnssRec (m : Dg) : Option CfgRec := if opened m 10 0 then (recs m 0x001E).head? else none

/-- GNSS_MESSAGE_CLOSE, R576, R551. -/
def execGnssMessageClose (data : List Byte) (s : State) : Host.Outcome State Fault Refusal :=
  run s fun m =>
    match gnssRec m with
    | none => m
    | some r =>
      if data.isEmpty then m
      else netEvent (deliver m gnssSrc (r.f 4 4) 0x5D (netHeader 0 6 0 0 m.now ++ data.take 64)).1 gnssSrc

/-- GNSS_TRANSMIT_CLAIM, R552, R576: a message of receiver configuration is sent. -/
def execGnssTransmitClaim (s : State) : Host.Outcome State Fault Refusal :=
  run s fun m =>
    match gnssRec m with
    | none => m
    | some r =>
      let q := r.f 8 4
      match headFor m 0x5D q with
      | none => m
      | some (msg, code) =>
        if code ≠ 0 then refuseTx m gnssSrc q code
        else if !txFits msg 0 [6] ∨ leAt msg 20 4 ≠ 0 then refuseTx m gnssSrc q 7
        else updNet (hwTake m 0x5D q).1 fun x => { x with gnssTx := msg.drop 32 }

/-- The condition GNSS_PPS_LOSS. -/
def ppsLost (m : Dg) : Dg :=
  if m.sec.pps then netEvent (reportOpen (updSec m fun x => { x with pps := false }) gnssSrc kGnssPpsLoss 0) gnssSrc else m

/-- The floor of R537 in ms: UTC_MS of the newest record, rounded up to a second. -/
def rtcFloor (m : Dg) : Nat :=
  let next := ctrValue m 3
  if next ≤ 1 then 0 else ((leAt (recBytes m (next - 1)) 8 8 + 999) / 1000) * 1000

/-- R538: the RTC moved by some µs, forward or back; a second that it holds stays held (R536). -/
def rtcSlew (m : Dg) (by_ : Nat) (back : Bool) : Dg :=
  if !back then updSec m fun x => { x with rtcUs := x.rtcUs + by_ }
  else if by_ ≤ m.sec.rtcUs then updSec m fun x => { x with rtcUs := x.rtcUs - by_ }
  else updSec m fun x => { x with rtcUs := rtcUsNow m - by_, rtcAt := m.now }

/-- R538: the RTC towards a valid GNSS time of `utc` seconds, now. -/
def rtcGnss (m : Dg) (utc : Nat) : Dg :=
  let g := utc * 1000000
  let r := rtcUsNow m
  let diff := max g r - min g r
  if m.sec.restored ∧ rtcFloor m ≤ utc * 1000 then
    let old := utcMs m
    let m := rtcPut m (utc * 1000)
    let m := updSec m fun x => { x with rtcValid := true, restored := false }
    secRecord m 0xF6 0 (leBytes 8 old ++ leBytes 8 (utc * 1000))
  else if diff ≤ 60000000 then
    let m := if m.sec.disagree then endCond (updSec m fun x => { x with disagree := false }) 0x0D7 kTimeDisagree else m
    let by_ := min diff 500
    rtcSlew m by_ (decide (g < r))
  else if m.sec.disagree then m
  else reportOpen (updSec m fun x => { x with disagree := true }) 0x0D7 kTimeDisagree 0

/-- GNSS_PPS_EDGE, R576, R538: a pulse; PPS is valid after three pulses 1 s ± 50 µs apart, and a UTC second bound to it
is GNSS time. -/
def execGnssPpsEdge (utc : Option Nat) (s : State) : Host.Outcome State Fault Refusal :=
  run s fun m =>
    let ok := match m.sec.ppsAt with
      | some t => 62500000 - 3125 ≤ m.now - t && m.now - t ≤ 62500000 + 3125
      | none => false
    let n := if ok then min (m.sec.ppsCount + 1) 3 else 1
    let m := if ok then m else ppsLost m
    let m := if n = 3 ∧ !m.sec.pps then endCond m gnssSrc kGnssPpsLoss else m
    let m := updSec m fun x => { x with ppsAt := some m.now, ppsCount := n, pps := n == 3 }
    match utc with
    | some u => if n = 3 then rtcGnss m u else m
    | none => m

/-- GNSS_PPS_LOSS, R576: a pulse is more than 1.1 s late. -/
def execGnssPpsLoss (s : State) : Host.Outcome State Fault Refusal :=
  run s fun m =>
    match m.sec.ppsAt with
    | none => m
    | some t =>
      if m.now ≤ t + 131250000 then m
      else updSec (ppsLost m) fun x => { x with ppsAt := none, ppsCount := 0 }

end Sys2Proof.Machine
end

