-- ==== Sys2Proof/Machine/Journal.lean ====
section
/-! DEFINITION. The journal's commands, seals and audit, and RTC_SET (spec/10 R526 to R537). -/
namespace Sys2Proof.Machine

/-! ### Appending and reading -/

/-- R527, R528: a byte of a record body that breaks a rule: those given to SEC are 0, TYPE lies from 0x01 to 0xEF, SLOT
names no slot or one with an AUTHENTICATED card. -/
def bodyByteBad (m : Dg) (i b : Nat) : Bool :=
  if i = 24 then b == 0 || 0xEF < b
  else if i = 25 then !(b == 0 || ((b == 1 || b == 2) && (getCard m b).st == .authenticated))
  else if 30 ≤ i ∧ i < 52 then false
  else b != 0

/-- Offset in the payload of the first byte at fault among the bodies. -/
def bodyFault (m : Dg) (payload : List Byte) : Option Nat :=
  ((List.range (payload.length - 8)).find? fun i => bodyByteBad m (i % 64) (leAt payload (8 + i) 1)).map fun i => 8 + i

/-- One record of a request. -/
def appendOne (origin : Nat) (m : Dg) (b : List Byte) : Dg :=
  let slot := leAt b 25 1
  journalWrite m (leAt b 24 1) slot (cardRef m slot) origin ((b.drop 30).take 22)

/-- JOURNAL_APPEND, R527, R528. -/
def execJournalAppend (pair tag : Nat) (s : State) : Host.Outcome State Fault Refusal :=
  run s fun m => carryOut m pair tag 0x0060 fun m c =>
    let n := c.f 0 1
    if c.payload.length < 8 then (m, badLen)
    else if n = 0 ∨ 63 < n then (m, badField 0)
    else if c.f 1 7 ≠ 0 then (m, badField 1)
    else if c.payload.length ≠ 8 + 64 * n then (m, badLen)
    else match bodyFault m c.payload with
      | some off => (m, badField off)
      | none =>
        let (m, first) := ctrRead m 3
        let bodies := (List.range n).map fun i => (c.payload.drop (8 + 64 * i)).take 64
        (bodies.foldl (appendOne (if 1 ≤ c.ep ∧ c.ep ≤ 0x34 then c.ep else 0)) m, .ok (leBytes 8 first))

/-- CARDREF of the card of a session. -/
def sessionCardRef (m : Dg) (h : Nat) : Nat :=
  match sessionOf m h with
  | some x => cardRef m x.card
  | none => 0

/-- CARDREF of a held record. -/
def refOf (m : Dg) (n : Nat) : Nat := leAt (recBytes m n) 26 2

/-- The held records at or above a counter value, those of one card only where one is given. -/
def heldFrom (m : Dg) (start : Nat) (ref : Option Nat) : List Nat :=
  let next := ctrValue m 3
  let lo := max start (oldestHeld next)
  ((List.range (next - lo)).map fun i => lo + i).filter fun n => match ref with
    | some r => refOf m n == r
    | none => true

/-- The bytes of several records; none when one cannot be read. -/
def readRecs (m : Dg) : List Nat → Dg × Option (List Byte)
  | [] => (m, some [])
  | n :: r =>
    match readSpan m viaPort1 (recAddr n) 64 with
    | (m, none) => (m, none)
    | (m, some b) => match readRecs m r with
      | (m, none) => (m, none)
      | (m, some l) => (m, some (b ++ l))

/-- JOURNAL_READ, R535. -/
def execJournalRead (pair tag : Nat) (s : State) : Host.Outcome State Fault Refusal :=
  run s fun m => carryOut m pair tag 0x0061 fun m c =>
    let n := c.f 8 1
    let m := ctrSettle m 3
    if c.payload.length ≠ 9 then (m, badLen)
    else if n = 0 ∨ 63 < n then (m, badField 8)
    else
      let ref := if c.role m = 6 then some (sessionCardRef m c.session) else none
      let l := (heldFrom m (c.f 0 8) ref).take n
      match readRecs m l with
      | (m, none) => (m, .err stFailed 5)
      | (m, some b) => (m, .ok (leBytes 8 l.length ++ b))

/-! ### Seals -/

/-- Bytes 0 to 255 of a seal (Table 10.11). -/
def sealBody (m : Dg) (kind role flags count first last hBefore hLast ref : Nat) : List Byte :=
  let broken := match m.sec.chainBreak with
    | some n => first ≤ n && n ≤ last
    | none => false
  fit 256 (ascii "DG9-SEAL" ++
    leBytes 24 (pack [(8, kind), (8, role), (8, timeq m), (8, flags + 4 * b2n broken), (32, count), (64, first), (64, last)]) ++
    leBytes 48 hBefore ++ leBytes 48 hLast ++ deviceId ++ leBytes 18 (pack [(64, utcMs m), (64, asNs m), (16, ref)]))

/-- A seal: its body and both signatures (R534), with random numbers of the TRNG. -/
def sealBytes (m : Dg) (body : List Byte) : Dg × List Byte :=
  let (m, r1) := draw m
  let (m, r2) := draw m
  (m, body ++ idSigs "DG9-JOURNAL" body r1 r2)

/-- The counter of the last record under a seal. -/
def lastSealed (m : Dg) : Nat :=
  (match m.sec.sealing with
   | some b => b.first
   | none => m.sec.unsealed) - 1

/-- JOURNAL_SEAL_NOW, R532: it waits for the seal that covers the newest record. -/
def execJournalSealNow (pair tag : Nat) (s : State) : Host.Outcome State Fault Refusal :=
  run s fun m => carryOut m pair tag 0x0064 fun m c =>
    if c.payload.length ≠ 0 then (m, badLen)
    else
      let (m, next) := ctrRead m 3
      let newest := next - 1
      if lastSealed m = newest then (m, .ok (leBytes 8 newest))
      else
        let m := if m.sec.unsealed ≤ newest then sealTrigger m 0 else m
        (updSec m fun x => { x with sealCmds := x.sealCmds ++ [(pair, tag, newest)] }, .wait)

/-- JOURNAL_SEAL_TIMER, R532: one hour after the oldest unsealed record was written. -/
def execJournalSealTimer (s : State) : Host.Outcome State Fault Refusal :=
  run s fun m =>
    let m := ctrSettle m 3
    if m.sec.unsealed < ctrValue m 3 ∧ m.sec.unsealedAt + 3600 * second ≤ m.now then sealTrigger m 0 else m

/-- BATCH_SEAL_COMPLETE, R532 to R534: the seal is stored in the ring of 256, or SEAL_FAIL is reported and its records stay
unsealed, as while an engine that signs is out of service (R520); a trigger that waited then closes its own batch. -/
def execBatchSealComplete (ok : Bool) (s : State) : Host.Outcome State Fault Refusal :=
  run s fun m =>
    match m.sec.sealing with
    | none => m
    | some b =>
      if !ok ∨ !signersUp m then sealFails m b
      else
        let m := ctrSettle m 3
        let body := sealBody m 1 0 b.flags (b.last + 1 - b.first) b.first b.last (chainTo m (b.first - 1)) (chainTo m b.last) 0
        let (m, made) := sealBytes m body
        sealEnded (updSec m fun x => { x with sealing := none, seals := (made :: x.seals).take 256 }) b true

/-! ### Export -/

/-- The hash pass of an export (R535): for a Driver session over its card's records, otherwise over the range. The counters
of a card export that covers no record are free values (notes/assumptions/7.md). -/
def exportPass (m : Dg) (cmd : Nat × Nat) (lo hi role ref : Nat) : Dg × Export :=
  if role = 6 then
    let l := (heldFrom m lo (some ref)).filter fun n => n ≤ hi
    let h := ofLe (sha384Of (l.flatMap (recBytes m)))
    match l with
    | [] => (let (m, v) := draw m; let (m, w) := draw m; (m, ⟨cmd, hi, 3, role, ref, 0, v % 2 ^ 64, w % 2 ^ 64, 0, h⟩))
    | a :: r => (m, ⟨cmd, hi, 3, role, ref, l.length, a, r.getLastD a, 0, h⟩)
  else (m, ⟨cmd, hi, 2, role, 0, hi + 1 - lo, lo, hi, chainTo m (lo - 1), chainTo m hi⟩)

/-- An export is under way whose command is still outstanding. -/
def exportRuns (m : Dg) : Bool :=
  match m.sec.exporting with
  | some e => (findCmd m e.cmd.1 e.cmd.2).isSome
  | none => false

/-- JOURNAL_EXPORT, R535. -/
def execJournalExport (pair tag : Nat) (s : State) : Host.Outcome State Fault Refusal :=
  run s fun m => carryOut m pair tag 0x0062 fun m c =>
    let lo := c.f 0 8
    let hi := c.f 8 8
    let (m, next) := ctrRead m 3
    if c.payload.length ≠ 16 then (m, badLen)
    else if hi < lo ∨ lo < oldestHeld next ∨ next ≤ hi then (m, badField 0)
    else if exportRuns m then (m, .err stBusy 2)
    else
      let (m, e) := exportPass m (pair, tag) lo hi (c.role m) (sessionCardRef m c.session)
      (updSec m fun x => { x with exporting := some e }, .wait)

/-- JOURNAL_EXPORT_COMPLETE, R529, R534, R535: the seal is answered; the export mark advances for an Authority or Owner
session. While an engine that signs is out of service the seal cannot be completed (R520, R544). -/
def execJournalExportComplete (s : State) : Host.Outcome State Fault Refusal :=
  run s fun m =>
    match m.sec.exporting with
    | none => m
    | some e =>
      let go := exportRuns m
      let m := updSec m fun x => { x with exporting := none }
      if !go then m
      else
        let body := sealBody m e.kind e.role 0 e.count e.first e.last e.hBefore e.hLast e.ref
        if !signersUp m then finishAt (reportOpen m 0x0D6 kSealFail 0) (some e.cmd) stFailed 5 []
        else
          let m := if e.role = 2 ∨ e.role = 5 then
              nearFullCheck (updSec m fun x => { x with exportMark := max x.exportMark e.upTo })
            else m
          let (m, made) := sealBytes m body
          finishAt m (some e.cmd) stOk 0 made

/-- JOURNAL_STATUS, R529: counters, records not yet sealed, UTC_MS of the newest batch seal. -/
def execJournalStatus (pair tag : Nat) (s : State) : Host.Outcome State Fault Refusal :=
  run s fun m => carryOut m pair tag 0x0063 fun m c =>
    let (m, next) := ctrRead m 3
    if c.payload.length ≠ 0 then (m, badLen)
    else (m, .ok (leBytes 32 (pack [(64, next), (64, oldestHeld next), (32, next - 1 - lastSealed m), (32, 0),
      (64, leAt (m.sec.seals.headD []) 176 8)])))

/-! ### The audit -/

/-- The first record whose LINK disagrees with the chain from the value before it; and the value at the end. -/
def auditFrom (m : Dg) : List Nat → Nat → Option Nat × Nat
  | [], h => (none, h)
  | n :: r, h =>
    let b := recBytes m n
    if leAt b 52 12 ≠ h % 2 ^ 96 then (some n, h) else auditFrom m r (chainStep h b)

/-- R531: the first record whose chain disagrees with the records, the newest batch seal or H_HEAD. -/
def auditFault (m : Dg) : Option Nat :=
  let next := ctrValue m 3
  let sealed := m.sec.seals.headD []
  let last := leAt sealed 24 8
  match auditFrom m (heldFrom m 1 none) m.sec.hTail with
  | (some n, _) => some n
  | (none, h) =>
    if m.sec.seals ≠ [] ∧ oldestHeld next ≤ last ∧ chainTo m last ≠ leAt sealed 80 48 then some last
    else if h ≠ m.sec.hHead then some (next - 1)
    else none

/-- CHAIN_AUDIT, R531: from S15; a break found before is not searched again. -/
def execChainAudit (s : State) : Host.Outcome State Fault Refusal :=
  run s fun m =>
    if !m.sec.journalReady ∨ m.sec.chainBreak.isSome then m
    else
      let m := ctrSettle m 3
      match auditFault m with
      | none => m
      | some n => updSec (reportOpen m 0x0D6 kJournalChainBreak n) fun x => { x with chainBreak := some n }

/-! ### Legal time -/

/-- RTC_SET, R526, R536. -/
def execRtcSet (pair tag : Nat) (s : State) : Host.Outcome State Fault Refusal :=
  run s fun m => carryOut m pair tag 0x0083 fun m c =>
    let new := c.f 0 8
    let cur := utcMs m
    let role := c.role m
    if c.payload.length ≠ 12 then (m, badLen)
    else if new * 1000 < rtcFloor m ∨
        (role = 4 ∧ m.sec.rtcValid ∧ (new * 1000 + 1200000 < cur ∨ cur + 1200000 < new * 1000)) then
      (reportOpen m 0x0D7 kRollbackRefused 0, .err stInvalid 32)
    else
      let old := cur / 1000
      let m := updSec (rtcPut m (new * 1000)) fun x => { x with rtcValid := true }
      (secRecord m 0xF1 0 (leBytes 22 (pack [(64, old), (64, new), (32, c.f 8 4), (8, role), (8, 0)])), .ok [])

end Sys2Proof.Machine
end

