-- ==== Sys2Proof/Machine/Engines.lean ====
section
/-! DEFINITION. The engine jobs of SEC and the driver card interfaces (spec/10 R519 to R522, R539 to R543). -/
namespace Sys2Proof.Machine

/-! ### Jobs (Tables 10.3, 10.4) -/

/-- The bit of SEC_ID.ENGINES of the engine that serves an OP: 0 AES, 1 SHA-384, 2 SHA3-384, 3 ECDSA, 4 ML-DSA, 5 ML-KEM,
6 TRNG. -/
def engineOf (op : Nat) : Nat :=
  match op with
  | 0x01 => 1
  | 0x02 => 2
  | 0x03 => 1
  | 0x20 => 3
  | 0x21 => 4
  | 0x22 => 3
  | 0x23 => 4
  | 0x24 => 5
  | 0x25 => 5
  | 0x26 => 5
  | 0x30 => 6
  | _ => 0

/-- The source of an engine (Table 10.12). -/
def engineSrc (op : Nat) : Nat :=
  match engineOf op with
  | 0 => 0x0D2
  | 1 => 0x0D3
  | 2 => 0x0D4
  | 6 => 0x0D1
  | _ => 0x0D5

/-- The operations of Table 10.4. -/
def jobOps : List Nat :=
  [0x01, 0x02, 0x03, 0x10, 0x11, 0x12, 0x13, 0x20, 0x21, 0x22, 0x23, 0x24, 0x25, 0x26, 0x30]

/-- Operations that need random numbers. -/
def needsRandom (op : Nat) : Bool := [0x22, 0x23, 0x24, 0x26, 0x30].contains op

/-- The STATUS of a job (R522). -/
inductive JobEnd where
  | ok (out : List Byte)
  | rejected
  | invalid
  | reach
  | fault
  | aborted

/-- KIND, LEN and ADDR of a DREF at an offset of the message, and where the data of KIND 0 begin: after the last DREF, those
of KEY, IN and AUX in order. -/
structure Dref where
  kind : Nat
  len : Nat
  addr : Nat
  pos : Nat

def drefAt (msg : List Byte) (off pos : Nat) : Dref := ⟨leAt msg off 1, leAt msg (off + 4) 4, leAt msg (off + 8) 8, pos⟩

/-- Bytes that a DREF takes in the message. -/
def Dref.inl (d : Dref) : Nat := if d.kind = 0 then d.len else 0

/-- The DREF of an input is one that the partition reaches. -/
def Dref.reachable (m : Dg) (pid : Nat) (d : Dref) : Bool := d.kind != 1 || d.len == 0 || inReach m pid false d.addr d.len

/-- The data of an input. -/
def Dref.data (m : Dg) (msg : List Byte) (d : Dref) : Dg × Option (List Byte) :=
  if d.kind = 0 then (m, some ((msg.drop d.pos).take d.len)) else readSpan m viaPort1 d.addr d.len

/-- R522: the lengths of KEY, IN and AUX fit the operation. -/
def jobLens (op key inp aux : Nat) : Bool :=
  match op with
  | 0x01 => key == 0 && aux == 0
  | 0x02 => key == 0 && aux == 0
  | 0x03 => aux == 0
  | 0x10 => key == 32 && 12 ≤ aux
  | 0x11 => key == 32 && 12 ≤ aux && 16 ≤ inp
  | 0x12 => key == 32 && aux == 16
  | 0x13 => key == 32 && aux == 0
  | 0x20 => key == 97 && aux == 96
  | 0x21 => key == 1952 && aux == 3309
  | 0x22 => key == 48 && aux == 0
  | 0x23 => key == 32 && aux == 0
  | 0x24 => key == 1568 && inp == 0 && aux == 0
  | 0x25 => key == 3168 && inp == 1568 && aux == 0
  | 0x26 => key == 0 && inp == 0 && aux == 0
  | _ => key == 0 && inp == 0 && aux == 0

/-- Length of the output. -/
def jobOutLen (op inp out : Nat) : Nat :=
  match op with
  | 0x01 => 48
  | 0x02 => 48
  | 0x03 => 48
  | 0x10 => inp + 16
  | 0x11 => inp - 16
  | 0x12 => inp
  | 0x13 => 16
  | 0x20 => 0
  | 0x21 => 0
  | 0x22 => 96
  | 0x23 => 3309
  | 0x24 => 1600
  | 0x25 => 32
  | 0x26 => 1568 + 3168
  | _ => out

/-- The operation on its inputs; `r` is a random number of the TRNG. None when a signature or tag does not verify. -/
def jobOut (op r : Nat) (key inp aux : List Byte) (n : Nat) : Option (List Byte) :=
  let rnd := leBytes 32 r
  match op with
  | 0x01 => some (sha384Of inp)
  | 0x02 => some (sha3Of inp)
  | 0x03 => some (hmacOf key inp)
  | 0x10 => some (gcmEncrypt key (aux.take 12) (aux.drop 12) inp)
  | 0x11 => gcmDecrypt key (aux.take 12) (aux.drop 12) inp
  | 0x12 => some (ctrCrypt key aux inp)
  | 0x13 => some (cmacOf key inp)
  | 0x20 => if ecdsaVerify key inp aux then some [] else none
  | 0x21 => if dsaVerify key "" inp aux then some [] else none
  | 0x22 => some (ecdsaSign (ofBe key) inp (nonces r))
  | 0x23 => some (dsaSign key "" inp rnd)
  | 0x24 => some (kemEncapsulate key rnd)
  | 0x25 => some (kemDecapsulate key inp)
  | 0x26 => some (kemKeyGen rnd (leBytes 32 (r / 2 ^ 256)))
  | _ => some (leBytes n r)

/-- A job with its inputs read. -/
def jobCompute (m : Dg) (op n : Nat) (mismatch : Bool) (key inp aux : List Byte) : Dg × JobEnd :=
  if bit m.sec.katFail (engineOf op) ∨ (needsRandom op ∧ !m.sec.trngOk) then (m, .fault)
  else if mismatch then (reportOpen m (engineSrc op) kEngineMismatch 0, .fault)
  else
    let (m, r) := if needsRandom op then draw m else (m, 0)
    match jobOut op r key inp aux n with
    | some o => (m, .ok o)
    | none => (m, .rejected)

/-- A job of a partition: the checks of R522, then the operation (R520). -/
def jobRun (m : Dg) (pid slot : Nat) (mismatch : Bool) (msg : List Byte) : Dg × JobEnd :=
  let op := leAt msg 18 1
  let k := drefAt msg 24 88
  let i := drefAt msg 40 (88 + k.inl)
  let a := drefAt msg 56 (88 + k.inl + i.inl)
  let o := drefAt msg 72 0
  let n := jobOutLen op i.len o.len
  if !jobOps.contains op ∨ msg.length ≠ 88 + k.inl + i.inl + a.inl ∨ 1 < k.kind ∨ 1 < i.kind ∨ 1 < a.kind ∨ 1 < o.kind ∨
      !jobLens op k.len i.len a.len ∨ (op = 0x30 ∧ (n = 0 ∨ 4096 < n)) ∨ (o.kind = 0 ∧ op ≠ 0x30 ∧ o.len ≠ 0) ∨
      (o.kind = 0 ∧ slot < 24 + n) ∨ (o.kind = 1 ∧ o.len < n) then (m, .invalid)
  else if !k.reachable m pid ∨ !i.reachable m pid ∨ !a.reachable m pid ∨
      (o.kind = 1 ∧ n ≠ 0 ∧ !inReach m pid true o.addr n) then (m, .reach)
  else
    let (m, kd) := k.data m msg
    let (m, id) := i.data m msg
    let (m, ad) := a.data m msg
    match kd, id, ad with
    | some kd, some id, some ad =>
      match jobCompute m op n mismatch kd id ad with
      | (m, .ok out) =>
        if o.kind = 1 then
          (match writeSpan m viaPort1 o.addr out with
           | (m, true) => (m, .ok out)
           | (m, false) => (m, .fault))
        else (m, .ok out)
      | r => r
    | _, _, _ => (m, .fault)

/-- The payload of a result (R521): inline output stands from byte 24. -/
def jobResult (tag : Nat) (inl : Bool) (e : JobEnd) : List Byte :=
  let hd (st n : Nat) : List Byte := leBytes 8 (pack [(16, tag), (8, st), (8, 0), (32, n)])
  match e with
  | .ok out => hd 0 out.length ++ (if inl then out else [])
  | .rejected => hd 1 0
  | .invalid => hd 2 0
  | .reach => hd 3 0
  | .fault => hd 4 0
  | .aborted => hd 5 0

/-- The SEC_QUEUE record of a request queue. -/
def secQueue (m : Dg) (q : Nat) : Option CfgRec := recBy m 0x0022 4 4 q

/-- The request queues of jobs, each with its response queue. -/
def secQueues (m : Dg) : List (Nat × Nat) := (recs m 0x0022).map fun r => (r.f 4 4, r.f 8 4)

/-- R521: the request queue whose turn it is: from the place of the round robin on, the first that holds a void message, or
a job whose response queue has a free slot. -/
def secTurn (m : Dg) : Option Nat :=
  let l := secQueues m
  ((l.drop (m.sec.turn % l.length) ++ l.take (m.sec.turn % l.length)).find? fun e =>
    match hwPeek m 0x5B e.1 with
    | none => false
    | some (_, code) => code != 0 || (getQ m e.2).free != 0).map (·.1)

/-- The oldest message of a request queue is taken, and the round robin goes on behind the queue. -/
def secTake (m : Dg) (q : Nat) : Dg :=
  updSec (hwTake m 0x5B q).1 fun x => { x with turn := (secQueues m).findIdx (·.1 == q) + 1 }

/-- R521: jobs of Exesh are under way: signatures of a report, a seal or an export, the verification of an image. They are served
first. -/
def exeshJobs (m : Dg) : Bool :=
  (m.mbx.out.any fun c => c.op == 0x0012 && c.phase == .running) || m.sec.sealing.isSome || exportRuns m ||
  (List.range 6).any fun b => (getImg m b).st == .staging && (getImg m b).cmd.isSome

/-- A job is answered on its response queue, with the interrupt of its SEC_QUEUE record. -/
def secAnswer (m : Dg) (r : CfgRec) (msg : List Byte) (e : JobEnd) : Dg :=
  let (m, sent) := hwPublish m (r.f 8 4) 0x5B (jobResult (leAt msg 16 2) (leAt msg 72 1 == 0) e)
  if sent then raisePid m (r.f 0 1) (r.f 12 2) else m

/-- R533: at the supply-loss signal the job whose turn it is ends with ABORTED. -/
def secAbort (m : Dg) : Dg :=
  match secTurn m with
  | none => m
  | some q => match secQueue m q, hwPeek m 0x5B q with
    | some r, some (msg, code) =>
      if code ≠ 0 ∨ !m.sec.keysReady ∨ exeshJobs m then m else secAnswer (secTake m q) r msg .aborted
    | _, _ => m

/-- R521: the oldest job of the request queue whose turn it is, if the row serves its OP, runs and is answered. A void message
is released; a job waits while the response queue has no free slot, or while jobs of Exesh are under way. -/
def secJob (m : Dg) (q : Nat) (mismatch : Bool) (mine : Nat → Bool) : Dg :=
  match secQueue m q with
  | none => m
  | some r =>
    let y := getQ m (r.f 8 4)
    if !m.sec.keysReady ∨ exeshJobs m ∨ secTurn m ≠ some q then m
    else match hwPeek m 0x5B q with
      | none => m
      | some (msg, code) =>
        if code ≠ 0 then (if mine 0x01 then secTake m q else m)
        else if !mine (leAt msg 18 1) ∨ y.free = 0 then m
        else
          let m := secTake m q
          let (m, e) := jobRun m (r.f 0 1) y.slotSize mismatch msg
          secAnswer m r msg e

/-- SHA_384, R521; also the jobs with an undefined OP, which are answered INVALID (R522). -/
def execSha384 (q : Nat) (mismatch : Bool) (s : State) : Host.Outcome State Fault Refusal :=
  run s fun m => secJob m q mismatch fun op => op == 0x01 || !jobOps.contains op
/-- SHA3_384, R521. -/
def execSha3384 (q : Nat) (mismatch : Bool) (s : State) : Host.Outcome State Fault Refusal :=
  run s fun m => secJob m q mismatch fun op => op == 0x02
/-- HMAC_SHA_384, R521. -/
def execHmacSha384 (q : Nat) (mismatch : Bool) (s : State) : Host.Outcome State Fault Refusal :=
  run s fun m => secJob m q mismatch fun op => op == 0x03
/-- AES_256_GCM_ENCRYPT, R521. -/
def execAes256GcmEncrypt (q : Nat) (mismatch : Bool) (s : State) : Host.Outcome State Fault Refusal :=
  run s fun m => secJob m q mismatch fun op => op == 0x10
/-- AES_256_GCM_DECRYPT, R522. -/
def execAes256GcmDecrypt (q : Nat) (mismatch : Bool) (s : State) : Host.Outcome State Fault Refusal :=
  run s fun m => secJob m q mismatch fun op => op == 0x11
/-- AES_256_CTR, R521. -/
def execAes256Ctr (q : Nat) (mismatch : Bool) (s : State) : Host.Outcome State Fault Refusal :=
  run s fun m => secJob m q mismatch fun op => op == 0x12
/-- AES_256_CMAC, R521. -/
def execAes256Cmac (q : Nat) (mismatch : Bool) (s : State) : Host.Outcome State Fault Refusal :=
  run s fun m => secJob m q mismatch fun op => op == 0x13
/-- ECDSA_P_384_VERIFY, R522. -/
def execEcdsaP384Verify (q : Nat) (mismatch : Bool) (s : State) : Host.Outcome State Fault Refusal :=
  run s fun m => secJob m q mismatch fun op => op == 0x20
/-- ML_DSA_65_VERIFY, R522. -/
def execMlDsa65Verify (q : Nat) (mismatch : Bool) (s : State) : Host.Outcome State Fault Refusal :=
  run s fun m => secJob m q mismatch fun op => op == 0x21
/-- ECDSA_P_384_SIGN, R521. -/
def execEcdsaP384Sign (q : Nat) (mismatch : Bool) (s : State) : Host.Outcome State Fault Refusal :=
  run s fun m => secJob m q mismatch fun op => op == 0x22
/-- ML_DSA_65_SIGN, R521. -/
def execMlDsa65Sign (q : Nat) (mismatch : Bool) (s : State) : Host.Outcome State Fault Refusal :=
  run s fun m => secJob m q mismatch fun op => op == 0x23
/-- ML_KEM_1024_ENCAPSULATE, R521. -/
def execMlKem1024Encapsulate (q : Nat) (mismatch : Bool) (s : State) : Host.Outcome State Fault Refusal :=
  run s fun m => secJob m q mismatch fun op => op == 0x24
/-- ML_KEM_1024_DECAPSULATE, R521. -/
def execMlKem1024Decapsulate (q : Nat) (mismatch : Bool) (s : State) : Host.Outcome State Fault Refusal :=
  run s fun m => secJob m q mismatch fun op => op == 0x25
/-- ML_KEM_1024_KEY_GENERATION, R521. -/
def execMlKem1024KeyGeneration (q : Nat) (mismatch : Bool) (s : State) : Host.Outcome State Fault Refusal :=
  run s fun m => secJob m q mismatch fun op => op == 0x26
/-- RANDOM_BYTES, R521. -/
def execRandomBytes (q : Nat) (mismatch : Bool) (s : State) : Host.Outcome State Fault Refusal :=
  run s fun m => secJob m q mismatch fun op => op == 0x30

/-- TRNG_HEALTH, R520: a health test fails: the condition is reported and no random output is delivered. -/
def execTrngHealth (s : State) : Host.Outcome State Fault Refusal :=
  run s fun m =>
    if !m.sec.trngOk then m
    else reportOpen (updSec m fun x => { x with trngOk := false }) 0x0D1 kTrngHealth 0

/-! ### Cards -/

def updCard (m : Dg) (n : Nat) (f : CardSlot → CardSlot) : Dg := updSec m fun x => { x with card := SMap.upd x.card n f }

/-- A card slot with its lands (Table 11.1). -/
def cardSlot (m : Dg) (n : Nat) : Bool := (n == 1 || n == 2) && hasLand m 8 n

/-- The Driver sessions of a slot end (R382, R540). -/
def endCardSessions (m : Dg) (n : Nat) : Dg :=
  (m.mbx.sessions.filter fun y => y.role == 6 && y.card == n).foldl (fun m y => endSession m y.handle false) m

/-- CARD_INSERTION, R539: the slot leaves EMPTY; `cls` and `proto`: the card answers at class B, and with T=1. -/
def execCardInsertion (n : Nat) (cls proto : Bool) (s : State) : Host.Outcome State Fault Refusal :=
  run s fun m =>
    if !cardSlot m n ∨ (getCard m n).st ≠ .empty then m
    else updCard m n fun k => { k.off .present with answersB := cls, answersT1 := proto }

/-- CARD_REMOVAL, R540. -/
def execCardRemoval (n : Nat) (s : State) : Host.Outcome State Fault Refusal :=
  run s fun m =>
    if !cardSlot m n ∨ (getCard m n).st = .empty then m
    else cardOut (endCardSessions m n) n .empty

/-- CARD_SUPPLY_FAULT, R540: an overcurrent. -/
def execCardSupplyFault (n : Nat) (s : State) : Host.Outcome State Fault Refusal :=
  run s fun m =>
    if !cardSlot m n ∨ (getCard m n).st = .empty ∨ (getCard m n).st = .fault then m
    else reportOpen (cardOut (endCardSessions m n) n .fault) (0x0D7 + n) kCardSupplyFault 0

/-- The fields of a certificate (R541). -/
def certNumber (cert : List Byte) : Nat := leAt cert 0 16

/-- R541: the certificate verifies under the issuer's Authority key of the same ALG, and its dates hold while RTC_VALID. -/
def certOk (m : Dg) (cert : List Byte) : Bool :=
  let alg := leAt cert 32 1
  let body := 36 + leAt cert 34 2
  let k := roleKey m 5 (leAt cert 33 1)
  (alg == 1 || alg == 2) && leAt cert 33 1 < 4 && k.alg == alg && cert.length == body + (if alg == 1 then 3309 else 96) &&
  (if alg == 1 then dsaVerify k.key "" (cert.take body) (cert.drop body)
   else ecdsaVerify k.key (cert.take body) (cert.drop body)) &&
  (!m.sec.rtcValid || (leAt cert 16 8 ≤ utcS m && utcS m ≤ leAt cert 24 8))

/-- R541: the card's signature over "DG9-CARD1", the challenge and DEVICE_ID verifies. -/
def cardSigOk (ss : Session) (r : CardReply) : Bool :=
  let key := (r.cert.drop 36).take (leAt r.cert 34 2)
  let text := ascii "DG9-CARD1" ++ leBytes 48 ss.challenge ++ deviceId
  if leAt r.cert 32 1 = 1 then dsaVerify key "" text r.sig else ecdsaVerify key text r.sig

/-- A card register entry that a card number may take: its own, one without a number, or one that no held record refers
to (R542). -/
def cardEntry (m : Dg) (number : Nat) : Option Nat :=
  let all := (List.range 65535).map (· + 1)
  let has (v : Option Nat) (e : Nat) : Bool := SMap.get m.sec.cardReg e == v
  (all.find? (has (some number))).or ((all.find? (has none)).or
    (all.find? fun e => (heldFrom m 1 (some e)).isEmpty))

/-- R541, R542: what the exchange ends in: the DETAIL of a failure, or the entry. -/
def cardVerdict (m : Dg) (ss : Session) (n : Nat) (r : CardReply) : Except Nat Nat :=
  if ((getCard m n).st ≠ .active ∧ (getCard m n).st ≠ .authenticated) ∨ !r.selectOk then .error 1
  else if !r.readOk ∨ !certOk m r.cert then .error 2
  else if !cardSigOk ss r then .error 3
  else match cardEntry m (certNumber r.cert) with
    | none => .error 4
    | some e => .ok e

/-- CARD_AUTHENTICATION_COMPLETE, R541, R542. -/
def execCardAuthenticationComplete (n : Nat) (reply : CardReply) (s : State) : Host.Outcome State Fault Refusal :=
  run s fun m =>
    match (getCard m n).authCmd with
    | none => m
    | some (pair, tag) =>
      let m := updCard m n fun k => { k with authCmd := none }
      match findCmd m pair tag with
      | none => m
      | some c => match sessionOf m c.session with
        | none => m
        | some ss =>
          match cardVerdict m ss n reply with
          | .error d =>
            let m := reportOwn m (0x0D7 + n) kCardAuthFail d 0
            let m := proofFailed m c ss
            sendResp m pair tag stAuthFailed d 1 c.op []
          | .ok e =>
            let num := certNumber reply.cert
            let m := updSec m fun x => { x with cardReg := SMap.set x.cardReg e (some num) }
            let m := updCard m n fun k => { k with st := .authenticated, ref := e }
            let m := secRecord m 0xF4 n (leBytes 16 num)
            finish (proofOk m ss none) c stOk 0 (authPayload ss)

/-- An APDU message fits a slot (Table 11.2, R552). -/
def apduFits (n : Nat) (msg : List Byte) : Bool := txFits msg n [7] && leAt msg 20 4 == 0

/-- CARD_APDU, R543, R550 to R552: a command of the slot's APDU partition goes to the authenticated card, and its response into
the response queue under a network header. A message waits while SEC authenticates; a command of another partition is refused. -/
def execCardApdu (n : Nat) (reply : List Byte) (s : State) : Host.Outcome State Fault Refusal :=
  run s fun m =>
    match recBy m 0x001F 0 1 n with
    | none => m
    | some r =>
      let q := r.f 24 4
      let k := getCard m n
      let src := 0x0D7 + n
      if k.st ≠ .authenticated ∨ k.authCmd.isSome then m
      else match hwPeek m 0x5C q with
        | none => m
        | some (msg, code) =>
          let pid := producerOf m q
          let taken := (hwTake m 0x5C q).1
          if code ≠ 0 then refuseTx m src q code
          else if pid ≠ r.f 1 1 then
            report taken src kResourceConflict (openDetail taken src kResourceConflict) q (tagPid pid)
          else if !apduFits n msg then refuseTx m src q 7
          else if reply.length < 2 then reportOpen taken src kCardProtocolError 0
          else (deliver taken src (r.f 28 4) 0x5C (netHeader n 7 0 0 m.now ++ reply)).1

end Sys2Proof.Machine
end

