-- ==== Sys2Proof/Machine/Pio.lean ====
section
/-! DEFINITION. Plant I/O and the loopback tests (spec/11 R546 to R548, R569 to R577; spec/07 R394). -/
namespace Sys2Proof.Machine

/-! ### Command entries (Table 11.4) -/

/-- What becomes of a command entry (R573). -/
inductive PioEnd where
  | take (m : Dg)
  | invalid
  | conflict

/-- The class and index of the resource that an entry of a TYPE commands. -/
def pioClass (ty : Nat) : Nat :=
  match ty with
  | 4 => 5
  | 5 => 9
  | _ => 4

/-- Whether a running ADC scan list is started by commands. -/
def scanRec (m : Dg) (l : Nat) : Option CfgRec := recBy m 0x001C 0 1 l

/-- The effect of an entry on its channel, none where the channel is not in the required mode or the value is out of
range. While Fixative is engaged it does not reach the land (R574). -/
def pioApply (m : Dg) (ty ch v : Nat) : Option Dg :=
  match ty with
  | 1 => if (getTmr m ch).mode = 3 ∧ v < 2 ^ 16 then some (updTmr m ch fun t => { t with duty := v }) else none
  | 2 => if (getTmr m ch).mode = 3 ∧ 2 ≤ v then some (updTmr m ch fun t => { t with value := v }) else none
  | 3 => if (getTmr m ch).mode = 2 then some (updTmr m ch fun t => { t with value := v, curValue := if m.fix.engaged then t.curValue else v }) else none
  | 4 =>
    if ((getGpio m ch).mode = some 1 ∨ (getGpio m ch).mode = some 2) ∧ v < 4 then
      some (driveGpio (updGpio m ch fun g =>
        let g := { g with level := bit v 0, driven := bit v 1 }
        if m.fix.engaged then g else g.commit) ch)
    else none
  | 5 => match scanRec m ch with
    | some r => if r.f 2 1 = 0 ∧ v = 0 then some (updNet m fun x => { x with scan := SMap.set x.scan ch true }) else none
    | none => none
  | _ => none

/-- One entry of a command message (R573). -/
def pioEntry (m : Dg) (pid : Nat) (e : List Byte) : PioEnd :=
  let ty := leAt e 0 1
  let ch := leAt e 2 2
  if ty = 0 ∨ 5 < ty ∨ !opened m (pioClass ty) ch then .invalid
  else if ownerOf m (pioClass ty) ch ≠ some pid then .conflict
  else if leAt e 1 1 ≠ 0 then .invalid
  else match pioApply m ty ch (leAt e 4 4) with
    | some m => .take m
    | none => .invalid

/-- DETAIL of a refused entry. -/
def pioDetail (e : List Byte) : Nat :=
  let ty := leAt e 0 1
  leAt e 2 2 % 128 + 128 * (if 5 < ty then 0 else ty)

def pioOne (q pid : Nat) (m : Dg) (e : List Byte) : Dg :=
  match pioEntry m pid e with
  | .take m => m
  | .invalid => report m pioSrc kPioCmdInvalid (pioDetail e) q (tagPid pid)
  | .conflict => report m pioSrc kResourceConflict (pioDetail e) q (tagPid pid)

/-- R573: the oldest message of a command queue, if a row serves it, is applied or refused whole. -/
def pioTake (m : Dg) (q : Nat) (mine : Nat → Bool) : Dg :=
  match hwPeek m 0x5A q with
  | none => m
  | some (msg, code) =>
    let void := code != 0
    if !(void && mine 1 || !void && mine (leAt msg 32 1)) then m
    else
      let m := (hwTake m 0x5A q).1
      let pid := producerOf m q
      let n := leAt msg 16 2
      if void then m
      else if msg.length ≠ 32 + 8 * n ∨ (msg.drop 18).take 14 ≠ List.replicate 14 0 then
        report m pioSrc kPioCmdInvalid 0x3FF q (tagPid pid)
      else ((List.range n).map fun i => (msg.drop (32 + 8 * i)).take 8).foldl (pioOne q pid) m

/-- PWM_DUTY, R573: a message whose first entry has TYPE 1 or a reserved TYPE, an empty one, a void one. -/
def execPwmDuty (q : Nat) (s : State) : Host.Outcome State Fault Refusal :=
  run s fun m => pioTake m q fun t => !(2 ≤ t && t ≤ 5)

/-- PWM_PERIOD, R573. -/
def execPwmPeriod (q : Nat) (s : State) : Host.Outcome State Fault Refusal :=
  run s fun m => pioTake m q fun t => t == 2

/-- COMPARE_VALUE, R573. -/
def execCompareValue (q : Nat) (s : State) : Host.Outcome State Fault Refusal :=
  run s fun m => pioTake m q fun t => t == 3

/-- GPIO_OUTPUT, R573. -/
def execGpioOutput (q : Nat) (s : State) : Host.Outcome State Fault Refusal :=
  run s fun m => pioTake m q fun t => t == 4

/-- ADC_SCAN_START, R573. -/
def execAdcScanStart (q : Nat) (s : State) : Host.Outcome State Fault Refusal :=
  run s fun m => pioTake m q fun t => t == 5

/-! ### Samples (R575) -/

/-- The sample queue of a partition whose KINDS include a kind. -/
def sampleQueue (m : Dg) (pid kind : Nat) : Option Nat :=
  ((recs m 0x001D).find? fun r => r.f 0 1 == pid && r.f 1 1 == 1 && bit (r.f 8 1) kind).map fun r => r.f 4 4

/-- A sample message to the owner of a unit, and the event of its source. -/
def sample (m : Dg) (src cls unit kind data count : Nat) : Dg :=
  match ownerOf m cls unit with
  | none => m
  | some pid =>
    let body := leBytes 16 1 ++ leBytes 8 (pack [(8, kind), (8, unit), (16, data), (32, count)])
    let m := match sampleQueue m pid kind with
      | some q => (deliver m src q 0x5A body).1
      | none => m
    pioEvent m src

/-! ### Timers -/

/-- PWM_PERIOD_END, R569, R574: the commanded duty and period take effect; while Fixative is engaged they wait. -/
def execPwmPeriodEnd (n : Nat) (s : State) : Host.Outcome State Fault Refusal :=
  run s fun m =>
    if 96 ≤ n ∨ (getTmr m n).mode ≠ 3 ∨ m.fix.engaged then m
    else updTmr m n fun t => { t with curDuty := t.duty, curValue := t.value }

/-- TIMER_CAPTURE, R569, R575: an edge that the channel captures; OPTION 1 rising, 2 falling, 3 both. -/
def execTimerCapture (n : Nat) (rising : Bool) (count : BitVec 32) (s : State) : Host.Outcome State Fault Refusal :=
  run s fun m =>
    let t := getTmr m n
    if 96 ≤ n ∨ t.mode ≠ 1 ∨ !(t.opt = 3 ∨ t.opt = (if rising then 1 else 2)) then m
    else sample (updTmr m n fun t => { t with capture := count.toNat }) 0x0C0 4 n 1 0 count.toNat

/-- TIMER_COMPARE_MATCH, R569, R571: the land is set, cleared or toggled; the scan lists that the compare starts run. -/
def execTimerCompareMatch (n : Nat) (s : State) : Host.Outcome State Fault Refusal :=
  run s fun m =>
    let t := getTmr m n
    if 96 ≤ n ∨ t.mode ≠ 2 then m
    else
      let m := updTmr m n fun t => { t with level := if t.opt = 1 then true else if t.opt = 2 then false else !t.level }
      let m := ((recs m 0x001C).filter fun r => r.f 2 1 == 1 && r.f 3 1 == n).foldl
        (fun m r => updNet m fun x => { x with scan := SMap.set x.scan (r.f 0 1) true }) m
      pioEvent m 0x0C0

/-- PULSE_SUMMARY, R570, R575: edges since the previous summary, the last period, the timer-clock count. -/
def execPulseSummary (n edges period : Nat) (count : BitVec 32) (s : State) : Host.Outcome State Fault Refusal :=
  run s fun m =>
    match recBy m 0x001B 0 1 n with
    | none => m
    | some r =>
      if !opened m 7 n then m
      else
        let p := SMap.get m.net.pulse n
        let old := p.last.getD edges
        let bad := 50 * r.f 2 2 < edges || r.f 4 4 < max old edges - min old edges
        let new : Pulse := { edges := (p.edges + edges) % 2 ^ 32, period := period % 2 ^ 32, last := some edges }
        let m := updNet m fun x => { x with pulse := SMap.set x.pulse n new }
        let m := if bad then reportOpen m 0x0C1 kPulseImplausible n else m
        sample m 0x0C1 7 n 2 (min edges 65535) count.toNat

/-! ### ADC -/

/-- A scan list of a converter that runs and holds a channel. -/
def scanWith (m : Dg) (ch : Nat) : Option CfgRec :=
  (recs m 0x001C).find? fun r =>
    r.f 1 1 == ch / 12 && bit (r.f 4 2) (ch % 12) && (r.f 2 1 == 2 || SMap.get m.net.scan (r.f 0 1))

/-- ADC_CONVERSION_DONE, R571, R575: the sample of a channel of a running scan list, which ends with its last channel
unless it is continuous. -/
def execAdcConversionDone (ch value : Nat) (count : BitVec 32) (s : State) : Host.Outcome State Fault Refusal :=
  run s fun m =>
    match scanWith m ch with
    | none => m
    | some r =>
      if 24 ≤ ch ∨ !opened m 6 ch then m
      else
        let inv := bit m.net.adcBad (ch / 12)
        let v := value % 4096
        let m := updNet m fun x => { x with adc := SMap.set x.adc ch ⟨v, inv⟩ }
        let m := if r.f 2 1 ≠ 2 ∧ bits (r.f 4 2) (ch % 12 + 1) 12 = 0 then
            updNet m fun x => { x with scan := SMap.set x.scan (r.f 0 1) false } else m
        sample m (0x0C2 + ch / 12) 6 ch 3 (v + 2 ^ 15 * b2n inv) count.toNat

/-- ADC_REFERENCE_CHECK, R571: the internal references of a converter. -/
def execAdcReferenceCheck (conv : Nat) (ok : Bool) (s : State) : Host.Outcome State Fault Refusal :=
  run s fun m =>
    if 2 ≤ conv ∨ ok ≠ bit m.net.adcBad conv then m
    else
      let m := updNet m fun x => { x with adcBad := setBits x.adcBad conv 1 (b2n !ok) }
      if ok then endCond m (0x0C2 + conv) kAdcReference else pioEvent (reportOpen m (0x0C2 + conv) kAdcReference 0) (0x0C2 + conv)

/-! ### GPIO -/

/-- GPIO_INPUT_CHANGE, R572, R575: the outside circuit changes the level of a land that the module does not drive. -/
def execGpioInputChange (g : Nat) (level : Bool) (count : BitVec 32) (s : State) : Host.Outcome State Fault Refusal :=
  run s fun m =>
    if 48 ≤ g ∨ (gpioDrives m g).isSome then m
    else
      let changed := (getGpio m g).sensed != level
      let m := updGpio m g fun x => { x with sensed := level }
      let events := (getGpio m g).mode == some 0 && (match recBy m 0x001A 0 1 g with
        | some r => bit (r.f 2 1) 1
        | none => false)
      if changed && events then sample m 0x0C4 5 g 4 (b2n level) count.toNat else m

/-- R572: one land read back. -/
def readback (levels : BitVec 48) (m : Dg) (g : Nat) : Dg :=
  match gpioDrives m g with
  | none => updGpio m g fun x => { x with differ := 0 }
  | some b =>
    let l := levels.getLsbD g
    let n := (getGpio m g).differ + 1
    if l = b then updGpio m g fun x => { x with differ := 0, sensed := l }
    else
      let m := updGpio m g fun x => { x with differ := min n 3, sensed := l }
      if n = 3 then pioEvent (reportOpen m pioSrc kPioOutputMismatch g) pioSrc else m

/-- OUTPUT_READBACK, R572: every driven land is read back; the third difference in a row is reported. -/
def execOutputReadback (levels : BitVec 48) (s : State) : Host.Outcome State Fault Refusal :=
  run s fun m => (List.range 48).foldl (readback levels) m

/-! ### Loopbacks (R394, R577) -/

/-- Is a depth listed for an interface, and does it drive the lands (Tables 11.5 to 11.10). -/
def loopDepth (cls port depth : Nat) : Option Bool :=
  match cls with
  | 1 => if 16 ≤ port then none else if depth = 1 then some false else if depth = 2 then some true else none
  | 2 => if 8 ≤ port then none else if depth = 1 then some false else if depth = 2 then some true else none
  | 3 =>
    if 14 ≤ port then none
    else if depth = 1 then some false
    else if 12 ≤ port then none
    else if depth = 2 ∨ depth = 3 then some false
    else if depth = 5 ∨ (depth = 4 ∧ port < 10) then some true
    else none
  | 4 => if port ≠ 0 then none else if depth = 1 ∨ depth = 2 then some false else if depth = 3 then some true else none
  | 5 => if port = 0 ∨ 2 < port then none else if depth = 1 then some false else if depth = 2 then some true else none
  | 6 => if port ≠ 0 then none else if depth = 1 then some false else none
  | _ => none

/-- The ports of an interface type. -/
def loopPort (cls port : Nat) : Bool :=
  match cls with
  | 1 => port < 16
  | 2 => port < 8
  | 3 => port < 14
  | 4 => port == 0
  | 5 => port == 1 || port == 2
  | 6 => port == 0
  | _ => false

/-- The owner of an interface: by its OWNER record; the PCIe root port is Exesh's where the blob uses it. -/
def loopOwner (m : Dg) (cls port : Nat) : Option Nat :=
  match cls with
  | 1 => ownerOf m 1 port
  | 2 => ownerOf m 2 port
  | 3 => ownerOf m 3 port
  | 4 => if (recs m 0x0018).isEmpty then none else some 0
  | 5 => ownerOf m 8 port
  | _ => ownerOf m 10 0

/-- The source of an interface. -/
def loopSrc (cls port : Nat) : Nat :=
  match cls with
  | 1 => canSrc port
  | 2 => linSrc port
  | 3 => portSrc port
  | 4 => pcieSrc
  | 5 => 0x0D7 + port
  | _ => gnssSrc

/-- An interface enters a loopback test. -/
def loopState (m : Dg) (cls port : Nat) : Dg :=
  match cls with
  | 1 => updCan m port fun c => { c with st := .loopback }
  | 2 => updLin m port fun c => { c with st := .loopback }
  | 3 => updEth m port fun c => { c with st := .loopback }
  | _ => m

/-- A last-word frame uses an interface: Fixative holds it while it is engaged. -/
def fixHolds (m : Dg) (cls port : Nat) : Bool :=
  m.fix.engaged && m.fix.fr.any fun e =>
    e.2.configured && (cls == 1 && e.2.port == port || cls == 3 && e.2.port == 16 + port)

/-- LOOPBACK_RUN, R394, R547, R577. -/
def execLoopbackRun (pair tag : Nat) (s : State) : Host.Outcome State Fault Refusal :=
  run s fun m => carryOut m pair tag 0x0090 fun m c =>
    let cls := c.f 0 1
    let port := c.f 1 1
    let frames := c.f 4 4
    if c.payload.length ≠ 8 then (m, badLen)
    else if cls = 0 ∨ 6 < cls then (m, badField 0)
    else if !loopPort cls port then (m, badField 1)
    else match loopDepth cls port (c.f 2 1) with
      | none => (m, badField 2)
      | some line =>
        if c.f 3 1 ≠ 0 then (m, badField 3)
        else if frames = 0 ∨ 100000 < frames then (m, badField 4)
        else if line ∧ !([4, 3, 1].contains (c.role m)) then (m, .err stDenied 1)
        else match loopOwner m cls port with
          | some o =>
            if c.session = 0 ∧ o ≠ c.ep then
              let src := loopSrc cls port
              (report m src kResourceConflict (openDetail m src kResourceConflict) 0 (tagPid c.ep), .err stConflict 0)
            else (m, .err stBusy 5)
          | none =>
            if fixHolds m cls port ∨ (m.net.loops.any fun l => l.cls == cls && l.index == port) then (m, .err stBusy 5)
            else
              (updNet (loopState m cls port) fun x =>
                { x with loops := x.loops ++ [⟨(pair, tag), cls, port, c.f 2 1, frames⟩] }, .wait)

/-- LOOPBACK_ABORT, R394: a test of the port ends; LOOPBACK_RUN answers INCOMPLETE. -/
def execLoopbackAbort (pair tag : Nat) (s : State) : Host.Outcome State Fault Refusal :=
  run s fun m => carryOut m pair tag 0x0091 fun m c =>
    let cls := c.f 0 1
    let port := c.f 1 1
    if c.payload.length ≠ 2 then (m, badLen)
    else if cls = 0 ∨ 6 < cls then (m, badField 0)
    else if !loopPort cls port then (m, badField 1)
    else match m.net.loops.find? fun l => l.cls == cls && l.index == port with
      | none => (m, .ok [])
      | some l => (loopCut m l, .ok [])

/-- LOOPBACK_COMPLETE, R577: every frame has returned, `bad` of them in error. -/
def execLoopbackComplete (pair tag bad : Nat) (s : State) : Host.Outcome State Fault Refusal :=
  run s fun m =>
    match m.net.loops.find? fun l => l.cmd == (pair, tag) with
    | none => m
    | some l =>
      let n := min bad l.frames
      let m := (List.range n).foldl (fun m _ => reportOpen m (loopSrc l.cls l.index) kLoopbackFail 0) m
      finishAt (loopEnd m l) (some l.cmd) stOk 0 (loopAnswer (if n = 0 then 1 else 2) l.frames n)

end Sys2Proof.Machine
end

