-- ==== Sys2Proof/Machine/Fabric.lean ====
section
/-! DEFINITION. The fabric's own events (spec/05): publication checks, budget refill, flip-group boundaries, links,
router slices, the Palette scrub and FAB_MY_EVT. -/
namespace Sys2Proof.Machine

/-- PUBLICATION_CHECK, R263: the checker checks the queue's oldest publication and makes the message visible. -/
def execPublicationCheck (q : Nat) (s : State) : Host.Outcome State Fault Refusal :=
  run s fun m => checkPublication m q

/-- R281: the next whole credit of a bucket is due: the k-th comes k × BUDGET_WIN / BUDGET after the bucket was filled, so that
no remainder is lost. -/
def creditDue (x : Queue) (now : Nat) : Bool := 1000 * winUs x.budgetWin * (x.refills + 1) ≤ 16 * (now - x.filledAt) * x.budget

/-- BUDGET_REFILL, R281: one whole credit that is due, up to BUDGET. -/
def execBudgetRefill (q : Nat) (s : State) : Host.Outcome State Fault Refusal :=
  run s fun m =>
    let x := getQ m q
    if x.valid && x.cls == 0 && creditDue x m.now then
      setQ m q { x with credits := min (x.credits + 1) x.budget, refills := x.refills + 1 }
    else m

/-- FLIP_GROUP_BOUNDARY, R290 to R293: a boundary of the group that has come and has not been taken. -/
def execFlipGroupBoundary (g : Nat) (s : State) : Host.Outcome State Fault Refusal :=
  run s fun m => if g = 0 ∨ 64 ≤ g then m else takeBoundary m g

/-- A directed link of the mesh (R242): both ends lie in the mesh. -/
def linkExists (l : Link) : Bool :=
  l.x < 6 && l.y < 6 &&
  match l.dir with
  | 0 => l.x < 5
  | 1 => 0 < l.x
  | 2 => l.y < 5
  | 3 => 0 < l.y
  | _ => false

/-- The source that reports for a router and the links that leave it (Table 05.14). -/
def meshSrc (x y : Nat) : Nat := 0x060 + (if x < 3 then 0 else 1) + (if y < 3 then 0 else 2)

def lkey (l : Link) : Nat := linkKey l.x l.y l.dir
def updLink (m : Dg) (k : Nat) (f : LinkSt → LinkSt) : Dg :=
  { m with fab := { m.fab with links := SMap.upd m.fab.links k f } }

/-- A link's report names the link in ADDRESS (notes/assumptions/13.md). -/
def linkReport (m : Dg) (l : Link) (kind : Nat) : Dg := reportOpen m (meshSrc l.x l.y) kind (lkey l)

/-- R248: a correction on a wire, of which the last 16 are held. -/
def countCorr (now wire : Nat) (x : LinkSt) : LinkSt :=
  { x with corr := SMap.upd x.corr wire fun l => (now :: l).take 16 }

/-- R248: the wire has caused 16 corrections within 1 ms (62,500 time units). -/
def wireFails (x : LinkSt) (wire : Nat) : Bool :=
  let l := SMap.get x.corr wire
  match l[0]?, l[15]? with
  | some a, some b => a < b + 62500
  | _, _ => false

/-- The other direction of a link. -/
def linkBack (l : Link) : Link :=
  match l.dir with
  | 0 => { l with x := l.x + 1, dir := 1 }
  | 1 => { l with x := l.x - 1, dir := 0 }
  | 2 => { l with y := l.y + 1, dir := 3 }
  | _ => { l with y := l.y - 1, dir := 2 }

/-- R248: a link is disabled in both directions, so that the routers at both ends send y first, and reported. -/
def linkDown (m : Dg) (l : Link) : Dg :=
  let off (m : Dg) (l : Link) : Dg := updLink m (lkey l) fun x => { x with failed := true }
  linkReport (off (off m l) (linkBack l)) l kLinkFail

/-- FLIT_CORRECTED, R248. -/
def execFlitCorrected (l : Link) (wire : Nat) (s : State) : Host.Outcome State Fault Refusal :=
  run s fun m =>
    if linkExists l && !(SMap.get m.fab.links (lkey l)).failed then
      linkReport (updLink m (lkey l) (countCorr m.now wire)) l kFlitCorrected
    else m

/-- LINK_RETRY, R248: a flit is resent from the retry buffer. -/
def execLinkRetry (l : Link) (s : State) : Host.Outcome State Fault Refusal :=
  run s fun m => if linkExists l && !(SMap.get m.fab.links (lkey l)).failed then linkReport m l kLinkRetry else m

/-- LANE_SPARED, R248: a wire with 16 corrections within 1 ms moves onto one of the two spare wires; a third one disables the
link. -/
def execLaneSpared (l : Link) (wire : Nat) (s : State) : Host.Outcome State Fault Refusal :=
  run s fun m =>
    let x := SMap.get m.fab.links (lkey l)
    if linkExists l && !x.failed && wireFails x wire then
      (if x.spared.length < 2 then
        linkReport (updLink m (lkey l) fun x => { x with spared := x.spared ++ [wire], corr := SMap.set x.corr wire [] })
          l kLaneSpared
       else linkDown m l)
    else m

/-- LINK_FAIL, R248: a flit has failed after four resends: the link is disabled, and the routers at its ends send the traffic
that would use it along y first. A third failed wire disables it at LANE_SPARED. -/
def execLinkFail (l : Link) (s : State) : Host.Outcome State Fault Refusal :=
  run s fun m => if linkExists l && !(SMap.get m.fab.links (lkey l)).failed then linkDown m l else m

/-- ROUTER_SLICE, R249: a slice is outvoted; the router in ADDRESS (notes/assumptions/13.md). -/
def execRouterSlice (x y slice : Nat) (s : State) : Host.Outcome State Fault Refusal :=
  run s fun m =>
    if x < 6 && y < 6 && slice < 3 then reportOpen m (meshSrc x y) kRouterSlice (6 * y + x) else m

/-- A report of the Palette: the queue in ADDRESS, and in DETAIL one of the endpoints bound to it (R294); which one the spec does
not say (notes/assumptions/13.md). -/
def paletteReport (m : Dg) (kind q : Nat) : Dg :=
  let x := getQ m q
  let ep := match openDetail m 0x064 kind % 4 with
    | 0 => x.prod0
    | 1 => x.cons0
    | 2 => x.prod1
    | _ => x.cons1
  report m 0x064 kind ep q (endpointTag ep)

/-- PALETTE_SCRUB, R254, R296: a descriptor word is checked; an uncorrectable one makes its queue BROKEN. -/
def execPaletteScrub (q word : Nat) (found : Finding) (s : State) : Host.Outcome State Fault Refusal :=
  run s fun m =>
    if 0x40000 ≤ q ∨ 2 ≤ word then m
    else match found with
      | .clean => m
      | .corrected => paletteReport m kPaletteCorrected q
      | .uncorrectable => paletteReport (updQ m q fun x => { x with broken := true }) kPaletteUncorrectable q

/-- The events that the fabric sets for a partition in the cycle of a write (R18). -/
def fabSets (pid : Nat) (hw : List FabHw) (m : Dg) : Dg := hw.foldl (fun m e => fabEvt m pid e.flag e.qid e.handle e.code) m

/-- A write to FAB_MY_EVT in the cycle of the given events (R18): a set wins over the write. -/
def fabMyEvtWrite (m : Dg) (c : CtxId) (v : Nat) (hw : List FabHw) : Dg :=
  let pid := (getCtx m c).pid
  let keep := hw.foldl (fun a e => a ||| 2 ^ e.flag) 0
  if isShadowCtx m c then m
  else { m with fab := { m.fab with my := SMap.upd m.fab.my pid fun y =>
    { y with evt := (List.range 4).foldl (fun e i => if bit v i && !bit keep i then e.clear i else e) y.evt } } }

end Sys2Proof.Machine
end

