-- ==== Sys2Proof/Machine/Canvas.lean ====
section
/-! DEFINITION. The memories' own events (spec/06): scrubbing, migration and bank test, waking and clearing of banks,
loss of the retention supply, DRAM refresh and patrol. -/
namespace Sys2Proof.Machine

/-- R64, R321, R446: PASS when all three values match, INCOMPLETE when the signature matches with a short count or
without the marker, FAIL for any other mismatch. -/
def bistResult (exp t : Triple) : TestRes :=
  if t = exp then .pass
  else if t.sig = exp.sig ∧ (t.count.toNat < exp.count.toNat ∨ t.marker ≠ exp.marker) then .incomplete
  else .fail

def getQuad (m : Dg) (qd : Nat) : Quadrant := SMap.get m.cnv.quad qd
def updQuad (m : Dg) (qd : Nat) (f : Quadrant → Quadrant) : Dg :=
  { m with cnv := { m.cnv with quad := SMap.upd m.cnv.quad qd f } }
def getBank (m : Dg) (qd b : Nat) : Bank := SMap.get m.cnv.bank (32 * qd + b)

/-- Words of a bank (R304). -/
def bankWords : Nat := 32768

/-- The banks that the scrubber visits: the ON logical banks, then the free bank as number 32 (R314). -/
def scrubBanks (m : Dg) (qd : Nat) : List Nat :=
  ((List.range 32).filter fun b => (getBank m qd b).power == .on) ++
  (if (getQuad m qd).free < 33 && (getQuad m qd).phase == 0 && (getQuad m qd).freePower == .on then [32] else [])

/-- The position a scrub read uses: the position itself in a visited bank, else the first word of the next one. -/
def scrubAt (m : Dg) (qd : Nat) : Option Nat :=
  let p := (getQuad m qd).scrubPos
  let l := scrubBanks m qd
  if l.contains (p / bankWords) then some p
  else match l.find? fun b => p / bankWords < b with
    | some b => some (b * bankWords)
    | none => l.head?.map (· * bankWords)

/-- An upset inverts stored bits of a word. -/
def upset (m : Dg) (wa copy : Nat) (u : BitVec 144) : Dg := setErr m wa copy (getErr m wa copy ^^^ u)

/-- CANVAS_SCRUB_READ, R314, R329: the next word is read through port 1, but not in Park-Listen. A word of the free bank holds no
logical word and has no address: its error is reported with an open ADDRESS, and nothing else follows. -/
def execCanvasScrubRead (qd : Nat) (u : Upset) (s : State) : Host.Outcome State Fault Refusal :=
  run s fun m =>
    if 4 ≤ qd ∨ unpowered m then m
    else match scrubAt m qd with
      | none => m
      | some p =>
        let m := updQuad m qd fun x => { x with scrubPos := (p + 1) % (33 * bankWords) }
        let b := p / bankWords
        if b = 32 then
          let r := fun k => reportOwn m (0x070 + qd) k ((getQuad m qd).free + 64) (openDetail m (0x070 + qd) k)
          if u.wrongAddr then r kCanvasAddr
          else match eccOf u.bits with
            | .clean => m
            | .corrected => r kCanvasCorrected
            | .wrong _ => r kCanvasCorrected
            | .uncorrectable => r kCanvasUncorrectable
        else
          let wa := canvasBase + (32 * qd + b) * 0x80000 + p % bankWords * 16
          (readCanvas (upset m wa 0 u.bits) viaPort1 u.wrongAddr wa).1

/-- Time of the last PASS of a physical bank as R317 orders them: none since start is oldest. -/
def passAge (x : Quadrant) (p : Nat) : Nat :=
  match (SMap.get x.phys p).lastPass with
  | none => 0
  | some t => t + 1

/-- R316, R317, R323, R329: the logical banks that may be migrated: in Drive the test banks that are ON, at shutdown test every one
whose physical bank has not been tested. -/
def migratable (m : Dg) (qd b : Nat) : Bool :=
  let k := getBank m qd b
  let x := getQuad m qd
  if x.shutAll then !x.shutDone.contains (SMap.get x.remap b) else k.power == .on && !k.noTest

/-- The bank that R317 migrates: the oldest last PASS, ties to the lower number. -/
def migChoice (m : Dg) (qd : Nat) : Option Nat :=
  let x := getQuad m qd
  ((List.range 32).filter (migratable m qd)).foldl (fun best b =>
    match best with
    | none => some b
    | some a => if passAge x (SMap.get x.remap b) < passAge x (SMap.get x.remap a) then some b else some a) none

/-- A bank-test interval in units of the time base (R317). -/
def testUnits (m : Dg) : Nat := m.cnv.testS * 62500000

/-- How many due times of a quadrant's migrations have passed: quadrant q follows quadrant 0 by q × interval / 4. The base is the
end of S15, as for rotations (R317, notes/assumptions/105.md). -/
def migDueCount (m : Dg) (qd : Nat) : Nat := (m.now - (m.boot.doneAt + qd * testUnits m / 4)) / testUnits m

/-- R317, R323: a migration of the quadrant is due: once per interval in Drive, and at shutdown test one after the other. -/
def migrationDue (m : Dg) (qd : Nat) : Bool :=
  let x := getQuad m qd
  if x.shutAll then m.pwr.mode == .shutdownTest
  else m.pwr.mode == .drive && m.boot.due.isNone && !unpowered m && x.migDone < migDueCount m qd

/-- MIGRATION_START, R317: a migration that is due starts in a quadrant that has a free bank and none in progress. -/
def execMigrationStart (qd : Nat) (s : State) : Host.Outcome State Fault Refusal :=
  run s fun m =>
    let x := getQuad m qd
    if 4 ≤ qd ∨ x.phase ≠ 0 ∨ 33 ≤ x.free ∨ x.freePower ≠ .on ∨ !migrationDue m qd then m
    else
      let m := updQuad m qd fun x => { x with migDone := migDueCount m qd }
      match migChoice m qd with
      | none => m
      | some b => updQuad m qd fun x => { x with phase := 1, migBank := b, migLine := 0 }

/-- MIGRATION_LINE_COPY, R318: one line is copied; after the last the remap entry changes and the vacated bank goes to
test. The copy moves stored bits unchanged, so the bytes and error marks of the logical bank stand. -/
def execMigrationLineCopy (qd : Nat) (s : State) : Host.Outcome State Fault Refusal :=
  run s fun m =>
    let x := getQuad m qd
    if 4 ≤ qd ∨ x.phase ≠ 1 then m
    else if x.migLine + 1 < 4096 then updQuad m qd fun x => { x with migLine := x.migLine + 1 }
    else updQuad m qd fun x =>
      { x with migLine := 4096, remap := SMap.set x.remap x.migBank x.free, free := 0x3F, migBank := 0x3F, phase := 2,
               testing := some (SMap.get x.remap x.migBank), incomplete := 0 }

/-- R322: a quadrant without free bank reports once and stops its migrations. -/
def noFreeBank (m : Dg) (qd : Nat) : Dg :=
  let x := getQuad m qd
  let m := updQuad m qd fun x => { x with free := 0x3F, phase := 3, noFreeReported := true, testing := none }
  if x.noFreeReported then m else reportOwn m (0x074 + qd) kCanvasNoFreeBank (openDetail m (0x074 + qd) kCanvasNoFreeBank % 128) 0

/-- A physical bank is FAILED (R321). -/
def bankFailed (m : Dg) (qd p : Nat) : Dg :=
  reportOwn (updQuad m qd fun x => { x with failed := setBits x.failed p 1 1 }) (0x074 + qd) kCanvasBankFail p 0

/-- The record of a bank test. -/
def notePhys (x : Quadrant) (p test : Nat) (pass : Option Nat) (t : Triple) : Quadrant :=
  let o := SMap.get x.phys p
  { x with phys := SMap.set x.phys p { o with test := test, lastPass := pass.or o.lastPass, triple := t },
           shutDone := if x.shutAll then x.shutDone ++ [p] else x.shutDone }

/-- R321: the bank under test FAILs, and the quadrant has no free bank. -/
def bankTestFails (m : Dg) (qd p : Nat) (t : Triple) : Dg :=
  noFreeBank (bankFailed (updQuad m qd fun x => notePhys x p 2 none t) qd p) qd

/-- R446: the triple that a test stopped early leaves: a free value (notes/assumptions/7.md). -/
def drawTriple (m : Dg) : Dg × Triple :=
  let (m, v) := draw m
  (m, ⟨BitVec.ofNat 32 v, BitVec.ofNat 32 (v / 2 ^ 32), BitVec.ofNat 8 (v / 2 ^ 64)⟩)

/-- R321: an INCOMPLETE test of a bank; the third in a row counts as FAIL. -/
def bankTestIncomplete (m : Dg) (qd p : Nat) (t : Triple) : Dg :=
  let n := (getQuad m qd).incomplete
  let m := reportOwn m (0x074 + qd) kCanvasBankIncomplete p 0
  if n + 1 < 3 then
    updQuad m qd fun x =>
      { x with incomplete := x.incomplete + 1, phys := SMap.upd x.phys p fun o => { o with test := 3, triple := t } }
  else bankTestFails m qd p t

/-- BANK_BIST_COMPLETE, R321. -/
def execBankBistComplete (qd : Nat) (t : Triple) (s : State) : Host.Outcome State Fault Refusal :=
  run s fun m =>
    match (getQuad m qd).testing with
    | none => m
    | some p =>
      match bistResult (SMap.get m.bistExp 2) t with
      | .pass => updQuad m qd fun x =>
          notePhys { x with free := p, phase := 0, testing := none, incomplete := 0 } p 1 (some m.now) t
      | .incomplete => bankTestIncomplete m qd p t
      | _ => bankTestFails m qd p t

/-- The banks of a quadrant that are in their 30 µs wake. -/
def wakingBanks (m : Dg) (qd : Nat) : List Nat :=
  (List.range 32).filter fun b => (getBank m qd b).power == .waking && !(getBank m qd b).woken

/-- R326: up to four banks of a quadrant wake at a time, in ascending order: those retained, and those that are OFF and ON in
Drive. -/
def wakeNext (m : Dg) (qd : Nat) : Dg :=
  let l := (List.range 32).filter fun b =>
    (getBank m qd b).power == .retain || ((getBank m qd b).power == .off && (getBank m qd b).onSel)
  (l.take (4 - (wakingBanks m qd).length)).foldl
    (fun m b => updBank m (32 * qd + b) fun k => { k with power := .waking, woken := false, keeps := k.power == .retain }) m

/-- R328: the RET_LOST of a bank is reported once, at the wake that follows it. -/
def tellLost (m : Dg) (qd b p : Nat) : Dg :=
  if (getBank m qd b).lostDue then
    updBank (reportOwn m (0x070 + qd) kCanvasRetLost p (canvasBase + (32 * qd + b) * 0x80000)) (32 * qd + b) fun k => { k with lostDue := false }
  else m

/-- BANK_WAKE, R326, R328: a bank finishes waking, and the next one begins. A retained bank keeps its contents and is ON; with
RET_LOST it is reported and is still to be cleared, as a bank that was OFF is. -/
def execBankWake (qd b : Nat) (s : State) : Host.Outcome State Fault Refusal :=
  run s fun m =>
    let k := getBank m qd b
    if 4 ≤ qd ∨ 32 ≤ b ∨ k.power ≠ .waking ∨ k.woken then m
    else
      let m' := if k.keeps && !k.retLost then updBank m (32 * qd + b) fun k => { k with power := .on }
        else updBank m (32 * qd + b) fun k => { k with woken := true, keeps := false }
      wakeNext (tellLost m' qd b (SMap.get (getQuad m qd).remap b)) qd

/-- BANK_CLEAR_DONE, R327: a bank that was OFF, or lost its contents, is zero with valid check bits and ON. -/
def execBankClearDone (qd b : Nat) (s : State) : Host.Outcome State Fault Refusal :=
  run s fun m =>
    let k := getBank m qd b
    if 4 ≤ qd ∨ 32 ≤ b ∨ k.power ≠ .waking ∨ !k.woken then m
    else updBank (clearRange m (canvasBase + (32 * qd + b) * 0x80000) 0x80000) (32 * qd + b) fun k =>
      { k with power := .on, woken := false }

/-- RETENTION_SUPPLY_LOSS, R328: RET_LOST is set in every bank of the quadrant that is in RETAIN. -/
def execRetentionSupplyLoss (qd : Nat) (s : State) : Host.Outcome State Fault Refusal :=
  run s fun m =>
    if 4 ≤ qd then m
    else (List.range 32).foldl (fun m b => updBank m (32 * qd + b) fun k =>
      if k.power = .retain then { k with retLost := true, lostDue := true } else k) m

/-- DRAM_REFRESH, R330: an all-bank refresh of a channel. -/
def execDramRefresh (ch : Nat) (s : State) : Host.Outcome State Fault Refusal :=
  run s fun m =>
    if 4 ≤ ch ∨ !m.drc.up then m
    else updDrc m fun d => { d with refresh := SMap.upd d.refresh ch (· + 1) }

/-- Usable words of the DRAM range. -/
def dramWords (m : Dg) : Nat := dramSegs m * 0x2000000

/-- The patrol position, moved past segments that are unmapped (R335). -/
def patrolAt (m : Dg) : Nat :=
  let p := m.drc.patrolPos % dramWords m
  let seg := p / 0x2000000
  let skip := ((List.range (dramSegs m)).map (seg + ·)).find? fun k => !bit m.drc.tmrHidden (k % dramSegs m)
  match skip with
  | some k => if k = seg then p else k % dramSegs m * 0x2000000
  | none => p

/-- DRAM_PATROL_SCRUB, R332, R334: the next usable word is read; the upset acts on the named copy of a triplicated word, and a read
that returns the word of another address is uncorrectable. -/
def execDramPatrolScrub (copy : Nat) (u : Upset) (s : State) : Host.Outcome State Fault Refusal :=
  run s fun m =>
    if !m.drc.up then m
    else
      let p := patrolAt m
      let wa := dramBase + p * 16
      let c := if bit m.drc.tmrFirst (dramSeg wa) then copy % 3 else 0
      let m := updDrc m fun d => { d with patrolPos := (p + 1) % dramWords m }
      let m := upset m wa c u.bits
      if !u.wrongAddr then (readDram m wa).1
      else if bit m.drc.tmrFirst (dramSeg wa) then (readDramWrong m wa c).1
      else wrongAddrRead m viaPort1 wa

end Sys2Proof.Machine
end

