-- ==== Sys2Proof/Machine/Studio.lean ====
section
/-! DEFINITION. The voting core complex's own events (spec/01): comparisons, re-seats, restarts of lost groups, rotation
and the test of a core. -/
namespace Sys2Proof.Machine

/-! ### Comparisons -/

/-- What one comparison concludes (R39, Table 01.2) from the verdicts on digests and requests. -/
inductive Finding2 where
  | agree
  | minority (lane : Nat)
  | lost
  deriving DecidableEq, Repr

def verdictOf : Verdict → Finding2
  | .agree => .agree
  | .minority l => .minority l
  | .noMajority => .lost

/-- R39, R40: the lane that the digests name goes before the one that the requests name; with two lanes compared any
difference has no majority. -/
def conclude (lanes : List Nat) (digest request : Verdict) : Finding2 :=
  match verdictOf digest, verdictOf request with
  | .agree, .agree => .agree
  | .lost, _ => .lost
  | _, .lost => .lost
  | .minority a, _ => if lanes.length < 3 then .lost else .minority a
  | .agree, .minority b => if lanes.length < 3 then .lost else .minority b

/-- The state in which the voter of a slot compares. -/
def compares (m : Dg) (g : Nat) : Bool :=
  match (getGrp m g).state with
  | .full => true
  | .degraded => true
  | .reseating => true
  | _ => false

/-- R42, R443: the group is lost; the shadow pair's loss only ends the underpainting; the loss of the new triad in the
revert window brings the revert. -/
def groupLost (m : Dg) (g : Nat) : Dg :=
  let x := getGrp m g
  let kind := if x.pair then kPairMismatch else kNoMajority
  let m := voterReport m g kind 3 0 0 (tagPid x.pid)
  if x.shadow then (if underLive m then abortUnder m 2 else m)
  else
    groupGone m g

/-- The CORE_RESEAT of a core that stays seated has failed (notes/assumptions/16.md). -/
def failCoreReseat (m : Dg) (core : Option Nat) : Dg :=
  match core with
  | some c => failReseatCmds m [c]
  | none => m

/-- R41, R47, R56, R594: lane `l` of a group is fenced and re-seated as for a fault; a re-seat of the group under way becomes
that one. Its core is marked EXCLUDED in the cycle that fences it: the moment is the model's choice
(notes/assumptions/105.md). A re-seat that a RESEAT reaction named, under way for another lane of the group, is not held for
later: the model's choice (notes/assumptions/16.md). -/
def fence (m : Dg) (g l core : Nat) (fresh : Bool) : Dg :=
  let s := g / 4
  let m := updGrp m g fun x => { x with held := x.held.filter (fun h => h.1 != l) }
  let m := setRole (yieldWaiting m g l) core .excluded
  match (getStudio m s).reseat with
  | some r =>
    if r.slot = g then
      let m := if r.lane = l then m else failCoreReseat m r.old
      updStudio (takeRevertSpare (abortUnderAt m s 1) g) s fun st =>
        { st with reseat := some { r with lane := l, old := some core, cause := 1, fenced := true } }
    else faultReseat m ⟨g, l, some core, 0, 1, true, 0, none, none⟩ fresh
  | none => faultReseat m ⟨g, l, some core, 0, 1, true, 0, none, none⟩ fresh

/-- R40: lane `l` is the minority: it is reported and fenced. -/
def minorityFound (m : Dg) (g l : Nat) : Dg :=
  match (getGrp m g).lane l with
  | none => m
  | some core =>
    fence (voterReport m g kLaneMinority l 0 0 core) g l core true

/-- LANE_DISAGREEMENT, R40 to R42, R56, Tables 01.2 and 01.4. -/
def execLaneDisagreement (g : Nat) (digest request : Verdict) (s : State) : Host.Outcome State Fault Refusal :=
  run s fun m =>
    if !compares m g then m
    else
      let lanes := lanesCompared m g
      match conclude lanes digest request with
      | .agree => m
      | .lost => groupLost m g
      | .minority l => if lanes.contains l then minorityFound m g l else m

/-- VOTER_SLICE, R36: the voter goes on with its two agreeing slices. -/
def execVoterSlice (g slice : Nat) (s : State) : Host.Outcome State Fault Refusal :=
  run s fun m =>
    if slice < 3 && compares m g then voterReport m g kVoterSlice 3 (openDetail m (voterSrc g) kVoterSlice % 16) 0 (voterSrc g)
    else m

/-- LANE_CORRECTED, R29: the core corrects the error and reports it. -/
def execLaneCorrected (core : Nat) (s : State) : Host.Outcome State Fault Refusal :=
  run s fun m =>
    match (getCore m core).role with
    | .active => reportOpen m core kLaneCorrected 0
    | .shadow => reportOpen m core kLaneCorrected 0
    | .qm => reportOpen m core kLaneCorrected 0
    | _ => m

/-! ### Re-seats -/

/-- PLANNED_RESEAT_START, R59, R49, R392: the group's control-period boundary is time 0 of the re-seat chosen for it. It
lapses when the group is no longer FULL; a commanded one is then answered BUSY. -/
def execPlannedReseatStart (g : Nat) (s : State) : Host.Outcome State Fault Refusal :=
  run s fun m =>
    let st := g / 4
    match (getStudio m st).planned.find? fun r => r.slot == g with
    | none => m
    | some r =>
      let x := getGrp m g
      let m := updStudio m st fun y => { y with planned := y.planned.filter fun e => e != r }
      let cmd := r.old.bind (reseatCmd m)
      let ok := x.state == .full && x.lane r.lane == r.old && (reseatsOf m g).isEmpty
      if r.cause = 3 then
        match cmd with
        | none => m
        | some c =>
          if !ok || (readySpares m st).isEmpty then finish m c stBusy 5 []
          else requestReseat m r false
      else if ok then requestReseat m r false
      else m

/-- The lane that a degraded triad lacks. -/
def missingLane (x : Group) : Option Nat := [0, 1, 2].find? fun l => (x.lane l).isNone

/-- HELD_RESEAT_START, R55, R47: at a boundary of the group with a spare READY: the missing lane of a degraded triad, or
the first named re-seat held for a full group. -/
def execHeldReseatStart (g : Nat) (s : State) : Host.Outcome State Fault Refusal :=
  run s fun m =>
    let x := getGrp m g
    if (readySpares m (g / 4)).isEmpty || !(reseatsOf m g).isEmpty then m
    else if x.state = .degraded then
      match missingLane x with
      | some l => requestReseat m ⟨g, l, none, 0, 1, true, 0, none, none⟩ false
      | none => m
    else if x.state = .full then
      match x.held with
      | (l, cause) :: rest =>
        requestReseat (updGrp m g fun x => { x with held := rest }) ⟨g, l, x.lane l, 0, cause, false, 0, none, none⟩ false
      | [] => m
    else m

/-- RESEAT_QUIESCED, R49 steps 3 and 4: the group freezes; loads complete, the store buffer drains and dirty lines are written
back. A load from the PCIe
window that has not been answered holds the freeze off (R212). -/
def execReseatQuiesced (st : Nat) (s : State) : Host.Outcome State Fault Refusal :=
  run s fun m =>
    match (getStudio m st).reseat with
    | none => m
    | some r =>
      if r.frozen.isSome || (getCtx m r.slot).pcie.isSome || drainWaits m r.slot then m
      else
        let m := updCtx m r.slot fun x => { x with load := x.load.map fun l => { l with wait := [] } }
        updStudio (showStores m r.slot) st fun y => { y with reseat := some { r with frozen := some m.now } }

/-- Pause of a re-seat in ns (Table 01.15). -/
def pauseNs (m : Dg) (r : Reseat) : Nat := min ((m.now - r.frozen.getD m.now) * 16) 65535

/-- R73: a deferred halt takes effect at step 8, and EASEL_HALT answers with the PC. -/
def deferredHalt (m : Dg) (slot : Nat) : Dg :=
  if (getGrp m slot).haltDefer then
    let m := haltCtx (updGrp m slot fun g => { g with haltDefer := false }) slot true
    (m.mbx.out.filter fun d => d.phase == .running && d.op == 0x0094 && d.target == slot).foldl
      (fun m d => finish m d stOk 0 (leBytes 8 (getCtx m slot).r.pc.toNat)) m
  else m

/-- The studio registers at step 8 (Tables 01.14, 01.15, R79). -/
def recordReseat (m : Dg) (r : Reseat) (aborted : Bool) : Dg :=
  let m := deferredHalt m r.slot
  let pause := pauseNs m r
  grpEvt (updGrp m r.slot fun g =>
    let old := (r.old.or g.missing).getD 0x3F
    { g with cntFault := if !aborted && r.cause != 2 then satInc 32 g.cntFault else g.cntFault,
             cntPlanned := if !aborted && r.cause == 2 then satInc 32 g.cntPlanned else g.cntPlanned,
             lastCause := r.cause, lastLane := r.lane, lastAborted := aborted, lastOld := old,
             lastNew := if aborted then 0x3F else r.new, lastPause := pause, lastTime := m.now }) r.slot 0

/-- The core that a re-seat releases: EXCLUDED as the minority, which it has been since it was fenced; READY when a planned
re-seat sends it back to its own studio (Table 08.9, R443), unless it is in reset; otherwise it takes the test of R62. -/
def releaseCore (m : Dg) (r : Reseat) : Dg :=
  match r.old with
  | none => m
  | some c =>
    if r.fenced then setRole m c .excluded
    else if c / 10 ≠ r.slot / 4 ∧ r.cause = 2 ∧ !(m.fcr.shadows.any fun s => s.tag == c && s.ends.isNone) then setRole m c .ready
    else startTest m c

/-- RESEAT_RESTART, R49 step 8: the newcomer is seated, the group restarts, RESEAT_DONE is sent; a CORE_RESEAT is answered;
the next re-seat of the studio begins (R54). -/
def execReseatRestart (st : Nat) (s : State) : Host.Outcome State Fault Refusal :=
  run s fun m =>
    match (getStudio m st).reseat with
    | none => m
    | some r =>
      if r.frozen.isNone then m
      else
        let wasDegraded := (getGrp m r.slot).under == .degraded
        let m := updStudio m st fun y => { y with reseat := none }
        let m := seat (releaseCore m r) r.slot r.lane r.new
        let m := updGrp m r.slot fun g =>
          { g with state := .full, under := .full, held := g.held.filter fun h => h.1 != r.lane }
        let m := recordReseat m r false
        let m := updGrp m r.slot fun g => { g with missing := none }
        let m := if wasDegraded then grpEvt m r.slot 2 else m
        let m := voterReport m r.slot kReseatDone r.lane 0 (pauseNs m r) (r.old.getD r.new)
        let m := coldStart m r.slot
        let m := endCondIf m (voterSrc r.slot) kSpareUnavailable fun f => bits f.detail 4 4 == r.slot
        let m := match r.old.bind (reseatCmd m) with
          | some c => finish m c stOk 0 (leBytes 2 (pauseNs m r))
          | none => m
        let m := if m.boot.under.closing && m.boot.under.slot == r.slot then closeWindow m else m
        nextReseat m st

/-- R56, R47: the newcomer is EXCLUDED; the group restarts at step 8 degraded after a fault re-seat, and otherwise with
its lane still seated. -/
def newcomerFails (m : Dg) (st : Nat) : Dg :=
  match (getStudio m st).reseat with
  | none => m
  | some r =>
    let m := updStudio m st fun y => { y with reseat := none }
    let m := reportOpen (setRole m r.new .excluded) r.new kSpareFault 0
    let m := coldStart (recordReseat m r true) r.slot
    let m := voterReport m r.slot kReseatDone r.lane 0 (pauseNs m r) (r.old.getD r.new)
    let m :=
      if r.fenced ∨ ((getGrp m r.slot).lane r.lane).isNone then
        let m := match r.old with
          | some c => updGrp (setRole m c .excluded) r.slot fun g => { g.setLane r.lane none with missing := some c }
          | none => m
        let m := degrade m r.slot
        if (readySpares m st).isEmpty then spareUnavailable m r.slot r.lane else m
      else
        let m := updGrp m r.slot fun g => { g with state := .full, under := .full }
        if r.cause = 2 then m else holdNamed m r.slot r.lane r.cause
    let m := if m.boot.under.closing && m.boot.under.slot == r.slot then
        updStudio (closeWindow m) st fun y => { y with returnFirst := some r.slot }
      else m
    nextReseat m st

/-- NEWCOMER_FAULT, R56, R47. -/
def execNewcomerFault (st : Nat) (s : State) : Host.Outcome State Fault Refusal :=
  run s fun m => newcomerFails m st

/-- R44, R48, R70: a QM core is tested, and its partition starts again when it passes. -/
def testForRestart (m : Dg) (core pid : Nat) : Dg := updCore (startTest m core) core fun k => { k with qmPid := pid }

/-- LOST_GROUP_RESTART, R44: a restart that waits is made once the studio has enough READY spares; a lost QM partition's core
takes its test first. -/
def execLostGroupRestart (pid : Nat) (s : State) : Host.Outcome State Fault Refusal :=
  run s fun m =>
    match partRec m pid with
    | none => m
    | some r =>
      let c := recCtx r
      if !(getPart m pid).waitRestart || exeshDown m then m
      else if 16 ≤ c then
        (if (getPart m pid).state = .lost ∧ (getCore m (c - 16)).role = .qm then
          updPart (testForRestart m (c - 16) pid) pid fun p => { p with waitRestart := false }
         else m)
      else if (getGrp m c).state ≠ .lost then m
      else match formGroup m c pid with
        | some m => startPartition m pid c true
        | none => m

/-! ### Rotation and the test of a core -/

/-- A rotation interval in units of the time base (R58). -/
def rotUnits (m : Dg) : Nat := m.stu.rotInterval * 62500000

/-- Offset of a studio's rotations from those of studio 0, rounded down to a whole millisecond (R58). -/
def rotOffset (m : Dg) (st : Nat) : Nat := st * m.stu.rotInterval * 1000 / 4 * 62500

/-- How many due times of a studio's rotation have passed. The first one of studio 0 falls one interval after the end of S15:
the base is the model's choice (notes/assumptions/105.md). -/
def rotDueCount (m : Dg) (st : Nat) : Nat := (m.now - (m.boot.doneAt + rotOffset m st)) / rotUnits m

/-- A rotation of the studio is due: once per interval, in Drive and after the start (R58, R68). -/
def rotationDue (m : Dg) (st : Nat) : Bool :=
  m.pwr.mode == .drive && m.boot.due.isNone && !m.boot.recovery && (getStudio m st).rotDone < rotDueCount m st

/-- Ten rotation intervals in units of the time base. -/
def overdueAge (m : Dg) : Nat := 10 * rotUnits m

/-- R68: a core whose last PASS is too old is reported; the delay of a restart of Exesh does not count (R402). -/
def checkOverdue (m : Dg) (st c : Nat) : Dg :=
  let k := getCore m c
  let since := if k.lastPass = 0 then m.boot.doneAt else k.lastPass
  if overdueAge m + k.grace * rotUnits m < m.now - since then
    report (updCore m c fun x => { x with overdue := true }) (0x100 + st) kRotationOverdue c 0 c
  else m

/-- R59: the active cores that a rotation may release. -/
def rotatable (m : Dg) (st : Nat) : List Nat :=
  (coresOf st).filter fun c =>
    let k := getCore m c
    let g := getGrp m k.slot
    k.role == .active && k.slot / 4 == st && g.state == .full && !g.halt && (reseatsOf m k.slot).isEmpty && g.held.isEmpty &&
    !((getStudio m st).planned.any fun r => r.slot == k.slot)

/-- A planned re-seat waits for the group's boundary; a group whose partition does not run has none and begins at once
(Table 01.3 step 1). -/
def planReseat (m : Dg) (r : Reseat) : Dg :=
  if (getPart m (getGrp m r.slot).pid).state = .running then
    updStudio m (r.slot / 4) fun y => { y with planned := y.planned ++ [r] }
  else requestReseat m r false

/-- ROTATION_DUE, R58 to R61, R66, R68, R443: overdue cores are reported; an UNTESTED spare is tested, or the core with
the oldest last PASS is released, one from the partner studio first. -/
def execRotationDue (st : Nat) (s : State) : Host.Outcome State Fault Refusal :=
  run s fun m =>
    if (getStudio m st).mode = .q ∨ exeshDown m ∨ !rotationDue m st then m
    else
      let m := updStudio m st fun y => { y with rotDone := rotDueCount m st }
      let m := (coresOf st).foldl (fun m c => checkOverdue m st c) m
      if suspOf m st ≠ 0 then m
      else match (coresOf st).find? fun c => (getCore m c).role == .untested with
        | some c => startTest m c
        | none =>
          match (getStudio m st).returnFirst with
          | some g =>
            planReseat (updStudio m st fun y => { y with returnFirst := none })
              ⟨g, 2, (getGrp m g).laneC, 0, 2, false, 0, none, none⟩
          | none =>
            match olderPass m (rotatable m st) with
            | some c => planReseat m ⟨(getCore m c).slot, (getCore m c).lane, some c, 0, 2, false, 0, none, none⟩
            | none => m

/-- The result of the two BISTs of R62 together. -/
def coreResult (m : Dg) (logic mem : Triple) : TestRes :=
  match bistResult (SMap.get m.bistExp 0) logic, bistResult (SMap.get m.bistExp 1) mem with
  | .pass, .pass => .pass
  | .fail, _ => .fail
  | _, .fail => .fail
  | _, _ => .incomplete

/-- R63: a core that passes is a READY spare, a core of a studio in mode Q runs again (R44, R48). -/
def corePassed (m : Dg) (c : Nat) : Dg :=
  let pid := (getCore m c).qmPid
  let m := updCore m c fun x => { x with result := .pass, lastPass := m.now, incomplete := 0, overdue := false, grace := 0, qmPid := 0 }
  let m := endCondIf m (0x100 + c / 10) kRotationOverdue fun f => f.subject == c
  if (getStudio m (c / 10)).mode = .q then
    let m := setRole m c .qm
    if pid = 0 then m else startPartition m pid (16 + c) true
  else setRole m c .ready

/-- R63: a core that fails is EXCLUDED. -/
def coreFailed (m : Dg) (c : Nat) : Dg :=
  let src := 0x100 + c / 10
  report (updCore (setRole m c .excluded) c fun x => { x with result := .fail, incomplete := 0, qmPid := 0 })
    src kCoreBistFail (openDetail m src kCoreBistFail) c c

/-- R64: an INCOMPLETE result of a core's test; the third in a row fails the core. -/
def coreIncomplete (m : Dg) (core : Nat) : Dg :=
  let n := (getCore m core).incomplete + 1
  let src := 0x100 + core / 10
  let m := report (updCore m core fun x => { x with result := .incomplete, incomplete := n })
    src kCoreBistIncomplete (openDetail m src kCoreBistIncomplete) core core
  if n ≥ 3 then coreFailed m core else m

def testCode : TestRes → Nat
  | .none => 0
  | .pass => 1
  | .fail => 2
  | .incomplete => 3

/-- Signature, count and marker of a triple as a result carries them. -/
def tripleBytes (t : Triple) : List Byte := leBytes 9 (pack [(32, t.sig.toNat), (32, t.count.toNat), (8, t.marker.toNat)])

/-- The triple that a core's result shows: the one of the memory BIST, which runs last. -/
def coreTriple (k : Core) : Triple := (k.mem.or k.logic).getD default

/-- R57: a CORE_BIST_RUN ends: the core stays EXCLUDED, its last test shows in STU_COREc (Table 01.18), and the command is
answered. -/
def bistRunEnds (m : Dg) (core : Nat) (r : TestRes) (logic mem : Triple) : Dg :=
  match m.mbx.out.find? fun c => c.op == 0x0071 && c.phase == .running && c.f 0 1 == core with
  | none => m
  | some c =>
    let m := updCore m core fun x =>
      { x with logic := some logic, mem := some mem, result := r, lastPass := if r = .pass then m.now else x.lastPass }
    finish m c stOk 0 (leBytes 4 (testCode r) ++ tripleBytes mem)

/-- A CORE_BIST_RUN whose test is complete. -/
def bistRunDone (m : Dg) (core : Nat) (logic mem : Triple) : Dg := bistRunEnds m core (coreResult m logic mem) logic mem

/-- CORE_BIST_COMPLETE, R62 to R64: the triples of the logic and memory BIST decide the core's condition. -/
def execCoreBistComplete (core : Nat) (logic mem : Triple) (s : State) : Host.Outcome State Fault Refusal :=
  run s fun m =>
    if (getCore m core).role = .excluded then bistRunDone m core logic mem
    else if (getCore m core).role ≠ .testing then m
    else
      let m := updCore m core fun x => { x with logic := some logic, mem := some mem }
      match coreResult m logic mem with
      | .pass => corePassed m core
      | .incomplete => coreIncomplete m core
      | _ => coreFailed m core

end Sys2Proof.Machine
end

