-- ==== Sys2Proof/Machine/PartCmds.lean ====
section
/-! DEFINITION. The partition commands and CORE_RESEAT (spec/07 Table 07.12, R391, R392; spec/01 R43, R44). -/
namespace Sys2Proof.Machine

/-- STATE of PARTITION_QUERY: a partition with an underpainting shows SHADOWED. -/
def pstateCode (m : Dg) (pid : Nat) : Nat :=
  match (getPart m pid).state with
  | .stopped => 0
  | .starting => 1
  | .running => if underLive m && m.boot.under.pid == pid then 4 else 2
  | .lost => 3

/-- The application bank that a partition's live context is bound to. -/
def liveBank (m : Dg) (pid : Nat) : Nat :=
  if m.boot.under.st == .revertWindow && m.boot.under.pid == pid then m.boot.under.bank else bankOfPid m pid

/-- PARTITION_QUERY, R357. -/
def execPartitionQuery (pair tag : Nat) (s : State) : Host.Outcome State Fault Refusal :=
  run s fun m => carryOut m pair tag 0x0030 fun m c =>
    let pid := c.f 0 1
    if c.payload.length ≠ 1 then (m, badLen)
    else match partRec m pid with
      | none => (m, badField 0)
      | some r =>
        let x := recCtx r
        (m, .ok (leBytes 16 (pack [(8, pstateCode m pid), (8, r.f 1 1), (8, if x < 16 then x else 0x1F),
          (8, if x < 16 then 0x3F else x - 16), (8, liveBank m pid), (8, r.f 4 1), (16, 0),
          (32, (getPart m pid).restarts), (32, r.f 8 4)])))

/-- A partition is stop-protected and input IGN0 is active (R391). -/
def protectedNow (m : Dg) (pid : Nat) : Bool := partFlag m pid 0 && bit m.net.ign 0

/-- A glaze's revert window holds a partition (notes/assumptions/29.md). -/
def inWindowOfGlaze (m : Dg) (pid : Nat) : Bool := m.boot.under.st == .revertWindow && m.boot.under.pid == pid

/-- PARTITION_STOP, R391; it ends an underpainting of the partition (cause 5). -/
def execPartitionStop (pair tag : Nat) (s : State) : Host.Outcome State Fault Refusal :=
  run s fun m => carryOut m pair tag 0x0031 fun m c =>
    let pid := c.f 0 1
    if c.payload.length ≠ 1 then (m, badLen)
    else if !pidDefined m pid then (m, badField 0)
    else if protectedNow m pid then (m, .err stDenied 3)
    else if inWindowOfGlaze m pid then (m, .err stBusy 3)
    else (abortJobs (updPart (abortUnderPid m pid 5) pid fun p => { p with state := .stopped, waitRestart := false }) pid, .ok [])

/-- A partition's group can be formed in its studio's mode: the record's KIND fits it. -/
def kindFits (m : Dg) (r : CfgRec) : Bool :=
  match (getStudio m (r.f 2 1)).mode with
  | .t => r.f 1 1 == 0
  | .d => r.f 1 1 == 1
  | .q => r.f 1 1 == 2

/-- A partition started after its load: FAILED when it could not be loaded. -/
def afterLoad (m : Dg) (pid : Nat) : Dg × Reply :=
  if (getPart m pid).state = .stopped then (m, .err stFailed 5) else (m, .wait)

/-- R372: a start that is refused has no effect; what the memories have reported on the way stands. -/
def undoStart (m : Dg) (x : Dg × Reply) : Dg × Reply :=
  match x.2 with
  | .err st d => ({ m with srcs := x.1.srcs, errs := x.1.errs }, .err st d)
  | _ => x

/-- R43, R44: the start of a partition in its own slot: on the group that stands there, or on READY spares; a lost QM
partition's core is tested first. -/
def startOnCores (m : Dg) (r : CfgRec) (restart : Bool) : Dg × Reply :=
  let pid := r.f 0 1
  let x := recCtx r
  if !kindFits m r then (m, .err stBusy 5)
  else if x < 16 then
    match (getGrp m x).state with
    | .lost => match formGroup m x pid with
      | some m => afterLoad (startPartition m pid x true) pid
      | none => (m, .err stBusy 5)
    | .unused => match formGroup m x pid with
      | some m => afterLoad (startPartition m pid x restart) pid
      | none => (m, .err stBusy 5)
    | _ => afterLoad (startPartition m pid x restart) pid
  else
    let core := x - 16
    match (getCore m core).role with
    | .excluded => (m, .err stBusy 5)
    | .testing => (updCore m core fun k => { k with qmPid := pid }, .wait)
    | _ =>
      if (getPart m pid).state = .lost then
        (testForRestart m core pid, .wait)
      else afterLoad (startPartition m pid x restart) pid

/-- PARTITION_START, R44, R391. -/
def execPartitionStart (pair tag : Nat) (s : State) : Host.Outcome State Fault Refusal :=
  run s fun m => carryOut m pair tag 0x0032 fun m c =>
    let pid := c.f 0 1
    if c.payload.length ≠ 1 then (m, badLen)
    else match partRec m pid with
      | none => (m, badField 0)
      | some r =>
        match (getPart m pid).state with
        | .running => (m, .err stInvalid 0xFFFF)
        | .starting => (m, .err stInvalid 0xFFFF)
        | .lost => undoStart m (startOnCores m r true)
        | .stopped => undoStart m (startOnCores m r false)

/-- PARTITION_RESTART, R43, R391, R347; it ends an underpainting of the partition (cause 5) and its DMA jobs. -/
def execPartitionRestart (pair tag : Nat) (s : State) : Host.Outcome State Fault Refusal :=
  run s fun m => carryOut m pair tag 0x0033 fun m c =>
    let pid := c.f 0 1
    if c.payload.length ≠ 1 then (m, badLen)
    else match partRec m pid with
      | none => (m, badField 0)
      | some r =>
        if protectedNow m pid then (m, .err stDenied 3)
        else if inWindowOfGlaze m pid then (m, .err stBusy 3)
        else undoStart m (startOnCores (abortJobs (abortUnderPid m pid 5) pid) r true)

/-- The start and restart commands of a partition are answered. -/
def answerStarts (m : Dg) (pid : Nat) : Dg :=
  (m.mbx.out.filter fun c => (c.op == 0x0032 || c.op == 0x0033) && c.phase == .running && c.f 0 1 == pid).foldl
    (fun m c => finish m c stOk 0 []) m

/-- R471: the reset shadow of a partition ends 64 cycles after it is RUNNING. -/
def endPartShadow (m : Dg) (pid : Nat) : Dg :=
  let cut (s : Shadow) : Shadow :=
    if s.tag == tagPid pid then { s with ends := some (min (s.ends.getD (m.now + 10)) (m.now + 10)) } else s
  { m with fcr := { m.fcr with shadows := m.fcr.shadows.map cut } }

/-- PARTITION_RUNNING, R483, R485: a partition that is loaded enters RUNNING; its watchdogs begin their first window, held
while the context is halted (R76). -/
def execPartitionRunning (pid : Nat) (s : State) : Host.Outcome State Fault Refusal :=
  run s fun m =>
    if (getPart m pid).state ≠ .starting then m
    else
      let m := updPart m pid fun p => { p with state := .running }
      let m := endPartShadow m pid
      let m := updWdgs m pid fun w => { w with run := WdgRun.fresh m.now, second := none }
      answerStarts (if (ctxOfPid m pid).any (halted m) then holdWdgs m pid true else m) pid

/-- CORE_RESEAT, R47, R392. -/
def execCoreReseat (pair tag : Nat) (s : State) : Host.Outcome State Fault Refusal :=
  run s fun m => carryOut m pair tag 0x0036 fun m c =>
    let core := c.f 0 1
    let k := getCore m core
    let g := getGrp m k.slot
    if c.payload.length ≠ 1 then (m, badLen)
    else if 40 ≤ core then (m, badField 0)
    else if k.role ≠ .active ∨ g.state = .reseating ∨ g.state = .degraded ∨ (readySpares m (core / 10)).isEmpty then
      (m, .err stBusy 5)
    else (planReseat m ⟨k.slot, k.lane, some core, 0, 3, false, 0, none, none⟩, .wait)

end Sys2Proof.Machine
end

