-- ==== Sys2Proof/Machine/Restart.lean ====
section
/-! DEFINITION. The restart of Exesh and the supervisor lanes (spec/07 R402 to R408; spec/09 R477, R482). -/
namespace Sys2Proof.Machine

/-- EXESH_SWITCH, R401, R403, R404: the drain of a planned restart begins; in recovery the chip is reset. -/
def execExeshSwitch (pair tag : Nat) (s : State) : Host.Outcome State Fault Refusal :=
  run s fun m => carryOut m pair tag 0x0048 fun m c =>
    let b := c.f 0 1
    if c.payload.length ≠ 1 then (m, badLen)
    else if 1 < b ∨ !imgHeld m b then (m, badField 0)
    else if m.mbx.state = 4 then (chipReset (updBoot m fun x => { x with exeshFirst := b }), .wait)
    else if m.mbx.bank = b then (m, badField 0)
    else if underBusy m then (m, .err stBusy 3)
    else (updMbx m fun x => { x with restart := some ⟨.switch, b, some (pair, tag), false, m.now, false⟩ }, .wait)

/-- LANE_RESYNC, R404: the drain before a resynchronisation of the lanes begins. -/
def execLaneResync (s : State) : Host.Outcome State Fault Refusal :=
  run s fun m =>
    if m.mbx.lanes = 7 ∨ m.mbx.state ≠ 2 ∨ m.mbx.restart.isSome ∨ underBusy m then m
    else updMbx m fun x => { x with restart := some ⟨.resync, x.bank, none, false, m.now, false⟩ }

/-- RESTART_DRAIN_END, R404: every outstanding command has finished, or 1 s has passed. -/
def execRestartDrainEnd (s : State) : Host.Outcome State Fault Refusal :=
  run s fun m =>
    match m.mbx.restart with
    | none => m
    | some r =>
      let others := m.mbx.out.filter fun c => some (c.pair, c.tag) != r.cmd
      if r.reset ∨ (!others.isEmpty ∧ m.now < r.t0 + second) then m
      else
        let m := (m.mbx.out.filter (uncommitted m)).foldl (fun m c => abortCmd m c 1) m
        updMbx m fun x => { x with restart := some { r with drained := true } }

/-- R482: after a reset of the supervisor lanes the watchdog begins its first window; it stands while CLK_MAIN is lost (R476). -/
def restartSupWdg (m : Dg) : Dg :=
  { m with supWdg := { last := m.now, first := true, stop := if m.fcr.clkLost then some m.now else none } }

/-- R347, R405: the supervisor lanes are reset; the cause is that of EXESH_RESTART, its subject the requester of the switch
(R354). -/
def laneReset (m : Dg) (r : Restart) : Dg :=
  let m := abortJobs (setCtx m supCtx Ctx.reset) 0
  let m := updMbx m fun x => { x with state := 3, supervisor := false, restart := some { r with reset := true } }
  let m := restartSupWdg m
  exeshReport m kExeshRestart (match r.kind with
    | .switch => 1
    | .resync => 2
    | .unplanned => 3) 0 ((r.cmd.map fun x => requesterOf m x.1).getD 0)

/-- RESTART_LANE_RESET, R404, R405. -/
def execRestartLaneReset (s : State) : Host.Outcome State Fault Refusal :=
  run s fun m =>
    match m.mbx.restart with
    | none => m
    | some r => if r.drained && !r.reset then laneReset m r else m

/-- The loss of majority or of the watchdog's service resets the lanes; Exesh restarts unplanned once it has run
(R407), in a start from S07 on (R413). Before, and in recovery, Gesso runs and goes on from its step (notes/assumptions/121.md). -/
def unplannedRestart (m : Dg) : Dg :=
  if 1 ≤ m.mbx.state ∧ m.mbx.state ≤ 3 then laneReset m ⟨.unplanned, m.mbx.bank, none, false, m.now, true⟩
  else restartSupWdg (setCtx m supCtx Ctx.reset)

/-- BRIDGE_BUSY_RESPONSE, R404, R405, R407: the bridge claims a request and answers it BUSY. -/
def execBridgeBusyResponse (pair : Nat) (s : State) : Host.Outcome State Fault Refusal :=
  run s fun m =>
    let detail : Option Nat :=
      if m.mbx.restart.isSome then some 1
      else if m.mbx.state = 4 ∧ pair ≠ 31 then some 4
      else none
    match detail with
    | none => m
    | some d =>
      if 32 ≤ pair ∨ (getQ m (respQ pair)).free = 0 then m
      else match hwTake m 0x00 (reqQ pair) with
        | (m, none) => m
        | (m, some (msg, code)) =>
          if code ≠ 0 then m
          else sendResp m pair (leAt msg 16 2) stBusy d 3 (leAt msg 18 2) []

/-! ### The end of a restart (Table 07.18 steps 3 to 6) -/

/-- The bank that a restart runs, with what its measurements give, if any (R406, R407). -/
def restartBank (m : Dg) (r : Restart) (ok : Nat → Bool) : Option Nat :=
  let other := 1 - r.bank
  if ok r.bank then some r.bank
  else match r.kind with
    | .switch => if ok m.mbx.bank then some m.mbx.bank else none
    | _ => if ok other && bankUsable m other then some other else none

/-- R406, R408: what the commands outstanding at the reset receive. Past a planned restart, what a command that had passed its commit
point receives is not said: INCOMPLETE, as after an unplanned one (notes/assumptions/121.md). -/
def answerRestart (m : Dg) (r : Restart) (b : Nat) : Dg :=
  let m := if r.kind != .switch then m
    else if b = r.bank then finishAt m r.cmd stOk 0 (leBytes 8 (imgVersion m b))
    else finishAt m r.cmd stFailed 5 []
  m.mbx.out.foldl (fun m c => finish m c stIncomplete 1 []) m

/-- R402, R408: what Exesh has left to do: an underpainting is aborted, a revert point released; the queues of a run that a revert has
ended during the restart are unbound. -/
def endUpdates (m : Dg) : Dg :=
  if underLive m then abortUnder m 7
  else if m.boot.under.st = .revertWindow then updUnder m fun u => { u with released := true }
  else if m.boot.under.qs.isEmpty then m
  else dropLinks m

/-- MEAS6 at an EXESH_SWITCH that succeeded, and the first choice of later starts (Table 08.2, R444). PID is 0x00. -/
def noteSwitch (m : Dg) (b : Nat) : Dg :=
  measExtend (updBoot m fun x => { x with exeshFirst := b }) 6
    ([0x00, BitVec.ofNat 8 b] ++ imgDigest m b)

/-- RESTARTED for every context (Table 07.18 step 6). -/
def restartedEvents (m : Dg) : Dg := (recs m 0x0002).foldl (fun m r => mbxEvt m (r.f 0 1) 0) m

/-- R402: the rotations that fell due during the restart are made up at the next due time, and the delay is not reported. -/
def skipRotations (m : Dg) : Dg :=
  (List.range 4).foldl (fun m st =>
    let n := rotDueCount m st - (getStudio m st).rotDone
    let m := updStudio m st fun y => { y with rotDone := y.rotDone + n }
    (coresOf st).foldl (fun m c => updCore m c fun k => { k with grace := k.grace + n }) m) m

/-- RESTART_COMPLETE, R402, R405 to R408, R410. -/
def execRestartComplete (okA okB : Bool) (s : State) : Host.Outcome State Fault Refusal :=
  run s fun m =>
    match m.mbx.restart with
    | none => m
    | some r =>
      if !r.reset then m
      else
        let m := ctrSettle m 0
        let bank := restartBank m r (fun b => if b = 0 then okA else okB)
        let m := updMbx m fun x => { x with restart := none }
        match bank with
        | none =>
          let m := m.mbx.out.foldl (fun m c => finish m c stIncomplete 1 []) m
          let m := m.mbx.sessions.foldl (fun m x => endSession m x.handle false) m
          openRecovery (enterRecovery (endUpdates m))
        | some b =>
          let m := loadExesh m b
          let m := if r.kind == .switch && b == r.bank then noteSwitch m b else m
          let m := answerRestart m r b
          let m := m.mbx.sessions.foldl (fun m x => endSession m x.handle false) m
          let m := skipRotations (if r.kind == .unplanned then endUpdates m else m)
          let started := m.boot.due.isNone
          let m := updCtx m supCtx fun x => { x with r := { x.r with mode := if started then .supervisor else .str } }
          restartedEvents (updMbx m fun x =>
            { x with state := if started then 2 else 1, lanes := 7, restarts := satInc 16 x.restarts, supervisor := started })

/-! ### Lanes and watchdog -/

/-- SUP_LANE_MINORITY, R477: a lane disagrees with the other two; the supervisor goes on with those. -/
def execSupLaneMinority (lane : Nat) (s : State) : Host.Outcome State Fault Refusal :=
  run s fun m =>
    if 3 ≤ lane ∨ m.mbx.lanes ≠ 7 then m
    else updMbx (reportOpen m (0x050 + lane) kSupLaneMinority 0) fun x => { x with lanes := setBits x.lanes lane 1 0 }

/-- SUP_NO_MAJORITY, R407, R477. -/
def execSupNoMajority (s : State) : Host.Outcome State Fault Refusal :=
  run s fun m =>
    if m.mbx.state = 0 ∨ unpowered m then m
    else updMbx (unplannedRestart (reportOpen m 0x050 kSupNoMajority 0)) fun x => { x with lanes := 0 }

/-- µs that the supervisor watchdog has counted since it was last restarted; it stops with CLK_MAIN (R476). -/
def supCount (m : Dg) : Nat := (m.supWdg.stop.getD m.now - m.supWdg.last) * 2 / 125

/-- R482: the watchdog expires. -/
def supTimeout (m : Dg) : Dg := unplannedRestart (report m 0x0E0 kSupWdgTimeout 0 0 0x050)

/-- The supervisor watchdog runs: the supervisor is supplied, and CLK_MAIN is there (R476, R591). -/
def supWdgRuns (m : Dg) : Bool := !m.fcr.clkLost && !unpowered m

/-- The end of the watchdog's window. -/
def supClose (m : Dg) : Nat := if m.supWdg.first then 250000 else 50000

/-- SUP_WDG_SERVICE, R482: a service outside the window has the effect of a timeout. -/
def execSupWdgService (s : State) : Host.Outcome State Fault Refusal :=
  run s fun m =>
    if !supWdgRuns m then m
    else if (m.supWdg.first ∨ 500 ≤ supCount m) ∧ supCount m < supClose m then
      { m with supWdg := { last := m.now, first := false, stop := none } }
    else supTimeout m

/-- SUP_WDG_TIMEOUT, R482. -/
def execSupWdgTimeout (s : State) : Host.Outcome State Fault Refusal :=
  run s fun m => if supWdgRuns m && supClose m ≤ supCount m then supTimeout m else m

end Sys2Proof.Machine
end

