-- ==== Sys2Proof/Machine/FcrOps.lean ====
section
/-! DEFINITION. FCR (spec/09 R461 to R478): the log, classification, the reactions and their block resets, the chip-level
safe state. -/
namespace Sys2Proof.Machine

def updFcr (m : Dg) (f : Fcr → Fcr) : Dg := { m with fcr := f m.fcr }

/-- The policy of a source (R467). -/
def policyOf (m : Dg) (src : Nat) : Policy := (SMap.get m.fcr.policy src).getD Policy.reset

/-! ### ERR_N, SAFE_N and the uncleared kinds -/

/-- The uncleared kinds: source, kind, and whether a set applied to it included PIN. -/
def unclearedList (m : Dg) : List (Nat × Nat × Bool) :=
  m.fcr.uncleared.filterMap fun e => e.2.map fun pin => (e.1 / 256, e.1 % 256, pin)

def unclearedKind (m : Dg) (src kind : Nat) : Option Bool := SMap.get m.fcr.uncleared (256 * src + kind)

/-- FCR and Fixative are unpowered: in Park-Listen and Off (R591), and once VRES is spent after a supply loss (Table 10.10, R584). -/
def fcrDark (m : Dg) : Bool := unpowered m && !m.pwr.holdup

/-- R478, R480, R481: ERR_N is held low. -/
def errN (m : Dg) : Bool :=
  if fcrDark m then !m.pwr.aonLost && (m.fcr.parkErr || m.boot.recovery)
  else !m.fcr.policyLoaded || m.fix.engaged || m.boot.recovery ||
    (unclearedList m).any fun e => m.fcr.pinSev ≤ sevOf e.2.1 || e.2.2

/-- R479, R481: SAFE_N is held low. -/
def safeN (m : Dg) : Bool := m.fix.engaged

/-- The highest severity among uncleared kinds (Table 09.17). -/
def maxSev (m : Dg) : Nat := (unclearedList m).foldl (fun a e => max a (sevOf e.2.1)) 0

/-! ### The log -/

/-- The 128 bits of a message (Table 09.1). -/
def FaultMsg.word (x : FaultMsg) : Nat :=
  pack [(16, x.seq), (32, x.time), (48, x.addr), (10, x.detail), (2, x.sev), (8, x.kind), (12, x.src)]

/-- The status word of an entry (Table 09.4). -/
def LogEntry.status (e : LogEntry) : Nat :=
  pack [(1, b2n e.live), (1, b2n e.transient), (1, b2n e.shadowed), (1, b2n e.cleared), (1, b2n e.severe),
        (1, b2n e.escalated), (1, b2n e.cond), (1, b2n e.msg.injected), (7, e.reactions), (1, b2n e.override),
        (8, e.count), (12, e.msg.subject), (28, e.timeHi)]

/-- R461: an entry is logged at LOG_NEXT; the newest overwrites the oldest. -/
def Fcr.push (f : Fcr) (e : LogEntry) : Fcr :=
  { f with log := SMap.set f.log f.logNext e, logNext := (f.logNext + 1) % 1024, logHeld := min (f.logHeld + 1) 1024,
           overwritten := if f.logHeld = 1024 then satInc 16 f.overwritten else f.overwritten }

/-- The entry of a message as it is accepted (R462, R463). -/
def LogEntry.of (x : FaultMsg) (shadowed : Bool) (c : SrcClass) (now : Nat) : LogEntry :=
  { msg := x, live := isCond x.kind && !x.ended, transient := isCond x.kind && x.ended, shadowed := shadowed,
    cleared := false, severe := c.severe, escalated := false, cond := isCond x.kind, reactions := 0, override := false,
    count := c.count, timeHi := bits now 32 28, readLive := false }

/-- R471: a message falls in a reset shadow. -/
def inShadow (m : Dg) (x : FaultMsg) : Bool :=
  m.fcr.shadows.any fun s =>
    (x.src == s.src || x.subject == s.tag) &&
    (match s.ends with
     | some t => m.now < t
     | none => true) &&
    (match s.unit with
     | some u => x.addr == u
     | none => true)

/-! ### Classification (R468) -/

/-- The span of `us` µs since `t` has passed. -/
def passedUs (now t us : Nat) : Bool := 125 * us ≤ 2 * (now - t)

/-- The classification of a message, and whether the source became severe with it. -/
def classify (p : Policy) (c : SrcClass) (now sev : Nat) : SrcClass × Bool :=
  let c1 :=
    if p.countSev ≤ sev then
      let c0 := if c.count == 0 || passedUs now c.wstart p.windowUs then { c with wstart := now, count := 0 } else c
      { c0 with count := satInc 8 c0.count }
    else c
  let byCount := decide (p.countSev ≤ sev) && decide (p.threshold ≤ c1.count) && !c.severe
  let bySev := sev == 3 && !c.severe
  ({ c1 with severe := c.severe || byCount || bySev }, byCount || bySev)

/-- The set that R468 selects, if any, and whether it is an override. -/
def selectSet (p : Policy) (kind sev : Nat) (severe became : Bool) : Option Nat × Bool :=
  let ovr := p.ovrKind != 0 && kind == p.ovrKind
  let n := if ovr then p.ovrNormal else p.normal
  let v := if ovr then p.ovrSevere else p.severe
  if p.reactSev ≤ sev ∨ became then (some (if severe then v else n), ovr) else (none, ovr)

/-! ### The chip-level safe state -/

/-- R473: the chip-level safe state: Fixative engages; the chip is to be reset once for the engagement. -/
def enterChipSafe (m : Dg) (src kind : Nat) : Dg :=
  let m := updFix (engage (abandonGlaze m) src kind true) fun x => { x with chipLvl := true }
  let keep := m.fcr.chipReset.isSome || m.fix.resetDone
  updFcr m fun f => { f with chipSafe := true, chipReset := if keep then f.chipReset else some false }

/-! ### Block resets (Tables 09.2, 10.12, 11.11) -/

/-- A reset shadow is opened. -/
def openShadow (m : Dg) (src tag : Nat) (unit ends : Option Nat) : Dg :=
  updFcr m fun f => { f with shadows := f.shadows ++ [⟨src, tag, unit, ends⟩] }

/-- A shadow of so many µs on a source. -/
def shadowUs (m : Dg) (src us : Nat) : Dg := openShadow m src src none (some (m.now + shadowUnits us))

/-- R443, Table 08.8: a fault of a core of the shadow pair ends the underpainting; one of a frozen old core releases the
revert point. -/
def shadowCoreFault (m : Dg) : Dg :=
  if underLive m then abortUnder m 2
  else if m.boot.under.st = .revertWindow then updUnder m fun u => { u with released := true }
  else m

/-- R48: a QM core is reset: its partition is lost, its jobs end (R347), and it is tested. -/
def qmReset (m : Dg) (core : Nat) : Dg :=
  let pid := (getCtx m (16 + core)).pid
  let m := abortJobs (resetCtx (failHalts m (16 + core)) (16 + core)) pid
  if pid = 0 then startTest m core
  else updPart (testForRestart m core pid) pid fun p => { p with state := .lost, waitRestart := false }

/-- R47, R48: the RESEAT reaction for a core. -/
def reseatReaction (m : Dg) (core : Nat) : Dg :=
  let k := getCore m core
  let loading := (getStudio m (core / 10)).reseat.map (·.new) == some core
  match k.role with
  | .active => namedReseat m core
  | .qm => qmReset m core
  | .shadow => shadowCoreFault m
  | .excluded => m
  | _ =>
    if loading then newcomerFails m (core / 10)
    else if (getStudio m (core / 10)).mode = .q then startTest m core
    else setRole m core .excluded

/-- BLOCK_RESET of a core (Table 09.2). -/
def resetCore (m : Dg) (core : Nat) : Dg :=
  let k := getCore m core
  let m := openShadow m core core none (if k.role = .active then none else some (m.now + shadowUnits 5))
  match k.role with
  | .active => namedReseat m core
  | .qm => reseatReaction m core
  | .shadow => (let m := shadowCoreFault m; if (getCore m core).role = .ready then startTest m core else m)
  | .excluded => m
  | _ =>
    if (getStudio m (core / 10)).reseat.map (·.new) == some core then newcomerFails m (core / 10) else startTest m core

/-- A link reset and retrained: its corrections are forgotten. A router's slice message names no link. -/
def resetLink (m : Dg) (x : FaultMsg) : Dg :=
  let k := x.addr
  if x.kind = kRouterSlice then m
  else { m with fab := { m.fab with links := SMap.upd m.fab.links k fun l => { l with corr := [] } } }

/-- Exesh restarts the partition of a watchdog (Table 09.2). One that finds too few READY spares waits (R44). -/
def restartPartition (m : Dg) (pid : Nat) : Dg :=
  match partRec m pid with
  | some r =>
    match startOnCores (abortUnderPid m pid 5) r true with
    | (m, .err st _) => if st = stBusy then updPart m pid fun p => { p with waitRestart := true } else m
    | (m, _) => m
  | none => m

/-- R64: a core's test that a change of mode or the reset of the self-test engine stops. -/
def cutCoreTest (m : Dg) (core : Nat) : Dg :=
  let (m, t) := drawTriple m
  coreIncomplete (updCore m core fun k => { k with mem := some t }) core

/-- The domains whose test has begun and not ended: the fabric halves follow the Canvas quadrants, one after the other. -/
def underTest (t : ShutTest) : List Nat :=
  t.left.filter fun d =>
    !((d == 48 || d == 49) && t.left.any fun e => 44 ≤ e && e ≤ 47) && !(d == 49 && t.left.contains 48)

def setRec (m : Dg) (d : Nat) (r : TestRes) (t : Triple) : Dg :=
  updBoot m fun b => { b with shutRec := SMap.set b.shutRec d ⟨r, t⟩ }

/-- R446, R447: the test of a domain ends: its entry is written, and an INCOMPLETE result is repeated once. -/
def domainTested (m : Dg) (x : ShutTest) (dom : Nat) (r : TestRes) (t : Triple) : Dg :=
  updBoot (setRec m dom r t) fun b =>
    { b with test := some (if r = .incomplete ∧ !x.repeated.contains dom then { x with repeated := x.repeated ++ [dom] }
                           else { x with left := x.left.filter fun d => d != dom }) }

/-- R450: a start-up BIST of a domain ends: an INCOMPLETE result is repeated once, a second one counts as FAIL. -/
def startBistEnds (m : Dg) (dom : Nat) (again : Bool) (r : TestRes) : Dg :=
  let st : StartBist := match r with
    | .pass => .pass
    | .incomplete => if again then .fail else .due true
    | _ => .fail
  updBoot m fun b => { b with bist := SMap.set b.bist dom st }

/-- The tests of the shutdown test that are in progress become INCOMPLETE. -/
def resetDomainTests (m : Dg) : Dg :=
  match m.boot.test with
  | none => m
  | some t => (underTest t).foldl (fun m d => match m.boot.test with
    | some x => let (m, t) := drawTriple m; domainTested m x d .incomplete t
    | none => m) m

/-- A CORE_BIST_RUN in progress becomes INCOMPLETE. -/
def cutBistRun (m : Dg) (core : Nat) : Dg :=
  let (m, t) := drawTriple m
  let (m, u) := drawTriple m
  bistRunEnds m core .incomplete t u

/-- The self-test engine is reset: every test in progress becomes INCOMPLETE (Table 09.2): of cores and CORE_BIST_RUN, of Canvas banks,
of the domains at a start and in Shutdown-Test. -/
def resetBist (m : Dg) : Dg :=
  let m := ((List.range 40).filter fun c => (getCore m c).role == .testing).foldl cutCoreTest m
  let m := (List.range 40).foldl cutBistRun m
  let m := (List.range 4).foldl (fun m q => match (getQuad m q).testing with
    | some p => let (m, t) := drawTriple m; bankTestIncomplete m q p t
    | none => m) m
  let m := (List.range 60).foldl (fun m d => match SMap.get m.boot.bist d with
    | .due again => startBistEnds m d again .incomplete
    | _ => m) m
  resetDomainTests m

/-- R505, R578: Fixative holds the block of a source. -/
def heldByFix (m : Dg) (src : Nat) : Bool := m.fix.engaged && 0x090 ≤ src && src < 0x0B6

/-- Reset duration of a switch port in µs: T1, T1S or 10GBASE-R (Table 11.11). -/
def portResetUs (p : Nat) : Nat := if p < 8 then 100000 else if p < 10 then 20000 else 10000

/-- R520, Table 10.12: an engine of SEC is reset and runs its known-answer tests, whose results no row gives: they are free
(notes/assumptions/69.md). The public-key engine holds the jobs of Exesh: a report is answered FAILED, a seal fails. -/
def resetEngine (m : Dg) (src : Nat) : Dg :=
  let engines := if src = 0x0D5 then [3, 4, 5] else [src - 0x0D2]
  let m := if src ≠ 0x0D5 then m
    else
      let m := m.sec.attest.foldl (fun m e =>
        if (findCmd m e.1.1 e.1.2).any fun c => c.phase == .running then finishAt m (some e.1) stFailed 0 [] else m) m
      match m.sec.sealing with
      | some b => sealFails m b
      | none => m
  engines.foldl (fun m e =>
    let (m, r) := draw m
    if r % 2 = 0 ∨ bit m.sec.katFail e then m
    else reportOpen (updSec m fun x => { x with katFail := setBits x.katFail e 1 1 }) src kEngineKatFail e) m

/-- R520, Table 10.12: the TRNG is reset and runs its start-up tests, whose result is free (notes/assumptions/69.md). -/
def resetTrng (m : Dg) : Dg :=
  let (m, r) := draw m
  if r % 2 = 0 then endCond (updSec m fun y => { y with trngOk := true }) 0x0D1 kTrngHealth
  else if !m.sec.trngOk then m
  else reportOpen (updSec m fun y => { y with trngOk := false }) 0x0D1 kTrngHealth 0

/-- The BLOCK_RESET reaction to a message (Tables 09.2, 10.12, 11.11). -/
def blockReset (m : Dg) (x : FaultMsg) : Dg :=
  let src := x.src
  if src < 0x028 then resetCore m src
  else if src < 0x064 then
    resetLink (openShadow m src src (some x.addr) (some (m.now + shadowUnits 4))) x
  else if src < 0x0A0 then shadowUs (resetCan m (src - 0x090)) src 200
  else if src < 0x0A8 then shadowUs (resetLin m (src - 0x0A0)) src 1000
  else if src < 0x0B4 then
    let p := src - 0x0A8
    let m := shadowUs m src (portResetUs p)
    if (getEth m p).st = .up then portDown m p else m
  else if src = 0x0B7 then resetPcie (shadowUs m src 150000)
  else if src = 0x0B8 then updNet (shadowUs m src 100) fun n => { n with gnssTx := [] }
  else if src = 0x0C0 then resetCapture (shadowUs m src 10)
  else if src = 0x0C1 then resetPulse (shadowUs m src 10)
  else if src < 0x0C4 then resetAdc (shadowUs m src 50) (src - 0x0C2)
  else if src = 0x0C4 then shadowUs m src 10
  else if src = 0x0D1 then resetTrng (shadowUs m src 2000)
  else if src < 0x0D6 then resetEngine (shadowUs m src 1000) src
  else if src < 0x0DA then
    let n := src - 0x0D7
    let m := shadowUs m src 1000
    if (getCard m n).st = .empty then m
    else cardOut ((m.mbx.sessions.filter fun y => y.card == n).foldl (fun m y => endSession m y.handle false) m) n .present
  else if src < 0x0EF then
    let pid := (SMap.get m.wdg (x.addr % 64)).owner
    restartPartition (openShadow m 0xFFF (tagPid pid) none (some (m.now + shadowUnits 200000))) pid
  else resetBist (shadowUs m src 10)

/-! ### Reactions (Table 09.6) -/

/-- The partition that receives INT and NMI is RUNNING; Labazor-S while its lanes are not reset. -/
def targetRuns (m : Dg) (t : Nat) : Bool := if t = 0 then !exeshDown m else (getPart m t).state == .running

/-- R512: a reaction directed at a context: its flag, and the last message. -/
def fcrEvt (m : Dg) (pid flag lo hi : Nat) : Dg :=
  updFcr m fun f => { f with my := SMap.upd f.my pid fun y => { evt := y.evt.set flag, last0 := lo, last1 := hi } }

/-- INT: the interrupt source IRQ of TARGET's context. -/
def reactInt (m : Dg) (p : Policy) (x : FaultMsg) : Dg :=
  raisePid (fcrEvt m p.target 0 (x.word % 2 ^ 64) (x.word / 2 ^ 64)) p.target p.irq

/-- NMI in TARGET's context. -/
def reactNmi (m : Dg) (p : Policy) (x : FaultMsg) : Dg :=
  let m := fcrEvt m p.target 1 (x.word % 2 ^ 64) (x.word / 2 ^ 64)
  match ctxOfPid m p.target with
  | some c => updCtx m c fun y => { y with nmi := true }
  | none => m

/-- SAFE_STATE and CHIP_RESET: Fixative engages once; a CHIP_RESET resets the chip 20 µs after (R470). -/
def reactSafe (m : Dg) (x : FaultMsg) (chip : Bool) : Dg :=
  if m.fix.engaged then endReleaseWait m
  else
    let m := engage (abandonGlaze m) x.src x.kind chip
    if chip then updFcr m fun f => { f with chipReset := some true } else m

/-- Which reactions of a set take effect, as bits of Table 09.6 (R470). After the supply-loss signal the blocks that RESEAT and
BLOCK_RESET act on have no supply (Table 10.10). -/
def effective (m : Dg) (p : Policy) (src set : Nat) : Nat :=
  let chip := bit set 4 || m.pwr.loss
  let run := targetRuns m p.target
  pack [(1, b2n (bit set 0 && run)), (1, b2n (bit set 1 && run)),
        (1, b2n (bit set 2 && !chip && resettable src && !heldByFix m src)),
        (1, b2n (bit set 3 && !chip && !(bit set 2 && src < 0x028) && src < 0x028)),
        (1, b2n (bit set 4)), (1, b2n (bit set 5)), (1, b2n (bit set 6))]

/-- R470: the reactions of a set in their order PIN, INT, NMI, RESEAT, BLOCK_RESET, SAFE_STATE, CHIP_RESET. -/
def applySet (m : Dg) (p : Policy) (x : FaultMsg) (eff : Nat) : Dg :=
  let m := if bit eff 5 then updFcr m fun f => { f with uncleared := SMap.set f.uncleared (256 * x.src + x.kind) (some true) }
           else m
  let m := if bit eff 0 then reactInt m p x else m
  let m := if bit eff 1 then reactNmi m p x else m
  let m := if bit eff 3 then reseatReaction m x.src else m
  let m := if bit eff 2 then blockReset m x else m
  if bit eff 4 ∨ bit eff 6 then reactSafe m x (bit eff 4) else m

/-- A set holds a counted reaction (R472). -/
def counted (set : Nat) : Bool := bit set 1 || bit set 2 || bit set 3

/-- Counted reactions of the preceding 1 ms. -/
def recentCounted (m : Dg) : List Nat := m.fcr.counted.filter fun t => m.now < t + 62500

/-! ### Acceptance -/

/-- A message that FCR logs of itself, or of a source that could not send it (R457, R472): it takes the source's next
sequence number. -/
def directMsg (m : Dg) (src kind detail addr subject : Nat) : Dg × FaultMsg :=
  let s := wrapInc 16 (SMap.get m.srcs src).seq
  ({ m with srcs := SMap.upd m.srcs src fun f => { f with seq := s } },
   { src := src, kind := kind, sev := sevOf kind, detail := detail, addr := addr, time := m.now % 2 ^ 32, seq := s,
     subject := subject, injected := false, ended := false })

/-- R464, R468: the classification state, the uncleared set and the entry of a message outside every shadow. -/
def logClassified (m : Dg) (x : FaultMsg) (c : SrcClass) (eff : Nat) (ovr esc : Bool) : Dg :=
  let key := 256 * x.src + x.kind
  updFcr m fun f =>
    let e := { LogEntry.of x false c m.now with reactions := eff, override := ovr, escalated := esc }
    { f.push e with
      cls := SMap.set f.cls x.src c,
      uncleared := SMap.upd f.uncleared key fun o => some (o.getD false) }

/-- A message that its source's policy has selected a set for, or none: it is logged with the set's reactions, which are applied
(R470); a counted one of a storm takes none of them and escalates by `storm` (R472). -/
def react (m : Dg) (x : FaultMsg) (c : SrcClass) (sel : Option Nat × Bool) (storm : Dg → Dg) : Dg :=
  match sel with
  | (none, ovr) => logClassified m x c 0 ovr false
  | (some set, ovr) =>
    if counted set && 8 ≤ (recentCounted m).length then storm (logClassified m x c 0 ovr true)
    else
      let p := policyOf m x.src
      let eff := effective m p x.src set
      let m := logClassified m x c eff ovr false
      let m := if counted set then updFcr m fun f => { f with counted := recentCounted m ++ [m.now] } else m
      applySet m p x eff

/-- A fault of FCR itself (R472, R475, R476, R477): its policy's reactions, and whatever they are the chip-level safe state. -/
def fcrOwnFault (m : Dg) (kind : Nat) : Dg :=
  let (m, x) := directMsg m 0x0EF kind (openDetail m 0x0EF kind) 0 0x0EF
  let p := policyOf m 0x0EF
  let (c, became) := classify p (SMap.get m.fcr.cls 0x0EF) m.now x.sev
  let sel := selectSet p kind x.sev c.severe became
  let m := if m.fcr.chipSafe then logClassified m x c 0 sel.2 false else react m x c sel id
  enterChipSafe m 0x0EF kind

/-- R472: a reaction storm: ESCALATION under 0x0EF and the chip-level safe state. -/
def escalate (m : Dg) : Dg := fcrOwnFault m kEscalation

/-- R461 to R472: FCR logs a message, classifies it and applies the reactions of its source's policy. A fault of a second
watchdog set takes no reaction (R488). -/
def accept (m : Dg) (x : FaultMsg) : Dg :=
  if inShadow m x then updFcr m fun f => f.push (LogEntry.of x true (SMap.get f.cls x.src) m.now)
  else
    let p := policyOf m x.src
    let (c, became) := classify p (SMap.get m.fcr.cls x.src) m.now x.sev
    let sel := selectSet p x.kind x.sev c.severe became
    let second := 0x0E1 ≤ x.src && x.src < 0x0EF && kWdgTimeout ≤ x.kind && x.kind ≤ kTsmUnknown && bit x.detail 9
    if m.fcr.chipSafe || second then logClassified m x c 0 sel.2 false
    else react m x c sel escalate

end Sys2Proof.Machine
end

