-- ==== Sys2Proof/Machine/Update.lean ====
section
/-! DEFINITION. Underpainting, glaze and revert (spec/08 R432 to R443), and the mirror engine (spec/05 R286). -/
namespace Sys2Proof.Machine

/-- MIRROR_COPY, R286, R287: the oldest message that a queue still has to copy; a dropped copy ends the underpainting
(cause 4). -/
def execMirrorCopy (q : Nat) (s : State) : Host.Outcome State Fault Refusal :=
  run s fun m =>
    let (m, dropped) := mirrorCopy1 m q
    if dropped then abortUnder m 4 else m

/-! ### Set-up -/

/-- The queues of a partition, mailbox queues included, each with whether the partition is its producer. -/
def shadowQueues (m : Dg) (pid : Nat) : List (Nat × Bool) :=
  m.fab.q.filterMap fun e =>
    if !e.2.valid then none
    else if e.2.prod0 == pid then some (e.1, true)
    else if e.2.cons0 == pid then some (e.1, false)
    else none

/-- The POOL record: base, size, first queue ID, queue IDs, digest entries. -/
structure PoolInfo where
  base : Nat
  size : Nat
  qid : Nat
  qids : Nat
  digests : Nat

def poolOf (m : Dg) : Option PoolInfo :=
  (recs m 0x0004).head?.map fun r => ⟨r.f 0 8, r.f 8 8, r.f 16 4, r.f 20 4, r.f 24 1⟩

/-- Where the rings of a run begin: behind the shadow windows that lie in the pool (notes/assumptions/27.md). -/
def poolFree (m : Dg) (p : PoolInfo) : Nat :=
  (((recs m 0x0003).filter fun r => bit (r.f 1 1) 4).map windowOf).foldl
    (fun a w => if p.base ≤ w.base && w.base < p.base + p.size then max a (w.base + w.size) else a) p.base

/-- What an allocation has used: next address, next queue ID, next digest entry, the queues so far with their rings. -/
structure Alloc where
  addr : Nat
  qid : Nat
  dig : Nat
  out : List (UnderQ × Nat)

/-- The next queue of the run: its ring aligned to its slot size, its queue ID, two digest entries for an output. -/
def allocQ (m : Dg) (a : Alloc) (e : Nat × Bool) : Alloc :=
  let x := getQ m e.1
  let addr := (a.addr + x.slotSize - 1) / x.slotSize * x.slotSize
  let u : UnderQ := ⟨e.1, a.qid, e.2, if e.2 then a.dig else 0, if e.2 then a.dig + 1 else 0,
    x.prod1, x.cons1, x.flipgrp, x.digest, x.digidx⟩
  ⟨addr + x.ringSize, a.qid + 1, if e.2 then a.dig + 2 else a.dig, a.out ++ [(u, addr)]⟩

/-- The whole allocation of a run. -/
def allocRun (m : Dg) (p : PoolInfo) (pid : Nat) : Alloc :=
  (shadowQueues m pid).foldl (allocQ m) ⟨poolFree m p, p.qid, 256 - p.digests, []⟩

/-- It lies within the pool (R432), its queue IDs are those of no queue (R256), and its rings overlap no other ring and no access
window (R259). -/
def Alloc.fits (m : Dg) (a : Alloc) (p : PoolInfo) : Bool :=
  a.addr ≤ p.base + p.size && a.qid ≤ p.qid + p.qids && a.dig ≤ 256 &&
  !(a.out.any fun e => (getQ m e.1.link).valid || ringOverlap m { getQ m e.1.q with base := e.2 / 64 })

/-- The mirror target or twin of a queue: class, slot size and depth of its source (Table 08.7 step 2). -/
def linkQueue (x : Queue) (u : UnderQ) (pid addr : Nat) : Queue :=
  { (default : Queue) with
    valid := true, cls := x.cls, slotLog := x.slotLog, depthLog := x.depthLog, check := x.check, base := addr / 64,
    prod0 := if u.output then pid else 0x7F, prod1 := if u.output then pid else 0x7F,
    cons0 := if u.output then 0x7F else pid, cons1 := if u.output then 0x7F else pid,
    digest := u.output, digidx := u.digTwin, twin := u.output,
    budget := x.budget, budgetWin := x.budgetWin, credits := x.budget }

/-- Table 08.7 steps 2 and 3 for one queue. -/
def linkUp (pid : Nat) (m : Dg) (e : UnderQ × Nat) : Dg :=
  let u := e.1
  let x := getQ m u.q
  let m := setQ m u.link (filled m (linkQueue x u pid e.2))
  let m := updQ m u.q fun x =>
    { x with prod1 := x.prod0, cons1 := x.cons0, flipgrp := flipOf pid, link := u.link, mirror := [],
             linkmode := if u.output then 2 else 1, digest := u.output, digidx := u.dig }
  if u.output then
    let mask := SMap.get m.fab.qmask u.q
    [u.dig, u.digTwin].foldl (fun m i => updDigest m i fun _ => digestStart { (default : Digest) with mask := mask }) m
  else m

/-- The two cores of the pair, lane A from the studio and lane C from its partner (R433). -/
def seatPair (m : Dg) (slot pid a c : Nat) (det : Bool) : Dg :=
  let m := updGrp m slot fun g =>
    { g with laneA := some a, laneB := none, laneC := some c, pair := true, shadow := true, pid := pid, det := det }
  let m := updCore m a fun x => { x with role := .shadow, slot := slot, lane := 0 }
  updCore m c fun x => { x with role := .shadow, slot := slot, lane := 2 }

/-- R432: admission of the class-0 queues with the mirror targets and twins that the run has set up. -/
def admitsRun (m : Dg) : Bool := q0Fits (q0List m)

/-- R432: the live slot of a triad partition that an underpainting may shadow with a bank. -/
def shadowSlot (m : Dg) (pid bank : Nat) : Option Nat :=
  match partRec m pid with
  | none => none
  | some r =>
    let slot := recCtx r
    if r.f 1 1 = 0 ∧ (getStudio m (slot / 4)).mode = .t ∧ (getPart m pid).state = .running ∧ bank < 2
        ∧ imgHeld m (bank + 2) ∧ bankOfPid m pid ≠ bank then some slot else none

/-- Table 08.7 steps 2 and 3. -/
def setUpRun (m : Dg) (c : Cmd) (slot a k : Nat) (al : Alloc) : Dg :=
  let pid := c.f 0 1
  let m := seatPair m (slot / 4 * 4 + 3) pid a k (getGrp m slot).det
  let m := al.out.foldl (linkUp pid) m
  updUnder m fun _ =>
    { (default : Under) with
      st := .settingUp, pid := pid, bank := c.f 1 1, auto := c.f 2 1 == 1, probation := c.f 4 4, slot := slot,
      warm := match partRec m pid with
        | some r => r.f 16 4
        | none => 0,
      setAt := m.now, qs := al.out.map (·.1), startCmd := some (c.pair, c.tag) }

/-- SHADOW_START's checks and set-up, R432 to R434, Table 08.7 steps 1 to 3. -/
def shadowStartBody (m : Dg) (c : Cmd) : Dg × Reply :=
  let pid := c.f 0 1
  let bank := c.f 1 1
  if c.payload.length ≠ 8 then (m, badLen)
  else if (partRec m pid).isNone then (m, badField 0)
  else if 2 ≤ bank then (m, badField 1)
  else if 2 ≤ c.f 2 1 then (m, badField 2)
  else if c.f 3 1 ≠ 0 then (m, badField 3)
  else if c.f 4 4 = 0 ∨ 1000000 < c.f 4 4 then (m, badField 4)
  else match shadowSlot m pid bank, poolOf m with
    | some slot, some p =>
      let s := slot / 4
      if (windowRecs m pid true).isEmpty then (m, .err stInvalid 0xFFFF)
      else match olderPass m (readySpares m s), olderPass m (readySpares m (partner s)) with
        | some a, some k =>
          let al := allocRun m p pid
          let m' := setUpRun m c slot a k al
          if !admitsRun m' then (m, .err stDenied 5)
          else if underBusy m then (m, .err stBusy 3)
          else if !al.fits m p then conflict m c
          else match loadPartition m' pid bank true with
            | (m', true) => (m', .wait)
            | (x, false) => ({ m with srcs := x.srcs, errs := x.errs }, .err stFailed 5)
        | _, _ => (m, .err stBusy (if underBusy m then 3 else 5))
    | _, _ => (m, .err stInvalid 0xFFFF)

/-- SHADOW_START, R432. -/
def execShadowStart (pair tag : Nat) (s : State) : Host.Outcome State Fault Refusal :=
  run s fun m => carryOut m pair tag 0x0042 shadowStartBody

/-- STATE of SHADOW_STATUS (Table 07.13). -/
def underCode : UnderSt → Nat
  | .idle => 0
  | .settingUp => 1
  | .running => 2
  | .passed => 3
  | .revertWindow => 4
  | .aborted => 5
  | .mismatch => 6

/-- SHADOW_STATUS, R437, Table 07.13. -/
def execShadowStatus (pair tag : Nat) (s : State) : Host.Outcome State Fault Refusal :=
  run s fun m => carryOut m pair tag 0x0043 fun m c =>
    let u := m.boot.under
    if c.payload.length ≠ 0 then (m, badLen)
    else (m, .ok (leBytes 20 (pack [(8, underCode u.st), (8, u.pid), (8, u.cause), (8, 0), (32, u.compared),
      (32, u.probation), (32, u.misQid), (32, u.misPeriod)])))

/-- SHADOW_ABORT, R438, cause 3. -/
def execShadowAbort (pair tag : Nat) (s : State) : Host.Outcome State Fault Refusal :=
  run s fun m => carryOut m pair tag 0x0044 fun m c =>
    if c.payload.length ≠ 0 then (m, badLen)
    else if underLive m then (abortUnder m 3, .ok [])
    else (m, .err stInvalid 0xFFFF)

/-- The queue belongs to a run in progress (R393). -/
def underQueue (m : Dg) (q : Nat) : Bool := underBusy m && m.boot.under.qs.any fun u => u.q == q || u.link == q

/-- DIGEST_MASK_SET, R393, R289. -/
def execDigestMaskSet (pair tag : Nat) (s : State) : Host.Outcome State Fault Refusal :=
  run s fun m => carryOut m pair tag 0x0045 fun m c =>
    let q := c.f 0 4
    if c.payload.length ≠ 40 then (m, badLen)
    else if 0x40000 ≤ q ∨ !(getQ m q).valid then (m, badField 0)
    else if c.f 4 4 ≠ 0 then (m, badField 4)
    else if underQueue m q then (m, .err stBusy 3)
    else ({ m with fab := { m.fab with qmask := SMap.set m.fab.qmask q (c.f 8 32) } }, .ok [])

/-! ### The run -/

/-- SHADOW_PAIR_START, R433, Table 08.7 step 4: at the first boundary at least 10 µs after the set-up the pair starts at its
entry point beside the live triad. -/
def execShadowPairStart (s : State) : Host.Outcome State Fault Refusal :=
  run s fun m =>
    let u := m.boot.under
    match u.st, partRec m u.pid with
    | .settingUp, some r =>
      let f := underFlip m
      if !({ f with pending := some u.setAt } : FlipGrp).due m.now then m
      else
      let slot := pairSlot m
      let m := updGrp m slot fun g => { g with state := .full, under := .full }
      let m := updCtx m slot fun x => { startCtx m u.pid true u.bank r x with irqPend := [] }
      let m := u.qs.foldl (fun m e =>
        if e.output then
          [e.dig, e.digTwin].foldl (fun m i => updDigest m i digestStart)
            (updQ m e.link fun y => { y with seq := (getQ m e.q).seq })
        else m) m
      let m := updWdgs m u.pid fun w => { w with second := some (WdgRun.fresh m.now) }
      finishAt (updUnder m fun u => { u with st := .running, startCmd := none, seen := f.boundaries m.now }) u.startCmd stOk 0 []
    | _, _ => m

/-- The queue whose latched pair differs, if any (R436). -/
def unequalPair (m : Dg) : Option UnderQ :=
  m.boot.under.qs.find? fun u =>
    let a := SMap.get m.fab.digest u.dig
    let b := SMap.get m.fab.digest u.digTwin
    u.output && !(a.latAcc == b.latAcc && a.latCount == b.latCount)

/-- Exesh glazes: the flip is commanded (R437, R440). -/
def beginGlaze (m : Dg) (cmd : Option (Nat × Nat)) : Dg :=
  commandFlip (updUnder m fun u => { u with glazing := true, glazeCmd := cmd }) m.boot.under.pid

/-- SHADOW_PERIOD_COMPARE, R436, R437: once for each boundary whose digests have been latched. -/
def execShadowPeriodCompare (s : State) : Host.Outcome State Fault Refusal :=
  run s fun m =>
    let u := m.boot.under
    if (u.st ≠ .running ∧ u.st ≠ .passed) ∨ exeshDown m ∨ (underFlip m).taken ≤ u.seen then m
    else
      let m := updUnder m fun u => { u with period := u.period + 1, seen := (underFlip m).taken }
      if 0 < u.warm then updUnder m fun u => { u with warm := u.warm - 1 }
      else match unequalPair m with
        | some e => endUnder (updUnder m fun u => { u with misQid := e.q, misPeriod := u.period }) .mismatch 0
        | none =>
          let m := updUnder m fun u => { u with compared := satInc 32 u.compared }
          if u.st = .running ∧ u.probation ≤ u.compared + 1 then
            let m := updUnder m fun u => { u with st := .passed }
            if u.auto then beginGlaze m none else m
          else m

/-! ### Glaze and revert -/

/-- GLAZE, R437, R440. -/
def execGlaze (pair tag : Nat) (s : State) : Host.Outcome State Fault Refusal :=
  run s fun m => carryOut m pair tag 0x0046 fun m c =>
    if c.payload.length ≠ 1 then (m, badLen)
    else if m.boot.under.st ≠ .passed ∨ m.boot.under.pid ≠ c.f 0 1 then (m, .err stInvalid 0xFFFF)
    else if m.boot.under.glazing then (m, .err stBusy 2)
    else (beginGlaze m (some (pair, tag)), .wait)

/-- The contexts of two slots exchange places; what an interrupt controller holds stays with the live slot. -/
def swapCtx (m : Dg) (live other : CtxId) : Dg :=
  let x := getCtx m live
  let y := getCtx m other
  setCtx (setCtx m live { y with irqPend := x.irqPend, nmi := x.nmi, irqCfg := x.irqCfg }) other
    { x with irqPend := [], nmi := false }

/-- The two watchdog sets of a partition exchange places; the one that leaves is held (R488), the other one too while an Easel
halt stops the slot (R76). -/
def swapWdgs (m : Dg) (pid : Nat) : Dg :=
  let stop := (getGrp m m.boot.under.slot).halt
  updWdgs m pid fun w => match w.second with
    | some r => { w with run := if stop then r.hold m.now else r.go m.now, second := some (w.run.hold m.now) }
    | none => w

/-- The windows of a partition and its shadow windows exchange roles (R441). -/
def swapWindows (m : Dg) (pid : Nat) : Dg :=
  { m with boot := { m.boot with winSwap := SMap.upd m.boot.winSwap pid not } }

/-- A core keeps its condition and takes a seat. -/
def reseatCore (m : Dg) (slot lane : Nat) (role : Role) (c : Option Nat) : Dg :=
  match c with
  | some c => updCore m c fun x => { x with role := role, slot := slot, lane := lane }
  | none => m

/-- Table 08.9 steps 1 and 2: the groups exchange slots; the old lanes A and C are frozen in slot 4 × s + 3. That the slot then
shows DEGRADED, and that its DEGRADED flag is not set, is the model's choice (notes/assumptions/105.md). -/
def exchangeGroups (m : Dg) (slot other : Nat) : Dg :=
  let old := getGrp m slot
  let new := getGrp m other
  let m := drainAll (updCtx m slot fun x => { x with load := x.load.map fun l => { l with wait := [] } }) slot
  let m := swapCtx m slot other
  let m := updGrp m slot fun g =>
    { g with laneA := new.laneA, laneB := none, laneC := new.laneC, state := .full, under := .full, pair := false,
             shadow := false, held := [] }
  let m := updGrp m other fun g =>
    { g with laneA := old.laneA, laneB := none, laneC := old.laneC, state := .degraded, under := .degraded, pair := false,
             shadow := true }
  let m := reseatCore (reseatCore m slot 0 .active new.laneA) slot 2 .active new.laneC
  reseatCore (reseatCore m other 0 .shadow old.laneA) other 2 .shadow old.laneC

/-- GLAZE_SWITCH, R440, R441, Table 08.9 steps 1 and 2: at B0 the live triad freezes and the groups flip. -/
def execGlazeSwitch (s : State) : Host.Outcome State Fault Refusal :=
  run s fun m =>
    let u := m.boot.under
    if u.st ≠ .passed ∨ !u.glazing ∨ !flipDue m u.pid then m
    else
      let oldB := (getGrp m u.slot).laneB
      let m := flipNow m u.pid
      let m := exchangeGroups m u.slot (pairSlot m)
      let m := swapWdgs (swapWindows m u.pid) u.pid
      let m := match oldB with
        | some b => freeCore m b
        | none => m
      let m := updUnder m fun u => { u with st := .revertWindow, glazing := false, glazeCmd := none,
                                            laneB := oldB.getD 0x3F, released := false, keepC := false, closing := false,
                                            seen := (underFlip m).taken }
      let m := requestReseat m ⟨u.slot, 1, none, 0, 2, false, 0, none, oldB⟩ false
      finishAt m u.glazeCmd stOk 0 []

/-- The revert point's cores that are left become READY spares of the studio; the one with the lower number. -/
def freeOldCores (m : Dg) : Dg × Option Nat :=
  let g := getGrp m (pairSlot m)
  let l := ([g.laneA, g.laneC].filterMap id).filter fun c => (getCore m c).role != .excluded
  (updGrp (l.foldl freeCore m) (pairSlot m) fun g => { g with laneA := none, laneC := none },
   l.foldl (fun b c => match b with
     | none => some c
     | some d => some (min c d)) none)

/-- R440 step 4, R339, R431, Table 08.2: what the commit of a glaze makes lasting. -/
def commitBank (m : Dg) : Dg :=
  let u := m.boot.under
  let m := { m with boot := { m.boot with bind := SMap.set m.boot.bind u.pid (u.bank + 1), alt := SMap.set m.boot.alt u.pid false } }
  let m := measExtend m 6 ([BitVec.ofNat 8 u.pid, BitVec.ofNat 8 u.bank] ++ imgDigest m (u.bank + 2))
  let m := updUnder m fun u => { u with released := true }
  raiseAppSvn m u.bank

/-- GLAZE_COMMIT, R440, R443, Table 08.9 steps 4 and 5: at B1, the boundary after the switch, the glaze commits. Lane C is replaced by an old core that is left, but after a minority in
the new triad (Table 08.11). A REVERT that
came less than 10 µs before it is refused (R442). -/
def execGlazeCommit (s : State) : Host.Outcome State Fault Refusal :=
  run s fun m =>
    let u := m.boot.under
    let late := u.revertCmd.isSome && !flipDue m u.pid && (getGrp m u.slot).state != .lost
    if u.st ≠ .revertWindow ∨ u.closing ∨ exeshDown m ∨ (u.revertAt.isSome ∧ !late) ∨ (underFlip m).boundaries m.now ≤ u.seen then m
    else
      let m := finishAt m u.revertCmd stInvalid 0xFFFF []
      let m := updUnder m fun u => { u with revertAt := none, revertCmd := none }
      let m := dropLinks (commitBank m)
      let (m, low) := freeOldCores m
      let m := idleCtx m (pairSlot m)
      let st := (getGrp m u.slot).state
      if u.keepC ∨ st = .degraded ∨ st = .lost ∨ low.isNone then
        updStudio (closeWindow m) (u.slot / 4) fun x => { x with returnFirst := some u.slot }
      else
        requestReseat (updUnder m fun u => { u with closing := true })
          ⟨u.slot, 2, (getGrp m u.slot).laneC, 0, 2, false, 0, none, low⟩ false

/-- REVERT, R393, R442. -/
def execRevert (pair tag : Nat) (s : State) : Host.Outcome State Fault Refusal :=
  run s fun m => carryOut m pair tag 0x0047 fun m c =>
    let u := m.boot.under
    if c.payload.length ≠ 1 then (m, badLen)
    else if u.st ≠ .revertWindow ∨ u.pid ≠ c.f 0 1 ∨ u.released ∨ u.closing ∨ u.revertAt.isSome
        ∨ u.seen < (underFlip m).boundaries m.now then
      (m, .err stInvalid 0xFFFF)
    else
      (commandFlip (updUnder m fun u => { u with revertAt := some m.now, revertCmd := some (pair, tag) }) u.pid, .wait)

/-- The new triad is stopped: its cores become READY spares, a re-seat of it is dropped. -/
def stopNewTriad (m : Dg) (slot : Nat) : Dg :=
  let s := slot / 4
  let st := getStudio m s
  let mine := (st.reseat.map (·.slot)) == some slot
  let m := updStudio m s fun x => { x with reseat := if mine then none else x.reseat,
                                           waiting := x.waiting.filter fun r => r.slot != slot }
  (getGrp m slot).cores.foldl (fun m c => if (getCore m c).role = .active then setRole m c .ready else m) m

/-- REVERT_EXECUTE, R442, R443, Table 08.10: at B1 the groups flip back and the old triad resumes degraded. -/
def execRevertExecute (s : State) : Host.Outcome State Fault Refusal :=
  run s fun m =>
    let u := m.boot.under
    if u.st ≠ .revertWindow ∨ u.revertAt.isNone ∨ u.released ∨ u.closing ∨ !flipDue m u.pid then m
    else
      let other := pairSlot m
      let old := getGrp m other
      let m := stopNewTriad (flipNow m u.pid) u.slot
      let m := swapCtx m u.slot other
      let m := updGrp m u.slot fun g =>
        { g with laneA := old.laneA, laneB := none, laneC := old.laneC, pair := false, shadow := false, pid := u.pid, held := [],
                 det := old.det, missing := if u.laneB < 40 then some u.laneB else none }
      let m := reseatCore (reseatCore m u.slot 0 .active old.laneA) u.slot 2 .active old.laneC
      let m := degrade m u.slot
      let m := updPart m u.pid fun p => { p with state := .running, waitRestart := false }
      let m := swapWdgs (swapWindows m u.pid) u.pid
      let m := closeWindow (if exeshDown m then m else dropLinks m)
      nextReseat (finishAt m u.revertCmd stOk 0 []) (u.slot / 4)

end Sys2Proof.Machine
end

