-- ==== Sys2Proof/Machine/WdgOps.lean ====
section
/-! DEFINITION. The partition watchdogs and their task-sequence monitors (spec/09 R483 to R493). -/
namespace Sys2Proof.Machine

def getWdg (m : Dg) (n : Nat) : Wdg := SMap.get m.wdg n
def updWdg (m : Dg) (n : Nat) (f : Wdg → Wdg) : Dg := { m with wdg := SMap.upd m.wdg n f }

/-- Ticks that a set has counted: 16 ns are 32/5 cycles of CLK_MAIN. -/
def WdgRun.count (w : Wdg) (now : Nat) (r : WdgRun) : Nat :=
  let t := r.base + (match r.since with
    | some s => now - s
    | none => 0)
  t * 32 / 5 / (w.prescM1 + 1)

/-- The window of a set (R483). -/
def WdgRun.opens (w : Wdg) (r : WdgRun) : Nat := if r.first then 0 else w.openT
def WdgRun.closes (w : Wdg) (r : WdgRun) : Nat := if r.first then w.firstClose else w.closeT

/-- R485: the next key. -/
def nextKey (k : Nat) : Nat := if k % 2 = 1 then (k / 2) ^^^ 0xB400 else k / 2

/-- The set that a watchdog's first or second accesses use. -/
def Wdg.get (w : Wdg) (second : Bool) : WdgRun := if second then w.second.getD w.run else w.run
def Wdg.put (w : Wdg) (second : Bool) (r : WdgRun) : Wdg :=
  if second then { w with second := w.second.map fun _ => r } else { w with run := r }

/-- R489: a message of a watchdog. Of one whose services are suppressed, every message but TSM_UNKNOWN results from that: its frames
end at timeouts alone (R514). -/
def wdgReport (m : Dg) (n : Nat) (second : Bool) (kind cp : Nat) : Dg :=
  let w := getWdg m n
  reportI m (w.suppressed && kind != kTsmUnknown) w.source kind (cp + 512 * b2n second) n (tagPid w.owner)

/-- R493: a flag of WDG_Wn_EVT is set. The second set has no flags (notes/assumptions/32.md). -/
def wdgEvt (m : Dg) (n flag : Nat) (second : Bool) : Dg :=
  if second then m
  else
    let old := (getWdg m n).evt.flags
    let m := updWdg m n fun w => { w with evt := w.evt.set flag }
    if bit old flag then m else raiseOrigin m 6 n

/-- A message with its flag. -/
def wdgFault (m : Dg) (n : Nat) (second : Bool) (kind cp flag : Nat) : Dg :=
  wdgEvt (wdgReport m n second kind cp) n flag second

/-- R488: a fault of the second set is a fault of the shadow pair (abort cause 2). -/
def shadowFault (m : Dg) (second : Bool) : Dg := if second then abortUnder m 2 else m

/-- R491: the end of a frame: TSM_MISSING for each checkpoint of the set that is not marked, in ascending order. -/
def endFrame (m : Dg) (n : Nat) (second : Bool) : Dg :=
  let w := getWdg m n
  let seen := (w.get second).seen
  ((List.range 32).filter fun c => w.cpmask.getLsbD c && !seen.getLsbD c).foldl
    (fun m c => wdgFault m n second kTsmMissing c 3) m

/-- A frame of a set leaves checkpoints unmarked. -/
def missing (w : Wdg) (second : Bool) : Bool := w.cpmask &&& ~~~ (w.get second).seen != 0

/-- COUNT restarts at 0 in a later window (R483, R491). -/
def WdgRun.restart (now key : Nat) (r : WdgRun) : WdgRun :=
  { base := 0, since := r.since.map fun _ => now, first := false, pos := 0, nextKey := key, seen := 0 }

/-- COUNT reaches CLOSE (R484). -/
def wdgExpire (m : Dg) (n : Nat) (second : Bool) : Dg :=
  let m := endFrame (wdgFault m n second kWdgTimeout 0 0) n second
  let m := updWdg m n fun w => w.put second ((w.get second).restart m.now (w.get second).nextKey)
  shadowFault m second

/-- R484: a service of a set with a key. -/
def wdgService (m : Dg) (n : Nat) (second : Bool) (key : Nat) : Dg :=
  let w := getWdg m n
  let r := w.get second
  let cnt := r.count w m.now
  let late := r.closes w ≤ cnt
  if w.suppressed then m
  else if key ≠ r.nextKey then
    let m := wdgFault m n second kWdgBadKey 0 2
    if late then wdgExpire m n second else shadowFault m second
  else if late then wdgExpire m n second
  else if cnt < r.opens w then shadowFault (wdgFault m n second kWdgEarly 0 1) second
  else
    let bad := missing w second
    let m := updWdg (endFrame m n second) n fun w => w.put second (r.restart m.now (nextKey r.nextKey))
    if bad then shadowFault m second else m

/-- R490: what a check-in finds: the kind of the message, if any, and whether the checkpoint is marked. -/
def checkinFault (w : Wdg) (r : WdgRun) (now c : Nat) : Option Nat × Bool :=
  if !w.cpmask.getLsbD c then (some kTsmUnknown, false)
  else if r.seen.getLsbD c then (some kTsmDuplicate, false)
  else if w.seqMode ∧ w.order[r.pos]? ≠ some c then (some kTsmOrder, true)
  else match SMap.get w.late c with
    | some t => (if t ≤ r.count w now then some kTsmLate else none, true)
    | none => (none, true)

/-- R490: a check-in of a checkpoint. -/
def wdgCheckin (m : Dg) (n : Nat) (second : Bool) (c : Nat) : Dg :=
  let w := getWdg m n
  let r := w.get second
  let (fault, mark) := checkinFault w r m.now c
  let m := if mark then updWdg m n fun w => w.put second
      { r with seen := r.seen ||| BitVec.ofNat 32 (2 ^ c),
               pos := if w.seqMode then (w.order.findIdx fun x => x == c) + 1 else r.pos }
    else m
  match fault with
  | some k => shadowFault (wdgFault m n second k c 3) second
  | none => m

/-- The watchdog counts: it is configured and its owner is RUNNING (R483). -/
def wdgRuns (m : Dg) (n : Nat) : Bool :=
  n < 64 && (getWdg m n).configured && (getPart m (getWdg m n).owner).state == .running

/-- The accesses of a context go to the second set (R488). -/
def usesSecond (m : Dg) (c : CtxId) (n : Nat) : Bool := isShadowCtx m c && (getWdg m n).second.isSome

end Sys2Proof.Machine
end

