-- ==== Sys2Proof/Machine/Safe.lean ====
section
/-! DEFINITION. The fault commands, FCR's events, the watchdogs' expiry, Fixative's events and fault injection (spec/07
Table 07.14; spec/09). -/
namespace Sys2Proof.Machine

/-! ### Fault commands (Table 07.14) -/

/-- Entries that a read from START can return. -/
def logAvail (f : Fcr) (start : Nat) : Nat :=
  if f.logHeld < 1024 then f.logNext - start
  else if start = f.logNext then 1024 else (f.logNext + 1024 - start) % 1024

/-- FAULT_LOG_READ, R462, R463: entries from START in the order of the ring, up to the newest. -/
def execFaultLogRead (pair tag : Nat) (s : State) : Host.Outcome State Fault Refusal :=
  run s fun m => carryOut m pair tag 0x0050 fun m c =>
    let start := c.f 0 2
    let count := c.f 2 2
    if c.payload.length ≠ 4 then (m, badLen)
    else if 1023 < start then (m, badField 0)
    else if count = 0 ∨ 169 < count then (m, badField 2)
    else
      let n := min count (logAvail m.fcr start)
      let idx := (List.range n).map fun i => (start + i) % 1024
      let body := idx.flatMap fun i =>
        let e := SMap.get m.fcr.log i
        leBytes 16 e.msg.word ++ leBytes 8 e.status
      let m := updFcr m fun f => { f with log := idx.foldl (fun t i =>
        SMap.upd t i fun e => { e with readLive := e.readLive || e.live }) f.log }
      (m, .ok (leBytes 8 (pack [(16, m.fcr.logNext), (16, n), (32, 0)]) ++ body))

/-- R464: one kind of a source cleared, unless an entry of it is LIVE; the number of entries cleared. -/
def clearKind (f : Fcr) (src kind : Nat) : Fcr × Nat :=
  let mine (e : LogEntry) : Bool := e.msg.src == src && e.msg.kind == kind
  if f.log.any fun e => mine e.2 && e.2.live then (f, 0)
  else
    ({ f with uncleared := SMap.set f.uncleared (256 * src + kind) none,
              log := f.log.map fun e => if mine e.2 then (e.1, { e.2 with cleared := true }) else e },
     (f.log.filter fun e => mine e.2 && !e.2.cleared).length)

/-- R464 for KIND 0xFF: every kind; with none left uncleared the source leaves the severe state. -/
def clearAllKinds (f : Fcr) (src : Nat) : Fcr × Nat :=
  let (f, n) := (List.range 256).foldl
    (fun (st : Fcr × Nat) k => let (g, i) := clearKind st.1 src k; (g, st.2 + i)) (f, 0)
  if (f.uncleared.any fun e => e.1 / 256 == src && e.2.isSome) then (f, n)
  else ({ f with cls := SMap.upd f.cls src fun c => { c with severe := false, count := 0 } }, n)

/-- FAULT_CLEAR, R464. -/
def execFaultClear (pair tag : Nat) (s : State) : Host.Outcome State Fault Refusal :=
  run s fun m => carryOut m pair tag 0x0051 fun m c =>
    let src := c.f 0 2
    let kind := c.f 2 1
    if c.payload.length ≠ 3 then (m, badLen)
    else if 0x10F < src then (m, badField 0)
    else
      let (f, n) := if kind = 0xFF then clearAllKinds m.fcr src else clearKind m.fcr src kind
      ({ m with fcr := f }, .ok (leBytes 2 n))

/-- FAULT_POLICY_GET, R465. -/
def execFaultPolicyGet (pair tag : Nat) (s : State) : Host.Outcome State Fault Refusal :=
  run s fun m => carryOut m pair tag 0x0052 fun m c =>
    if c.payload.length ≠ 2 then (m, badLen)
    else if 0x10F < c.f 0 2 then (m, badField 0)
    else (m, .ok (policyOf m (c.f 0 2)).bytes)

/-- FAULT_POLICY_SET, R466, R468: the policy takes effect, the count restarts and the source is no longer severe. -/
def execFaultPolicySet (pair tag : Nat) (s : State) : Host.Outcome State Fault Refusal :=
  run s fun m => carryOut m pair tag 0x0053 fun m c =>
    let src := c.f 0 2
    if c.payload.length ≠ 20 then (m, badLen)
    else if 0x10F < src then (m, badField 0)
    else if c.f 2 2 ≠ 0 then (m, badField 2)
    else match policyFault src (c.payload.drop 4) with
      | some off => (m, .err stInvalid off)
      | none =>
        (updFcr m fun f => { f with policy := SMap.set f.policy src (some (Policy.ofBytes (c.payload.drop 4))),
                                    cls := SMap.set f.cls src default }, .ok [])

/-- FAULT_STATUS. -/
def execFaultStatus (pair tag : Nat) (s : State) : Host.Outcome State Fault Refusal :=
  run s fun m => carryOut m pair tag 0x0054 fun m c =>
    if !c.payload.isEmpty then (m, badLen)
    else
      let src := (List.range 0x110).map fun n => (unclearedList m).any fun e => e.1 == n
      (m, .ok (leBytes 8 (pack [(8, maxSev m), (8, b2n (errN m)), (8, b2n (safeN m)), (8, 0), (32, m.fcr.overwritten)]) ++
        leBytes 36 (ofBitList src)))

/-- The partitions that own a channel or a frame of Fixative. -/
def fixOwners (m : Dg) : List Nat :=
  ((m.fix.ch.filter fun e => e.2.configured).map fun e => e.2.owner) ++
  ((m.fix.fr.filter fun e => e.2.configured).map fun e => e.2.owner)

/-- R507: what holds a release up at the claim. -/
def releaseHeld (m : Dg) : Bool :=
  (m.fcr.cls.any fun e => e.2.severe) || (unclearedKind m m.fix.causeSrc m.fix.causeKind).isSome ||
  ((fixOwners m).any fun pid => (getPart m pid).state != .running) || m.fcr.chipReset.isSome

/-- SAFESTATE_RELEASE, R507. -/
def execSafestateRelease (pair tag : Nat) (s : State) : Host.Outcome State Fault Refusal :=
  run s fun m => carryOut m pair tag 0x0055 fun m c =>
    if !c.payload.isEmpty then (m, badLen)
    else if !m.fix.engaged then (m, .ok [])
    else if releaseHeld m then (m, .err stBusy 2)
    else (updFix m fun x => { x with releasing := true }, .wait)

/-! ### FCR's events -/

/-- FAULT_MESSAGE_ACCEPT, R458, R461 to R473: FCR accepts the oldest message of a source. -/
def execFaultMessageAccept (src : Nat) (s : State) : Host.Outcome State Fault Refusal :=
  run s fun m =>
    let f := SMap.get m.srcs src
    match f.fifo with
    | [] => m
    | x :: rest =>
      if fcrDark m then m
      else accept { m with srcs := SMap.set m.srcs src { f with fifo := rest, fails := 0 } } x

/-- FAULT_OVERFLOW, R456: the source tells how many messages it has dropped. -/
def execFaultOverflow (src : Nat) (s : State) : Host.Outcome State Fault Refusal :=
  run s fun m =>
    let f := SMap.get m.srcs src
    if f.dropped = 0 ∨ 8 ≤ f.fifo.length then m
    else reportOwn { m with srcs := SMap.set m.srcs src { f with dropped := 0 } } src kFaultOverflow f.dropped 0

/-- FAULTNET_RESEND, R457: a send of the oldest message failed its check; after four the message is lost. -/
def execFaultnetResend (src : Nat) (s : State) : Host.Outcome State Fault Refusal :=
  run s fun m =>
    let f := SMap.get m.srcs src
    match f.fifo with
    | [] => m
    | _ :: rest =>
      if fcrDark m then m
      else if f.fails + 1 < 4 then { m with srcs := SMap.set m.srcs src { f with fails := f.fails + 1 } }
      else
        let m := { m with srcs := SMap.set m.srcs src { f with fifo := rest, fails := 0 } }
        let (m, x) := directMsg m src kFaultnetError (openDetail m src kFaultnetError) 0 src
        accept m x

/-- A shadow has ended: its time has passed, or its core has been excluded without a test. -/
def shadowOver (m : Dg) (s : Shadow) : Bool :=
  match s.ends with
  | some t => t ≤ m.now
  | none => s.src < 0x028 && (getCore m s.src).role == .excluded

/-- RESET_SHADOW_END, R471. -/
def execResetShadowEnd (tag : Nat) (s : State) : Host.Outcome State Fault Refusal :=
  run s fun m => updFcr m fun f => { f with shadows := f.shadows.filter fun x => !(x.tag == tag && shadowOver m x) }

/-- CHIP_RESET_EXECUTE, R461, R469, R473, R505: 20 µs after the engagement for a CHIP_RESET reaction, at RAMPS_DONE for the
chip-level safe state. -/
def execChipResetExecute (s : State) : Host.Outcome State Fault Refusal :=
  run s fun m =>
    match m.fcr.chipReset with
    | none => m
    | some true => if m.fix.engageTime + 1250 ≤ m.now ∧ !unpowered m then chipReset m else m
    | some false => if m.fix.rampsDone ∧ !unpowered m then chipReset m else m

/-- FCR_SLICE, R474. -/
def execFcrSlice (slice : Nat) (s : State) : Host.Outcome State Fault Refusal :=
  run s fun m => if slice < 3 && !fcrDark m then reportOpen m 0x0EF kFcrSlice slice else m

/-- FCR_SELF, R475. -/
def execFcrSelf (s : State) : Host.Outcome State Fault Refusal :=
  run s fun m => if fcrDark m then m else fcrOwnFault m kFcrSelf

/-- CLK_MAIN_CHECK, R476: CLK_MAIN absent, or more than 2 % from 400 MHz. -/
def execClkMainCheck (khz : Nat) (s : State) : Host.Outcome State Fault Refusal :=
  run s fun m =>
    if fcrDark m ∨ m.fcr.clkLost ∨ (392000 ≤ khz ∧ khz ≤ 408000) then m
    else
      let m := { m with wdg := m.wdg.map fun e => (e.1, { e.2 with run := e.2.run.hold m.now,
                                                                   second := e.2.second.map (·.hold m.now) }) }
      fcrOwnFault { updFcr m (fun f => { f with clkLost := true }) with supWdg := { m.supWdg with stop := some m.now } } kClkMainLoss

/-- WDG_TIMEOUT, R483, R484, R491. -/
def execWdgTimeout (n : Nat) (second : Bool) (s : State) : Host.Outcome State Fault Refusal :=
  run s fun m =>
    let w := getWdg m n
    if !wdgRuns m n || (second && w.second.isNone) then m
    else if (w.get second).closes w ≤ (w.get second).count w m.now then wdgExpire m n second
    else m

/-! ### Fixative -/

/-- The profiles at tick `k`: every channel drives its value (R498). -/
def driveProfiles (m : Dg) (k : Nat) : Dg :=
  let m := updFix m fun x => { x with
    ch := x.ch.map fun e => if e.2.configured then (e.1, { e.2 with out := e.2.valueAt k }) else e,
    rampsDone := x.rampsDone || x.ch.all fun e => !e.2.configured || e.2.atSafe k }
  (fixChans m).foldl driveChannel m

/-- FIXATIVE_TICK, R498, R502, R503: the profiles advance, then the frames of the tick are built. -/
def execFixativeTick (s : State) : Host.Outcome State Fault Refusal :=
  run s fun m =>
    if !m.fix.engaged then m
    else
      let k := m.fix.tick
      let m := driveProfiles m k
      let m := (SMap.keysWhere m.fix.fr fun f => f.dueAt k).foldl queueFrame m
      updFix m fun x => { x with tick := k + 1 }

/-- What becomes of an arming entry (R500). -/
inductive ArmEnd where
  | take (m : Dg)
  | invalid
  | conflict

/-- DETAIL of an arming refusal: channel, or frame with bit 8. -/
def armDetail (e : List Byte) : Nat := if leAt e 0 1 = 2 then 256 + leAt e 1 1 else leAt e 2 2 % 256

/-- The value fits the channel (Tables 09.11, 09.12). -/
def armValueOk (ch : Nat) (e : List Byte) : Bool :=
  leAt e 1 1 == 0 && leAt e 6 2 == 0 && (!(96 ≤ ch && ch < 144) || leAt e 4 2 < 4)

/-- Bytes of a frame that its inserted fields take (R501). -/
def FixFr.inserted (f : FixFr) : List Nat :=
  let val (v : Option FixVal) : List Nat := match v with
    | some x => if x.wide then [x.off, x.off + 1] else [x.off]
    | none => []
  val f.val0 ++ val f.val1 ++ (match f.crc with
    | some c => if c.crc16 then [c.off, c.off + 1] else [c.off]
    | none => [])

/-- One entry of an arming message (Table 09.12, R500). -/
def armEntry (m : Dg) (pid : Nat) (e : List Byte) : ArmEnd :=
  match leAt e 0 1 with
  | 1 =>
    let ch := leAt e 2 2
    if 208 ≤ ch ∨ !(getFixCh m ch).configured then .invalid
    else if (getFixCh m ch).owner ≠ pid then .conflict
    else if !armValueOk ch e then .invalid
    else .take (updFixCh m ch fun c => { c with armed := leAt e 4 2, armTime := m.now, hasArmed := true, never := false })
  | 2 =>
    let fr := leAt e 1 1
    let f := SMap.get m.fix.fr fr
    let off := leAt e 2 1
    let len := leAt e 3 1
    if !f.configured then .invalid
    else if f.owner ≠ pid then .conflict
    else if len = 0 ∨ 4 < len ∨ 127 < off ∨ f.len < off + len ∨ leAt e (4 + len) (4 - len) ≠ 0 ∨
        f.inserted.any (fun i => off ≤ i && i < off + len) then .invalid
    else .take (updFixFr m fr fun x => { x with template := overlay (fit x.len x.template) off ((e.drop 4).take len) })
  | _ => .invalid

/-- An entry applied, or refused and reported. -/
def armOne (q pid : Nat) (m : Dg) (e : List Byte) : Dg :=
  match armEntry m pid e with
  | .take m => m
  | .invalid => report m 0x0CF kSsqArmInvalid (armDetail e) q (tagPid pid)
  | .conflict => report m 0x0CF kResourceConflict (armDetail e) q (tagPid pid)

/-- R499: the message is refused whole. -/
def armWhole (msg : List Byte) : Bool := msg.length != 32 + 8 * leAt msg 16 2 || (msg.drop 18).take 14 != List.replicate 14 0

/-- R499, R500: the oldest message of an arming queue, if a row serves it, is applied, refused or released. -/
def armTake (m : Dg) (q : Nat) (mine : Nat → Bool) : Dg :=
  match hwPeek m 0x70 q with
  | none => m
  | some (msg, code) =>
    let void := code != 0
    if !(void && mine 1 || !void && mine (leAt msg 32 1)) then m
    else
      let (m, _) := hwTake m 0x70 q
      if void ∨ m.fix.engaged then m
      else if armWhole msg then report m 0x0CF kSsqArmInvalid 0x3FF q (tagPid (producerOf m q))
      else
        ((List.range (leAt msg 16 2)).map fun i => (msg.drop (32 + 8 * i)).take 8).foldl (armOne q (producerOf m q)) m

/-- ARM_CHANNEL_VALUE, R499, R500: a message whose first entry is not of TYPE 2; void messages are released here too. -/
def execArmChannelValue (q : Nat) (s : State) : Host.Outcome State Fault Refusal :=
  run s fun m => armTake m q fun t => t != 2

/-- ARM_TEMPLATE_BYTES, R499 to R501: a message whose first entry is of TYPE 2. -/
def execArmTemplateBytes (q : Nat) (s : State) : Host.Outcome State Fault Refusal :=
  run s fun m => armTake m q fun t => t == 2

/-- SSQ_SLICE, R510. -/
def execSsqSlice (slice : Nat) (s : State) : Host.Outcome State Fault Refusal :=
  run s fun m => if slice < 3 && !fcrDark m then reportOpen m 0x0CF kSsqSlice slice else m

/-- SSQ_SELF, R510, R477: an uncorrectable item; while engaged the channel drives S at once, the frame stops. -/
def execSsqSelf (frame : Bool) (n : Nat) (s : State) : Host.Outcome State Fault Refusal :=
  run s fun m =>
    if (if frame then 256 ≤ n else 208 ≤ n) || fcrDark m then m
    else
      let m := reportOpen m 0x0CF kSsqSelf (n + 256 * b2n frame)
      if !m.fix.engaged then m
      else if frame then dropOffers (updFixFr m n fun f => { f with stopped := true, queued := none }) fun k => k == n
      else if (getFixCh m n).configured then driveChannel (updFixCh m n fun c => { c with forced := true, out := c.safe }) n
      else m

/-- SSQ_OSC, R495: compared while Fixative is not engaged. -/
def execSsqOsc (s : State) : Host.Outcome State Fault Refusal :=
  run s fun m =>
    if m.fix.engaged ∨ m.fix.oscBad ∨ fcrDark m then m
    else reportOpen (updFix m fun x => { x with oscBad := true }) 0x0CF kSsqOsc 0

/-! ### Fault injection (R513, R514) -/

/-- R513: the injection registers respond. -/
def injects (m : Dg) : Bool :=
  m.part.factory && m.ftest.low && m.mbx.sessions.any fun x => x.role == 1 && x.auth && x.pair == 31

/-- The messages that a change adds to the FIFOs are injected ones. -/
def markInjected (before after : Dg) : Dg :=
  { after with srcs := after.srcs.map fun e =>
      let n := (SMap.get before.srcs e.1).fifo.length
      (e.1, { e.2 with fifo := e.2.fifo.take n ++ (e.2.fifo.drop n).map fun x => { x with injected := true } }) }

/-- INJECT_MESSAGE, R514. -/
def execInjectMessage (src kind detail addr subject : Nat) (s : State) : Host.Outcome State Fault Refusal :=
  run s fun m => if injects m then reportI m true src kind detail addr subject else m

/-- INJECT_DIGEST_CORRUPTION, R514: the commit digest of one lane is wrong for one cycle; the voter finds it. -/
def execInjectDigestCorruption (g lane : Nat) (s : State) : Host.Outcome State Fault Refusal :=
  run s fun m =>
    if !injects m || !compares m g || !(lanesCompared m g).contains lane then m
    else if (lanesCompared m g).length < 3 then markInjected m (groupLost m g)
    else markInjected m (minorityFound m g lane)

/-- INJECT_BIT_INVERSION, R514: one or two stored bits of a copy of a Canvas or DRAM word. -/
def execInjectBitInversion (addr copy bit1 bit2 : Nat) (s : State) : Host.Outcome State Fault Refusal :=
  run s fun m =>
    let wa := wordOf addr
    let reg := regionOf m true addr
    let ok := reg == .canvas && copy == 0 ||
      reg == .dram && (copy == 0 || copy < 3 && bit m.drc.tmrFirst (dramSeg addr))
    let flip : BitVec 144 := BitVec.ofNat 144 (2 ^ bit1) ||| BitVec.ofNat 144 (2 ^ bit2)
    if !injects m || !ok || 144 ≤ bit1 || 144 ≤ bit2 then m
    else
      let e := getErr m wa copy ^^^ flip
      let m := setErr m wa copy e
      if e = 0 then m
      else { m with ftest := { m.ftest with words := SMap.set m.ftest.words (errKey wa copy) true } }

/-- INJECT_FLIT_CORRUPTION, R514: one flit of a link with so many wires wrong: one is corrected, more are sent again. -/
def execInjectFlitCorruption (l : Link) (wires : Nat) (s : State) : Host.Outcome State Fault Refusal :=
  run s fun m =>
    if !injects m || !linkExists l || (SMap.get m.fab.links (lkey l)).failed || wires == 0 then m
    else if wires = 1 then markInjected m (linkReport m l kFlitCorrected)
    else markInjected m (linkReport m l kLinkRetry)

/-- INJECT_CLOCK_STOP, R514: the core makes no more digests; its lane disagrees. -/
def execInjectClockStop (core : Nat) (s : State) : Host.Outcome State Fault Refusal :=
  run s fun m =>
    if !injects m || 40 ≤ core then m
    else
      let m := updCore m core fun k => { k with clockStopped := true }
      let k := getCore m core
      if (k.role = .active ∨ k.role = .shadow) ∧ compares m k.slot ∧ (lanesCompared m k.slot).contains k.lane then
        if (lanesCompared m k.slot).length < 3 then markInjected m (groupLost m k.slot)
        else markInjected m (minorityFound m k.slot k.lane)
      else m

/-- INJECT_SERVICE_SUPPRESS, R514. -/
def execInjectServiceSuppress (n : Nat) (s : State) : Host.Outcome State Fault Refusal :=
  run s fun m => if injects m && n < 64 && (getWdg m n).configured then updWdg m n fun w => { w with suppressed := true } else m

end Sys2Proof.Machine
end

