-- ==== Sys2Proof/Machine/Power.lean ====
section
/-! DEFINITION. Power modes, supply, domains, clocks and temperature (spec/12), the shutdown test (spec/08 R445 to R448),
the end of conditions (spec/09 R463), and the self-test and power commands of Table 07.16. -/
namespace Sys2Proof.Machine

def updPwr (m : Dg) (f : Pwr → Pwr) : Dg := { m with pwr := f m.pwr }
def updDom (m : Dg) (d : Nat) (f : Domain → Domain) : Dg := updPwr m fun p => { p with dom := SMap.upd p.dom d f }

/-! ### The change away from Drive (Table 12.4) -/

/-- Every partition is stopped, and every group and QM core runs nothing. -/
def stopAll (m : Dg) : Dg :=
  let m := (recs m 0x0002).foldl (fun m r => abortJobs m (r.f 0 1)) m
  { m with stu := { m.stu with part := m.stu.part.map fun e => (e.1, { e.2 with state := .stopped, waitRestart := false }) } }

/-- R588: a requested change away from Drive begins unless it waits: an underpainting ends (cause 6), the partitions stop,
the journal is sealed (R532). -/
def leaveDrive (m : Dg) : Dg :=
  if leaveWaits m then m else sealTrigger (stopAll (abortUnder m 6)) 0

/-- A mode is requested. -/
def requestMode (m : Dg) (off : Bool) : Dg := leaveDrive (updPwr m fun p => { p with request := some off })

/-- POWER_MODE_REQUEST, R589. It is answered when the module leaves Shutdown-Test; during the test at once. -/
def execPowerModeRequest (pair tag : Nat) (s : State) : Host.Outcome State Fault Refusal :=
  run s fun m => carryOut m pair tag 0x0081 fun m c =>
    let mode := c.f 0 1
    if c.payload.length ≠ 1 then (m, badLen)
    else if mode = 0 ∨ 3 < mode then (m, badField 0)
    else if m.net.ign ≠ 0 then (m, .err stDenied 3)
    else if m.pwr.mode = .shutdownTest then
      if mode = 2 then (m, .err stInvalid 0xFFFF) else (updPwr m fun p => { p with thenOff := mode == 3 }, .ok [])
    else (requestMode m (mode == 3), .wait)

/-- KEY_OFF_DELAY_EXPIRY, R588, R415. -/
def execKeyOffDelayExpiry (s : State) : Host.Outcome State Fault Refusal :=
  run s fun m =>
    match m.pwr.keyOff with
    | none => m
    | some t =>
      if m.pwr.mode ≠ .drive ∨ unpowered m ∨ m.boot.due.isSome ∨ m.now < t + modField m 24 4 10 * second then m
      else requestMode (updPwr m fun p => { p with keyOff := none }) false

/-- SAFE_RELEASE_EXECUTE, R507, R509: at a tick after RAMPS_DONE the safe state is released, for the command that waits or
for a change of mode, which then goes on. -/
def execSafeReleaseExecute (s : State) : Host.Outcome State Fault Refusal :=
  run s fun m =>
    if !m.fix.engaged ∨ !m.fix.rampsDone ∨ !(m.fix.releasing || m.pwr.request.isSome || m.pwr.mode == .shutdownTest) then m
    else
      let m := match releaseCmd m with
        | some c => finish (releaseSafe m) c stOk 0 []
        | none => releaseSafe m
      if m.pwr.request.isSome then leaveDrive m else m

/-! ### The shutdown test -/

/-- The journal has no unsealed record. -/
def journalSealed (m : Dg) : Bool := m.sec.sealing.isNone && lastSealed m + 1 == ctrValue m 3

/-- R321: a bank test that the change of mode cuts short is INCOMPLETE. Which physical banks of a quadrant have been tested stays
recorded (R323); what a start reads of it is the quadrant's own result (R449, R451). -/
def cutBankTests (m : Dg) : Dg :=
  (List.range 4).foldl (fun m q => match (getQuad m q).testing with
    | some p => let (m, t) := drawTriple m; bankTestIncomplete m q p t
    | none => m) m

/-- The tests of banks and cores that the end of a mode cuts short (R64, R321). -/
def cutTests (m : Dg) : Dg :=
  ((List.range 40).filter fun c => (getCore m c).role == .testing).foldl cutCoreTest (cutBankTests m)

/-- The shutdown test begins: a rotation test under way is stopped by the change of mode and ends INCOMPLETE (R64), domains 0
to 59 are tested, and a new record begins (R445, R447). -/
def beginTest (m : Dg) (off : Bool) : Dg :=
  let m := cutTests m
  let m := updPwr m fun p => { p with mode := .shutdownTest, request := none, thenOff := off, keyOff := none }
  let m := updBoot m fun b =>
    { b with test := some ⟨List.range 60, []⟩, shutRec := (b.shutRec.filter fun e => e.1 == 60), shutStatus := .complete }
  (List.range 60).foldl (fun m d => updDom m d fun x => { x with on := x.on || !x.failed })
    ((List.range 4).foldl (fun m q => updQuad m q fun x => { x with shutAll := true, shutDone := [] }) m)

/-- SHUTDOWN_TEST_START, R445: once the partitions have stopped and the journal is sealed. A change that waited for the end
of a revert window begins here. -/
def execShutdownTestStart (s : State) : Host.Outcome State Fault Refusal :=
  run s fun m =>
    match m.pwr.request with
    | none => m
    | some off =>
      if leaveWaits m ∨ m.pwr.mode ≠ .drive ∨ unpowered m then m
      else
        let m := leaveDrive m
        if journalSealed m then beginTest m off else m

/-- DOMAIN_TEST_COMPLETE, R445 to R447, R57: the entry is written; an INCOMPLETE result is repeated once; an EXCLUDED core
that passes returns to service. RESULT and LAST_PASS of its STU_COREc word keep the last test of R62 or R57: the model's choice
(notes/assumptions/105.md). -/
def execDomainTestComplete (dom : Nat) (t : Triple) (s : State) : Host.Outcome State Fault Refusal :=
  run s fun m =>
    match m.boot.test with
    | none => m
    | some x =>
      if !(underTest x).contains dom then m
      else
        let r := bistResult (SMap.get m.bistExp (3 + dom)) t
        let m := domainTested m x dom r t
        if dom < 40 ∧ r = .pass ∧ (getCore m dom).role = .excluded then setRole m dom .ready else m

/-- The record is closed early: each domain under test is INCOMPLETE with its partial triple, one not yet started has no entry (R448). -/
def cutTest (m : Dg) (st : RecStatus) : Dg :=
  match m.boot.test with
  | none => m
  | some x =>
    let m := (underTest x).foldl (fun m d => let (m, t) := drawTriple m; setRec m d .incomplete t) m
    updBoot m fun b => { b with test := none, shutStatus := st }

/-- SHUTDOWN_TEST_KEY_ON, R448: the test is abandoned and a start follows. -/
def execShutdownTestKeyOn (s : State) : Host.Outcome State Fault Refusal :=
  run s fun m =>
    if m.pwr.mode ≠ .shutdownTest ∨ unpowered m ∨ m.net.ign = 0 then m
    else startOver (cutTests (cutTest m .abortedIgn))

/-! ### Park-Listen, Off, supply loss -/

/-- A Canvas bank keeps its contents while the module is parked: every bank that is selected for retention (R326). -/
def retains (m : Dg) (park : Bool) (k : Nat) : Bool := park && (SMap.get m.cnv.bank k).retSel

/-- The banks when the supply of the quadrants goes: selected banks are retained, every other is OFF (R326). RET_LOST of the wake
before is no longer shown, one that has still to be reported stands (R328). -/
def banksDown (m : Dg) (park : Bool) : Dg :=
  let keep (a : Nat) : Bool := a < canvasBase || (canvasBase + 0x4000000 ≤ a && a < dramBase) || 0x10000000000 ≤ a ||
    (a < canvasBase + 0x4000000 && retains m park (bankOf a))
  let bank := m.cnv.bank.map fun e =>
    (e.1, { e.2 with power := if retains m park e.1 then .retain else .off, keeps := false, woken := false, retLost := e.2.lostDue })
  let quad := m.cnv.quad.map fun e => (e.1, { e.2 with shutAll := false, testing := none, freePower := .off,
                                                       phase := if e.2.phase = 3 then 3 else 0, migBank := 0x3F, migLine := 0 })
  { m with mem := m.mem.filter fun e => keep e.1, errs := m.errs.filter fun e => keep (e.1 / 4 * 16),
           cnv := { m.cnv with bank := bank, quad := quad }, drc := { m.drc with up := false } }

/-- The switched domains lose their supply; what the always-on domain keeps is FCR's log and uncleared sets, ERR_N and the
RTC (R481, R591). -/
def powerDown (m : Dg) (park : Bool) : Dg :=
  let low := errN m
  let m := banksDown m park
  let m := endKinds m (startEnds false)
  { m with
    ctx := Dg.reset.ctx
    stu := { (default : Stu) with core := excludedOnly m.stu.core }
    mbx := { (default : Mbx) with keys := m.mbx.keys, pass := m.mbx.pass, bank := m.mbx.bank, ver := m.mbx.ver,
                                  fails := m.mbx.fails, lockUntil := m.mbx.lockUntil }
    easel := { (default : Easel) with ir := m.easel.ir, bsr := m.easel.bsr }
    boot := { m.boot with due := none, test := none, under := default, audit := [] }
    fab := Dg.reset.fab, dma := [], wdg := [], net := m.net.afterReset false,
    fix := { (default : Fix) with oscBad := m.fix.oscBad }
    fcr := { m.fcr.afterReset with parkErr := low }
    pwr := { m.pwr with mode := if park then .park else .off, ext3v3 := false, lock := 0, failover := 0, request := none,
                        thenOff := false, parkAt := m.now, dom := m.pwr.dom.map fun e => (e.1, { e.2 with on := false, held := false }) } }

/-- SHUTDOWN_TEST_END, R588, R326, R481, R591: the record is COMPLETE, and the module enters Park-Listen, or Off when that
was requested. It waits while Fixative is engaged, whose domains are not switched off (R7, R509). -/
def execShutdownTestEnd (s : State) : Host.Outcome State Fault Refusal :=
  run s fun m =>
    match m.boot.test with
    | none => m
    | some x =>
      if x.left ≠ [] ∨ m.pwr.mode ≠ .shutdownTest ∨ unpowered m ∨ m.fix.engaged then m
      else
        let m := (m.mbx.out.filter fun c => c.op == 0x0081 && c.phase == .running).foldl (fun m c => finish m c stOk 0 []) m
        powerDown (updBoot (cutTests m) fun b => { b with shutStatus := .complete }) (!m.pwr.thenOff)

/-- PARK_TIME_EXPIRY, R588: the retained banks are released and the module is Off. -/
def execParkTimeExpiry (s : State) : Host.Outcome State Fault Refusal :=
  run s fun m =>
    if m.pwr.mode ≠ .park ∨ m.pwr.loss ∨ m.now < m.pwr.parkAt + modField m 28 4 43200 * 60 * second then m
    else updPwr (banksDown m false) fun p => { p with mode := .off }

/-- R326: on the return to Drive the banks wake; the start follows. -/
def wake (m : Dg) : Dg := [0, 1, 2, 3].foldl wakeNext (startOver m)

/-- PARK_WAKE, R590. The period of the alarm runs from the entry into Park-Listen (notes/assumptions/115.md). -/
def execParkWake (w : Wake) (s : State) : Host.Outcome State Fault Refusal :=
  run s fun m =>
    let armed : Bool := match w with
      | .can n => n < 16 && bit (modField m 36 2 0) n
      | .alarm => modField m 32 4 0 != 0 && m.pwr.parkAt + modField m 32 4 0 * 60 * second ≤ m.now
    if m.pwr.mode ≠ .park ∨ m.pwr.loss ∨ !armed then m else wake m

/-- IGNITION_CHANGE, R572, R588, R590: a filtered input changes. With both inactive in Drive the key-off delay runs; an
active one wakes the module from Park-Listen and Off. -/
def execIgnitionChange (pin : Nat) (level : Bool) (s : State) : Host.Outcome State Fault Refusal :=
  run s fun m =>
    if 2 ≤ pin ∨ bit m.net.ign pin = level then m
    else
      let m := updNet m fun x => { x with ign := setBits x.ign pin 1 (b2n level) }
      if level then
        if (m.pwr.mode = .park ∨ m.pwr.mode = .off) ∧ !m.pwr.loss then wake m
        else updPwr m fun p => { p with keyOff := none }
      else if m.net.ign = 0 ∧ m.pwr.mode = .drive then updPwr m fun p => { p with keyOff := some m.now }
      else m

/-! ### Supply (Table 12.1) -/

def setInput (m : Dg) (i : Nat) (f : Input → Input) : Dg :=
  updPwr m fun p => if i = 0 then { p with inA := f p.inA } else { p with inB := f p.inB }
def getInput (m : Dg) (i : Nat) : Input := if i = 0 then m.pwr.inA else m.pwr.inB

/-- The higher of the inputs that are not switched out. -/
def higherInput (m : Dg) : Nat :=
  if m.pwr.inA.opened then 1 else if m.pwr.inB.opened then 0 else if m.pwr.inA.mv < m.pwr.inB.mv then 1 else 0

/-- SUPPLY_LOW, R580: the higher input lies from 6 V to 7 V. -/
def execSupplyLow (mv : Nat) (s : State) : Host.Outcome State Fault Refusal :=
  run s fun m =>
    if mv < 6000 ∨ 7000 ≤ mv ∨ m.pwr.supplyLow ∨ m.pwr.loss then m
    else
      let m := setInput m (higherInput m) fun x => { x with mv := mv }
      reportOpen (updPwr m fun p => { p with supplyLow := true }) 0x0F6 kSupplyLow 0

/-- SUPPLY_HIGH, R580: an input lies above 60 V; above 65 V its switch opens. -/
def execSupplyHigh (input mv : Nat) (s : State) : Host.Outcome State Fault Refusal :=
  run s fun m =>
    if 2 ≤ input ∨ mv ≤ 60000 then m
    else
      let live := 60000 < (getInput m input).mv
      let m := setInput m input fun x => { ok := x.ok && mv ≤ 65000, mv := mv, opened := x.opened || 65000 < mv }
      if live then m else reportOpen m 0x0F6 kSupplyHigh input

/-- INPUT_LOST, R582: an input falls below 6 V while the other stays in range. -/
def execInputLost (input mv : Nat) (s : State) : Host.Outcome State Fault Refusal :=
  run s fun m =>
    if 2 ≤ input ∨ 6000 ≤ mv ∨ !(getInput m input).ok ∨ !(getInput m (1 - input)).ok then m
    else reportOpen (setInput m input fun x => { x with ok := false, mv := mv }) 0x0F6 kInputLost input

/-- INPUT_RESTORED, R580, R582: an input is in range again; its conditions end and its switch closes. -/
def execInputRestored (input mv : Nat) (s : State) : Host.Outcome State Fault Refusal :=
  run s fun m =>
    if 2 ≤ input ∨ mv < 7000 ∨ 60000 < mv then m
    else
      let m := setInput m input fun _ => ⟨true, mv, false⟩
      let m := endCondIf m 0x0F6 kSupplyHigh fun f => f.addr == input
      let m := endCondIf m 0x0F6 kInputLost fun f => f.addr == input
      if m.pwr.supplyLow then endCond (updPwr m fun p => { p with supplyLow := false }) 0x0F6 kSupplyLow else m

/-- R418: a supply loss during a start is recorded for the step under way. -/
def lossPent (m : Dg) : Dg :=
  match m.boot.due with
  | none => m
  | some st => updBoot m fun b =>
      { b with pent := (⟨st, SMap.get b.attempts st, 0x0C, 0xFFFFFFFF, utcS m, ctrValue m 4 % 2 ^ 32, 0⟩ :: b.pent).take 1024 }

/-- SUPPLY_LOSS, R580, R533, Table 10.10: the supply-loss signal. SEC runs from VRES, writes SUPPLY_LOSS and closes the
batch; everything else but the code store and the always-on domain loses its supply: FCR, with ERR_N, and Fixative, with SAFE_N, run on. -/
def execSupplyLoss (s : State) : Host.Outcome State Fault Refusal :=
  run s fun m =>
    if m.pwr.loss then m
    else
      let m := ctrSettle (ctrSettle m 3) 4
      let m := reportOpen (lossPent m) 0x0F6 kSupplyLoss 0
      let m := cutBankTests (if m.boot.test.isSome then cutTest m .abortedSupply else m)
      let m := secAbort (abortAllJobs m)
      let m := match m.sec.exporting with
        | some e => finishAt m (some e.cmd) stAborted 0 []
        | none => m
      let m := updSec m fun x => { x with exporting := none, sealCmds := [], sealNext := x.sealNext.map fun f => f ||| 2, attest := [] }
      let m := sealTrigger (if m.sec.keysReady then journalPut m 0xF2 0 0 0 [] else m) 2
      let hold := !unpowered m
      let fcr := m.fcr
      let fix := m.fix
      let m := updSec (powerDown m false) fun x => { x with lossNext := ctrValue m 3, journalReady := false, pps := false, ppsCount := 0, ppsAt := none }
      let m := if hold then { m with fcr := fcr, fix := fix } else m
      updPwr m fun p => { p with loss := true, holdup := hold, request := none }

/-- HOLDUP_END, R584, R480, R537: VRES is spent: the always-on domain loses its supply, a seal under way is lost. -/
def execHoldupEnd (s : State) : Host.Outcome State Fault Refusal :=
  run s fun m =>
    if !m.pwr.loss then m
    else
      let sec := m.sec.afterReset
      let m := { m with sec := { sec with rtcValid := false }, srcs := [], fcr := { (default : Fcr) with pinSev := 2 }, fix := default }
      updPwr m fun p => { p with aonLost := true, holdup := false, supplyLow := false, holdupLow := false }

/-- SUPPLY_RETURN, R583: after the sequence of Table 10.10 has ended and the supply has returned, the start follows; the networks have
lost their supply, so Fixative holds nothing of them (notes/assumptions/123.md). -/
def execSupplyReturn (s : State) : Host.Outcome State Fault Refusal :=
  run s fun m =>
    if !m.pwr.loss ∨ m.sec.sealing.isSome then m else chipReset { m with fix := { (default : Fix) with oscBad := m.fix.oscBad } }

/-- HOLDUP_LOW, R586: more than 1 s after S00. -/
def execHoldupLow (s : State) : Host.Outcome State Fault Refusal :=
  run s fun m =>
    if unpowered m ∨ m.pwr.holdupLow ∨ m.now < m.boot.t0 + second then m
    else reportOpen (updPwr m fun p => { p with holdupLow := true }) 0x0F9 kHoldupLow 0

/-! ### Domains (R593, R594) -/

/-- DOMAIN_RELEASE, R593: the rails of a switched-on domain regulate. -/
def execDomainRelease (dom : Nat) (s : State) : Host.Outcome State Fault Refusal :=
  run s fun m => if (SMap.get m.pwr.dom dom).held then updDom m dom fun x => { x with held := false } else m

/-- R594: a core whose domain is off: EXCLUDED, and re-seated as for a fault. -/
def coreDead (m : Dg) (core : Nat) : Dg :=
  let k := getCore m core
  match k.role with
  | .active =>
    let lanes := lanesCompared m k.slot
    if lanes.length < 3 ∨ !lanes.contains k.lane then setRole (groupLost m k.slot) core .excluded
    else fence m k.slot k.lane core false
  | .qm =>
    let pid := (getCtx m (16 + core)).pid
    let m := abortJobs (quench (failHalts m (16 + core)) (16 + core)) pid
    updPart (setRole m core .excluded) pid fun p => { p with state := .lost, waitRestart := false }
  | .shadow => setRole (shadowCoreFault m) core .excluded
  | _ =>
    if (getStudio m (core / 10)).reseat.map (·.new) = some core then newcomerFails m (core / 10) else setRole m core .excluded

/-- The Canvas banks of a quadrant go OFF; a migration and a bank test in it end (R329). -/
def quadDead (m : Dg) (q : Nat) : Dg :=
  let m := updQuad m q fun x => { x with freePower := .off, testing := none, phase := if x.phase = 3 then 3 else 0, migBank := 0x3F,
                                         migLine := 0 }
  (List.range 32).foldl (fun m b =>
    updBank (clearRange m (canvasBase + (32 * q + b) * 0x80000) 0x80000) (32 * q + b) fun k => { k with power := .off, keeps := false }) m

/-- A port of the switch loses its link if it had one. -/
def portDead (m : Dg) (p : Nat) : Dg := if (getEth m p).st = .up then portDown m p else m

/-- R594: what depends on a domain that is off fails. -/
def domainDead (m : Dg) (d : Nat) : Dg :=
  if d < 40 then coreDead m d
  else if d < 44 then m
  else if d < 48 then quadDead m (d - 44)
  else if d < 50 then [0, 2].foldl (fun m q => quadDead m (q + (d - 48))) m
  else match d with
  | 50 => updDrc m fun x => { x with up := false }
  | 51 => m
  | 52 =>
    let m := (List.range 16).foldl (fun m n => updCan m n fun c => { c with st := .disabled, offered := none }) m
    (List.range 8).foldl (fun m n => updLin m n fun c => { c with st := .disabled, out := none, await := none }) m
  | 53 => (List.range 14).foldl portDead m
  | 54 => (List.range 4).foldl portDead m
  | 55 => [4, 5, 6, 7].foldl portDead m
  | 56 => [10, 11].foldl portDead m
  | 57 => resetPcie m
  | 58 => updSec m fun x => { x with katFail := 0x7F, trngOk := false }
  | 59 => updNet m fun x => { x with tmr := [], gpio := [], scan := [], pulse := [] }
  | 60 => resetBist m
  | _ => m

/-- A domain fails and stays off until the next start. -/
def domainFails (m : Dg) (dom kind src : Nat) : Dg :=
  if 61 ≤ dom ∨ !domOn m dom ∨ unpowered m then m
  else
    let m := if dom < 40 then reportOpen m dom kind 0 else reportOwn m src kind dom 0
    domainDead (updDom m dom fun _ => ⟨false, false, true⟩) dom

/-- RAIL_FAULT, R594. -/
def execRailFault (dom : Nat) (s : State) : Host.Outcome State Fault Refusal :=
  run s fun m => domainFails m dom kRailFault 0x0F7

/-- DOMAIN_SWITCH_FAULT, R594. -/
def execDomainSwitchFault (dom : Nat) (s : State) : Host.Outcome State Fault Refusal :=
  run s fun m => domainFails m dom kDomainSwitchFault 0x0F8

/-! ### Clocks, temperature, V3V3_EXT -/

/-- The twin of a PLL (Table 12.6). -/
def pllTwin (p : Nat) : Nat := (p + 2) % 4

/-- R596: a locked PLL unlocks; its outputs move to its twin when that is locked. -/
def pllLoss (m : Dg) (p : Nat) : Dg :=
  if 4 ≤ p ∨ !bit m.pwr.lock p then m
  else
    let m := reportOpen (updPwr m fun x => { x with lock := setBits x.lock p 1 0 }) (0x0F0 + p) kPllUnlock 0
    let t := pllTwin p
    if bit m.pwr.lock t ∧ !bit m.pwr.failover t then
      reportOpen (updPwr m fun x => { x with failover := setBits x.failover p 1 1 }) (0x0F0 + p) kPllFailover 0
    else m

/-- PLL_UNLOCK, R596. -/
def execPllUnlock (p : Nat) (s : State) : Host.Outcome State Fault Refusal := run s fun m => pllLoss m p

/-- XTAL_FAIL, R598: the PLLs of a main crystal fail over; without the 32.768 kHz crystal the RTC runs from XTAL1 and is no
longer valid. -/
def execXtalFail (x : Nat) (s : State) : Host.Outcome State Fault Refusal :=
  run s fun m =>
    if 3 ≤ x ∨ bit m.pwr.xtalFail x ∨ unpowered m then m
    else
      let m := updPwr m fun p => { p with xtalFail := setBits p.xtalFail x 1 1, xtal := setBits p.xtal x 1 0 }
      let m := reportOpen m 0x0F4 kXtalFail x
      match x with
      | 0 => pllLoss (pllLoss m 0) 1
      | 1 => pllLoss (pllLoss m 2) 3
      | _ => updSec m fun y => { y with rtcValid := false }

/-- THERMAL_WARN, R603; `tj` in 0.1 °C. -/
def execThermalWarn (tj : Int) (s : State) : Host.Outcome State Fault Refusal :=
  run s fun m =>
    if tj ≤ 1250 ∨ unpowered m then m
    else
      let m' := updPwr m fun p => { p with tj := tj, thermWarn := true }
      if m.pwr.thermWarn then m' else reportOpen m' 0x0FA kThermalWarn 0

/-- THERMAL_CRIT, R603. -/
def execThermalCrit (tj : Int) (s : State) : Host.Outcome State Fault Refusal :=
  run s fun m =>
    if tj ≤ 1400 ∨ unpowered m then m
    else
      let m' := updPwr m fun p => { p with tj := tj, thermCrit := true }
      if m.pwr.thermCrit then m' else reportOpen m' 0x0FA kThermalCrit 0

/-- EXT3V3_FAULT, R604. -/
def execExt3v3Fault (s : State) : Host.Outcome State Fault Refusal :=
  run s fun m =>
    if !m.pwr.ext3v3 then m else reportOpen (updPwr m fun p => { p with ext3v3 := false }) 0x0FB kExt3v3Fault 0

/-- EXT3V3_RETRY, R604. -/
def execExt3v3Retry (ok : Bool) (s : State) : Host.Outcome State Fault Refusal :=
  run s fun m =>
    if m.pwr.ext3v3 ∨ unpowered m ∨ !ok then m
    else endCond (updPwr m fun p => { p with ext3v3 := true }) 0x0FB kExt3v3Fault

/-! ### The end of a condition (R463) -/

/-- A CAN controller is no longer error-passive: its counters lie below 128, at values that are free
(notes/assumptions/7.md). -/
def canRecovers (m : Dg) (n : Nat) : Dg :=
  let (m, a) := draw m
  let (m, b) := draw m
  updCan m n fun c => { c with st := .active, tec := a % 128, rec_ := b % 128 }

/-- The gPTP domains that a record of the blob configures. -/
def gptpDoms (m : Dg) : List Nat :=
  ((recs m 0x0017).filter fun r => r.f 1 1 == 1).map fun r => r.f 8 1

/-- The gPTP domains synchronise; the grandmaster's port and, for domain 0, the offset of the time are free values. -/
def gptpSyncs (m : Dg) : Dg :=
  let (m, port) := draw m
  let (m, off) := draw m
  let ds := gptpDoms m
  let m := updNet m fun x =>
    { x with gptpSync := ds.foldl (fun v d => setBits v d 1 1) x.gptpSync,
             gmPort := if ds.contains 0 && !bit x.gptpSync 0 then port % 12 else x.gmPort }
  updSec m fun x => { x with asOff := off % 2 ^ 64 }

/-- The outside cause of a condition is gone. -/
def causeEnds (m : Dg) (src kind : Nat) : Dg :=
  match kind with
  | 0x80 => if (getCan m (src - 0x090)).st = .passive then canRecovers m (src - 0x090) else m
  | 0x8D => gptpSyncs m
  | 0xA2 => updSec m fun x => { x with trngOk := true }
  | 0xB0 =>
    let p := src - 0x0F0
    updPwr m fun x => { x with lock := setBits x.lock p 1 1, failover := setBits x.failover p 1 0 }
  | 0xB2 => updPwr m fun x => { x with xtalFail := 0, xtal := if x.xtal = 0 then 0 else 7 }
  | 0xB9 => updPwr m fun x => { x with holdupLow := false }
  | 0xBA => updPwr m fun x => { x with thermWarn := false, tj := min x.tj 1250 }
  | 0xBB => updPwr m fun x => { x with thermCrit := false, tj := min x.tj 1400 }
  | 0xD5 => updFix m fun x => { x with oscBad := false }
  | _ => m

/-- The state of the module still holds the cause of a condition, or its end is an event of its own. -/
def causeHeld (m : Dg) (src kind : Nat) : Bool :=
  match kind with
  | 0x17 => (List.range 16).any fun g => voterSrc g == src && ((getGrp m g).state == .degraded || !(getGrp m g).held.isEmpty)
  | 0x1B => (coresOf (src - 0x100)).any fun c => (getCore m c).overdue
  | 0x43 => m.fab.links.any fun e => e.2.failed
  | 0x67 => (getQuad m (src - 0x074)).noFreeReported
  | 0x81 => (getCan m (src - 0x090)).st == .busOff
  | 0x87 => (List.range 12).any fun p => (getEth m p).st == .down
  | 0x88 => (getEth m (src - 0x0A8)).sqiLow
  | 0x8E => !m.net.pci.up
  | 0x93 => !m.sec.pps
  | 0x94 => bit m.net.adcBad (src - 0x0C2)
  | 0xA8 => m.sec.nearFull
  | 0xAA => m.sec.disagree
  | 0xB3 => m.pwr.supplyLow
  | 0xB4 => 60000 < (getInput m 0).mv || 60000 < (getInput m 1).mv
  | 0xB5 => !(getInput m 0).ok || !(getInput m 1).ok
  | 0xBC => !m.pwr.ext3v3
  | 0xD0 => m.fix.engaged
  | 0xE3 => m.fcr.clkLost
  | _ => false

/-- The source is one that sends a condition kind (Tables 09.2, 10.12, 11.11, 12.12). -/
def condSource (src kind : Nat) : Bool :=
  match kind with
  | 0x80 => 0x090 ≤ src && src < 0x0A0
  | 0x8D => src == switchSrc
  | 0xA2 => src == 0x0D1
  | 0xB0 => 0x0F0 ≤ src && src < 0x0F4
  | 0xB2 => src == 0x0F4
  | 0xB9 => src == 0x0F9
  | 0xBA => src == 0x0FA
  | 0xBB => src == 0x0FA
  | 0xD5 => src == 0x0CF
  | _ => true

/-- CONDITION_END, R463. -/
def execConditionEnd (src kind : Nat) (s : State) : Host.Outcome State Fault Refusal :=
  run s fun m =>
    if !isCond kind ∨ !condSource src kind ∨ causeHeld m src kind ∨ unpowered m then m
    else endCond (causeEnds m src kind) src kind

/-! ### Self-test, power and clock commands (Table 07.16) -/

/-- A record of BIST_RESULTS_GET. -/
def bistRecord (unit : Nat) (r : Nat) (t : Triple) : List Byte :=
  leBytes 4 (pack [(16, unit), (8, r), (8, 0)]) ++ tripleBytes t ++ List.replicate 3 0

/-- BIST_RESULTS_GET, R447. -/
def execBistResultsGet (pair tag : Nat) (s : State) : Host.Outcome State Fault Refusal :=
  run s fun m => carryOut m pair tag 0x0070 fun m c =>
    let ans (n : Nat) (f : Nat → List Byte) : Reply := .ok (leBytes 8 n ++ (List.range n).flatMap f)
    if c.payload.length ≠ 1 then (m, badLen)
    else match c.f 0 1 with
      | 0 => (m, ans 40 fun i => bistRecord i (testCode (getCore m i).result) (coreTriple (getCore m i)))
      | 1 => (m, ans 132 fun i =>
          let p := SMap.get (getQuad m (i / 33)).phys (i % 33)
          bistRecord i p.test p.triple)
      | 2 => (m, ans 61 fun i =>
          let d := SMap.get m.boot.shutRec i
          bistRecord i (testCode d.result) d.triple)
      | _ => (m, badField 0)

/-- CORE_BIST_RUN, R57: CORE_BIST_COMPLETE of the core answers it; BUSY for a core that is not EXCLUDED
(notes/assumptions/86.md). -/
def execCoreBistRun (pair tag : Nat) (s : State) : Host.Outcome State Fault Refusal :=
  run s fun m => carryOut m pair tag 0x0071 fun m c =>
    if c.payload.length ≠ 1 then (m, badLen)
    else if 40 ≤ c.f 0 1 then (m, badField 0)
    else if (getCore m (c.f 0 1)).role ≠ .excluded then (m, .err stBusy 5)
    else (m, .wait)

def pmodeCode : PMode → Nat
  | .drive => 0
  | .park => 1
  | .shutdownTest => 2
  | .off => 3

/-- POWER_STATUS, R587. The input power is a free value (notes/assumptions/7.md). -/
def execPowerStatus (pair tag : Nat) (s : State) : Host.Outcome State Fault Refusal :=
  run s fun m => carryOut m pair tag 0x0080 fun m c =>
    if c.payload.length ≠ 0 then (m, badLen)
    else
      let (m, mw) := draw m
      (m, .ok (leBytes 18 (pack [(8, pmodeCode m.pwr.mode), (8, m.net.ign), (16, 0), (32, m.pwr.inA.mv),
        (32, m.pwr.inB.mv), (32, mw), (16, ofInt 16 m.pwr.tj)])))

/-- CLOCK_STATUS, R599. -/
def execClockStatus (pair tag : Nat) (s : State) : Host.Outcome State Fault Refusal :=
  run s fun m => carryOut m pair tag 0x0082 fun m c =>
    if c.payload.length ≠ 0 then (m, badLen)
    else (m, .ok (leBytes 16 (pack [(8, m.pwr.lock), (8, m.pwr.xtal), (8, bits m.net.gptpSync 0 1), (8, b2n m.sec.pps), (32, 0),
      (64, m.now)])))

end Sys2Proof.Machine
end

