-- ==== Sys2Proof/Machine/Start.lean ====
section
/-! DEFINITION. The start, steps S00 to S08 (spec/08 R411 to R420, R429, R449): what a step leaves when it ends, fails or
takes its alternative. -/
namespace Sys2Proof.Machine

/-! ### Steps and pentimento records -/

/-- No unit is named. -/
def noUnit : Nat := 0xFFFFFFFF

/-- Step `k` is due; `waits` are the domains that it needs: a start-up BIST of one holds it up (R450). -/
def stepDue (m : Dg) (k : Nat) (waits : List Nat) : Bool :=
  m.boot.due == some k && !unpowered m && !exeshDown m &&
  !(waits.any fun d => match SMap.get m.boot.bist d with
    | .due _ => true
    | _ => false)

/-- R417: a pentimento record, newest first, in a ring of 1,024. -/
def pent (m : Dg) (k cause unit action : Nat) : Dg :=
  updBoot m fun b => { b with
    pent := (⟨k, SMap.get b.attempts k, cause, unit, utcS m, ctrValue m 4 % 2 ^ 32, action⟩ :: b.pent).take 1024 }

/-- The attempt of a step has failed once more. -/
def countAttempt (m : Dg) (k : Nat) : Dg := updBoot m fun b => { b with attempts := SMap.upd b.attempts k (satInc 8) }

/-- A step has completed, with the alternatives that it applied: cause and unit of each. The next step is due. -/
def stepEnd (m : Dg) (k : Nat) (alts : List (Nat × Nat)) : Dg :=
  let m := if alts.isEmpty then updBoot m fun b => { b with attempts := SMap.set b.attempts k 0 }
           else alts.foldl (fun m a => pent m k a.1 a.2 1) (countAttempt m k)
  updMbx (updBoot m fun b => { b with due := some (k + 1) }) fun x => { x with step := k }

/-- R419: the module enters recovery at a step. -/
def recoverAt (m : Dg) (k cause unit : Nat) : Dg := openRecovery (enterRecovery (pent m k cause unit 2))

/-- R419: a failure that resets the chip; the third in a row of the same step enters recovery. -/
def stepReset (m : Dg) (k cause unit : Nat) : Dg :=
  let m := countAttempt m k
  if 3 ≤ SMap.get m.boot.attempts k then recoverAt m k cause unit else chipReset (pent m k cause unit 0)

/-! ### S00 to S04: Gesso -/

/-- S00: an input in range, where neither is known to be: VBAT_A, at a level in the range of Table 08.1. -/
def findSupply (m : Dg) : Dg :=
  if m.pwr.inA.ok || m.pwr.inB.ok then m
  else
    let (m, v) := draw m
    updPwr m fun p => { p with inA := ⟨true, 7000 + v % 53001, false⟩ }

/-- S00_SUPPLY_CHECK, R411, R417, R588. -/
def execS00SupplyCheck (ok : Bool) (s : State) : Host.Outcome State Fault Refusal :=
  run s fun m =>
    if !stepDue m 0 [] then m
    else
      let m := ctrInc m 4
      if !ok then stepReset m 0 2 noUnit
      else
        let m := findSupply m
        stepEnd (updPwr m fun p => { p with keyOff := if m.net.ign = 0 then p.keyOff.or (some m.now) else none }) 0 []

/-- The Gesso ROM (Table 06.1). -/
def romBytes : List Byte := (List.range 0x80000).map Config.romByte

/-- S01_GESSO_SELF_CHECK, R412, R416. -/
def execS01GessoSelfCheck (ok : Bool) (s : State) : Host.Outcome State Fault Refusal :=
  run s fun m =>
    if !stepDue m 1 [] then m
    else if !ok then stepReset m 1 3 noUnit
    else stepEnd (measExtend m 0 (sha384Of romBytes)) 1 []

/-- Source of an engine by its bit of SEC_ID.ENGINES (Table 10.12). -/
def katSrc (e : Nat) : Nat := if e < 3 then 0x0D2 + e else 0x0D5

/-- R520: the engines' known-answer tests and the TRNG's start-up test; `kat` bit e set for a pass. -/
def runKats (m : Dg) (kat : BitVec 7) : Dg :=
  let m := ((List.range 6).filter fun e => !kat.getLsbD e).foldl (fun m e =>
    reportOpen (updSec m fun x => { x with katFail := setBits x.katFail e 1 1 }) (katSrc e) kEngineKatFail e) m
  if kat.getLsbD 6 then updSec (endCond m 0x0D1 kTrngHealth) fun x => { x with trngOk := true }
  else reportOpen (updSec m fun x => { x with trngOk := false, katFail := setBits x.katFail 6 1 1 }) 0x0D1 kTrngHealth 0

/-- Bytes of a key record: IV, fields, key and tag. -/
def keyRecordLen (i : Nat) (k : RoleKey) : Nat := if i = 31 then 12 + 64 + 16 else 12 + 8 + k.key.length + 16

/-- S02: SEC reads its key records. One that the code store cannot give back is lost until its command writes it again
(notes/assumptions/69.md). -/
def readKeyRecords (m : Dg) : Dg :=
  let m := m.mbx.keys.foldl (fun m e =>
    if e.2.alg = 0 then m
    else
      let hurt := recHurt m (keyAddr e.1) (keyRecordLen e.1 e.2)
      let m := readRecord m (keyAddr e.1) (keyRecordLen e.1 e.2)
      if hurt then updMbx m fun x => { x with keys := SMap.set x.keys e.1 default } else m) m
  if m.mbx.pass.isNone then m
  else
    let hurt := recHurt m (keyAddr 31) (keyRecordLen 31 default)
    let m := readRecord m (keyAddr 31) (keyRecordLen 31 default)
    if hurt then updMbx m fun x => { x with pass := none } else m

/-- S02_KEY_STORE_UNLOCK, R516, R520, R537, R544. A key store that does not unlock is taken to be one that cannot be read
(notes/assumptions/69.md). -/
def execS02KeyStoreUnlock (ok : Bool) (kat : BitVec 7) (s : State) : Host.Outcome State Fault Refusal :=
  run s fun m =>
    if !stepDue m 2 [] then m
    else if !ok ∨ (SMap.get m.pwr.dom 58).failed then
      let m := if ok then m else reportOpen m 0x0D0 kKeystoreUncorrectable 0
      stepReset (updDom m 58 fun d => { d with failed := false }) 2 3 noUnit
    else
      let m := readKeyRecords (runKats (updSec m fun x => { x with keysReady := true }) kat)
      let m := if m.pwr.aonLost then
          updSec (updPwr (rtcPut m (rtcFloor m + 1000)) fun p => { p with aonLost := false }) fun x =>
            { x with rtcValid := false, restored := true, restoredDue := true }
        else m
      stepEnd m 2 []

/-- S03_LANE_SYNC, R412. -/
def execS03LaneSync (ok : Bool) (s : State) : Host.Outcome State Fault Refusal :=
  run s fun m =>
    if !stepDue m 3 [] then m
    else if !ok then stepReset m 3 0xB noUnit
    else stepEnd (updMbx m fun x => { x with lanes := 7 }) 3 []

/-! ### The configuration slot of a start -/

/-- A configuration slot that S05 may make active: its seal matches and its SVN is not below the counter. -/
def slotOk (m : Dg) (n : Nat) : Bool := bankUsable m (4 + n) && imgReads m (4 + n) 4096 (imgPayLen m (4 + n))

/-- R429: the slot that S05 makes active: the newly VERIFIED one, the active one, the fallback. -/
def slotChoice (m : Dg) : Option Nat :=
  let new := 1 - m.boot.cfgActive
  if (getImg m (4 + new)).st = .verified ∧ m.boot.cfgFallback ≠ some new ∧ slotOk m new then some new
  else if slotOk m m.boot.cfgActive then some m.boot.cfgActive
  else m.boot.cfgFallback.filter fun n => slotOk m n

/-- The records of a slot's blob. -/
def slotRecs (m : Dg) (n : Nat) : List CfgRec := (parseBlob (imgBytes m (4 + n) 4096 (imgPayLen m (4 + n)))).getD []

/-- Bytes of the MODULE record of the slot that this start will use (R449). -/
def startMod (m : Dg) (off : Nat) : Nat :=
  match slotChoice m with
  | some n => modField { m with cfg := slotRecs m n } off 1 0
  | none => 0

/-! ### S04 -/

def stModeOf (b : Nat) : StMode := if b = 1 then .d else if b = 2 then .q else .t

/-- Cores that the groups of a mode need. -/
def coresNeeded : StMode → Nat
  | .t => 9
  | .d => 8
  | .q => 0

/-- The result of a domain in the latest record. -/
def recOf (m : Dg) (d : Nat) : TestRes := (SMap.get m.boot.shutRec d).result

/-- R449: the cores of a studio that policy DEFER holds out as UNTESTED: those of highest number among the cores without a
result, as long as its groups can be seated from the others; a core whose result is FAIL does not count (notes/assumptions/96.md). -/
def heldOut (m : Dg) (s : Nat) : List Nat :=
  let mode := stModeOf (startMod m s)
  if startMod m (8 + s) ≠ 1 ∨ mode = .q then []
  else
    let usable := (coresOf s).filter fun c => (getCore m c).role != .excluded
    let cand := usable.filter fun c => recOf m c == .none || recOf m c == .incomplete
    cand.reverse.take ((usable.filter fun c => recOf m c != .fail).length - coresNeeded mode)

/-- R449: under policy DEFER the physical banks behind test banks wait for their migration test, so a quadrant all of whose banks
are test banks receives no start-up BIST, unless its result is FAIL. The policy of a quadrant is that of studio 0, since the blob
has one per studio: the model's choice (notes/assumptions/96.md). -/
def testsLater (m : Dg) (d : Nat) : Bool :=
  44 ≤ d && d < 48 && startMod m 8 == 1 && recOf m d != .fail &&
  (match slotChoice m with
   | some n => !((slotRecs m n).any fun r => r.ty == 0x0005 && r.f 0 1 == d - 44 && bit (r.f 2 1) 2)
   | none => false)

/-- S04_RESULT_CHECK, R445, R449, R451: the self-test engine's own check, then the start-up tests. -/
def execS04ResultCheck (t : Triple) (s : State) : Host.Outcome State Fault Refusal :=
  run s fun m =>
    if !stepDue m 4 [] then m
    else
      let r := bistResult (SMap.get m.bistExp 63) t
      let bad := r ≠ .pass ∨ (SMap.get m.pwr.dom 60).failed
      let m := setRec (updDom m 60 fun d => { d with failed := false }) 60 r t
      let m := if bad then reportOpen m 0x104 kBstEngineFault 0 else m
      let held := ([0, 1, 2, 3].map (heldOut m)).flatten
      let m := held.foldl (fun m c => setRole m c .untested) m
      let due := (List.range 60).filter fun d => recOf m d != .pass && !held.contains d && !testsLater m d
      let m := updBoot m fun b => { b with bist := due.foldl (fun x d => SMap.set x d (.due false)) b.bist }
      stepEnd m 4 (if bad then [(if r = .incomplete then 8 else 7, 60)] else [])

/-- A start-up test of a domain has failed, or the domain itself (R450, R594). -/
def domBad (m : Dg) (d : Nat) : Bool := (SMap.get m.pwr.dom d).failed || SMap.get m.boot.bist d == .fail

/-- The failed domains among some, with the cause of their records; the step that brings them up has taken them up. -/
def domAlts (m : Dg) (l : List Nat) : List (Nat × Nat) := (l.filter (domBad m)).map fun d => (7, d)
def domTaken (m : Dg) (l : List Nat) : Dg := l.foldl (fun m d => updDom m d fun x => { x with failed := false }) m

/-! ### S05 and S06: images -/

/-- S05: a held bank whose seal does not match, or whose SVN is below its counter, becomes FAILED. -/
def checkBank (m : Dg) (b : Nat) : Dg × List (Nat × Nat) :=
  let m := imgScan m b 0 512
  if !imgHeld m b then (m, [])
  else if !imgReads m b 0 512 ∨ !sealOk m b then (updImg m b fun x => { x with st := .failed }, [(5, b)])
  else if !bankUsable m b then (updImg m b fun x => { x with st := .failed }, [(6, b)])
  else (m, [])

def checkBanks (m : Dg) : Dg × List (Nat × Nat) :=
  (List.range 6).foldl (fun (x : Dg × List (Nat × Nat)) b =>
    let (m, l) := checkBank x.1 b
    (m, x.2 ++ l)) (m, [])

/-- R429: a slot is made active; one that was active before stays as the fallback. -/
def activateSlot (m : Dg) (n : Nat) : Dg :=
  let m := updBoot m fun b =>
    if b.cfgActive = n then b
    else if b.cfgFallback = some n then { b with cfgActive := n, cfgFallback := none }
    else { b with cfgFallback := some b.cfgActive, cfgActive := n }
  let m := imgScan m (4 + n) 0 (4096 + imgPayLen m (4 + n))
  measExtend { m with cfg := slotRecs m n } 2 (blobDigest m (4 + n))

/-- R417: a step whose alternatives `l` have all failed enters recovery: each of them but the last was applied (ACTION 1), and the
last one's record tells of the recovery (ACTION 2). -/
def recoverAfter (m : Dg) (k cause : Nat) (l : List (Nat × Nat)) : Dg :=
  let m := l.dropLast.foldl (fun m a => pent m k a.1 a.2 1) (countAttempt m k)
  match l.getLast? with
  | some a => recoverAt m k a.1 a.2
  | none => recoverAt m k cause noUnit

/-- S05_CODE_STORE_INTEGRITY, R427, R429, R430, R413. Without a configuration slot to use, recovery. -/
def execS05CodeStoreIntegrity (s : State) : Host.Outcome State Fault Refusal :=
  run s fun m =>
    if !stepDue m 5 [51] then m
    else
      let alts := domAlts m [51]
      let m := (List.range 6).foldl (fun m b =>
        if (getImg m b).st = .staging then updImg m b fun _ => default else m) (domTaken m [51])
      let m := (List.range 6).foldl (fun m i => (ctrRead m i).1) m
      let (m, l) := checkBanks m
      match slotChoice m with
      | some n => stepEnd (activateSlot m n) 5 (alts ++ l)
      | none =>
        let slots := l.filter fun a => 4 ≤ a.2
        let m := (alts ++ l.filter fun a => a.2 < 4).foldl (fun m a => pent m 5 a.1 a.2 1) m
        recoverAfter m 5 5 slots

/-- S06_EXESH_LOAD, R351, R413, R419: the first usable bank whose measurement agrees. -/
def execS06ExeshLoad (okA okB : Bool) (s : State) : Host.Outcome State Fault Refusal :=
  run s fun m =>
    if !stepDue m 6 [] then m
    else
      let m := ctrSettle m 0
      let first := if m.boot.exeshFirst = 0 then 0 else 1
      let ok (b : Nat) : Bool := (if b = 0 then okA else okB) && imgReads m b 4096 (imgField m b 144 8)
      let l := [first, 1 - first].filter fun b => bankUsable m b
      let bad := (l.takeWhile fun b => !ok b).map fun b => (4, b)
      match l.find? fun b => ok b with
      | some b => stepEnd (updMbx (loadExesh m b) fun x => { x with state := 1 }) 6 bad
      | none => recoverAfter m 6 4 bad

/-! ### S07 and S08 -/

/-- R597: a PLL that does not lock is reported and carried by its twin. -/
def pllAtStart (m : Dg) (lock : BitVec 4) (p : Nat) : Dg :=
  if lock.getLsbD p then endCond m (0x0F0 + p) kPllUnlock
  else
    let m := updPwr m fun x => { x with failover := setBits x.failover p 1 1 }
    reportOpen (reportOpen m (0x0F0 + p) kPllUnlock 0) (0x0F0 + p) kPllFailover 0

/-- R467, R478: the policies of the blob, and the severity that ERR_N needs. -/
def loadPolicies (m : Dg) : Dg :=
  updFcr m fun f => { f with
    policy := (recs m 0x000A).foldl (fun t r =>
      SMap.set t (r.f 0 2) (some (Policy.ofBytes ((leBytes 20 r.body).drop 4)))) f.policy
    policyLoaded := true, pinSev := modField m 38 1 2 }

/-- R476: CLK_MAIN is there again: its loss ends, and the supervisor watchdog counts on. -/
def clkRestored (m : Dg) : Dg :=
  if m.fcr.clkLost then
    let w := m.supWdg
    let m := endCond (updFcr m fun f => { f with clkLost := false }) 0x0EF kClkMainLoss
    { m with supWdg := { w with last := w.last + (m.now - w.stop.getD m.now), stop := none } }
  else m

/-- S07_PLL_LOCK, R597, R467, R476. -/
def execS07PllLock (lock : BitVec 4) (s : State) : Host.Outcome State Fault Refusal :=
  run s fun m =>
    if !stepDue m 7 [] then m
    else
      let locked (p : Nat) : Bool := lock.getLsbD p
      let m := updPwr m fun x => { x with lock := lock.toNat, failover := 0, xtal := 7 - x.xtalFail }
      if !(locked 0 || locked 2) || !(locked 1 || locked 3) then stepReset m 7 9 noUnit
      else
        let m := (List.range 4).foldl (fun m p => pllAtStart m lock p) m
        stepEnd (clkRestored (loadPolicies m)) 7 (((List.range 4).filter fun p => !locked p).map fun p => (9, p))

/-- R335: the triplicated groups of the blob. -/
def tmrSegs (m : Dg) : Nat × Nat :=
  (recs m 0x0006).foldl (fun (x : Nat × Nat) r =>
    let k := r.f 0 1
    (setBits x.1 k 1 1, setBits x.2 (k + 1) 2 3)) (0, 0)

/-- S08_DRAM_TRAINING, R412, R420. -/
def execS08DramTraining (cachedOk fullOk : Bool) (s : State) : Host.Outcome State Fault Refusal :=
  run s fun m =>
    if !stepDue m 8 [50] then m
    else
      let dead := domBad m 50
      let alts := domAlts m [50]
      let seg := tmrSegs m
      let m := updDrc (domTaken m [50]) fun x => { x with tmrFirst := seg.1, tmrHidden := seg.2, corr := 0, uncorr := 0, tmrRepair := 0, refresh := [], patrolPos := 0 }
      if dead then stepEnd (updDrc m fun x => { x with up := false, trained := false }) 8 alts
      else if m.drc.cached && cachedOk then stepEnd (updDrc m fun x => { x with up := true, trained := true }) 8 []
      else stepEnd (updDrc m fun x => { x with up := fullOk, trained := fullOk, cached := fullOk }) 8 [(0xA, 50)]

end Sys2Proof.Machine
end

