-- ==== Sys2Proof/Machine/Bringup.lean ====
section
/-! DEFINITION. The start, steps S09 to S15, the start-up BISTs and the payload audit (spec/08 R411 to R420, R449 to R451;
spec/06 R305, R322, R327; spec/01 R22). -/
namespace Sys2Proof.Machine

/-! ### S09: Canvas -/

/-- The BANK record of a logical bank. -/
def bankRec (m : Dg) (q b : Nat) : Option CfgRec := (recs m 0x0005).find? fun r => r.f 0 1 == q && r.f 1 1 == b

/-- R327: a bank that has come from RETAIN with RET_LOST clear keeps its contents. -/
def bankKept (m : Dg) (q b : Nat) : Bool :=
  let k := getBank m q b
  !k.retLost && (k.power == .retain || (k.keeps && (k.power == .waking || k.power == .on)))

/-- How the march tests leave a quadrant: remap table, free bank, logical banks without a bank, failing physical banks. -/
structure March where
  remap : SMap Nat
  free : Nat
  off : List Nat
  bad : List Nat

/-- R305: logical bank `b` on a failing physical bank takes the free bank, or stays OFF. -/
def marchBank (fails : Nat → Bool) (x : March) (b : Nat) : March :=
  let p := SMap.get x.remap b
  if !fails p then x
  else if x.free < 33 then { x with remap := SMap.set x.remap b x.free, free := 0x3F, bad := x.bad ++ [p] }
  else { x with off := x.off ++ [b], bad := x.bad ++ [p] }

/-- The table before the tests: physical bank b for logical bank b, or as it stands where banks are kept. -/
def marchStart (m : Dg) (q : Nat) : March :=
  let x := getQuad m q
  if (List.range 32).any (bankKept m q) then
    let used := (List.range 32).map (SMap.get x.remap)
    ⟨x.remap, ((List.range 33).find? fun p => !used.contains p && !bit x.failed p).getD 0x3F, [], []⟩
  else ⟨SMap.tab 32 id, 32, [], []⟩

/-- R305, R322, R327: the march tests of a quadrant; `bad` physical banks fail, a kept one is not tested. -/
def march (m : Dg) (q : Nat) (bad : List Nat) : March :=
  let x := marchStart m q
  let kept := ((List.range 32).filter (bankKept m q)).map (SMap.get x.remap)
  let fails (p : Nat) : Bool := bad.contains (33 * q + p) && !kept.contains p
  let x := if x.free < 33 ∧ fails x.free then { x with free := 0x3F, bad := [x.free] } else x
  (List.range 32).foldl (marchBank fails) x

/-- Power of a logical bank after S09: a bank that was retained is ON, whether its contents were lost or not (R326, R327). -/
def bankAfter (m : Dg) (q b : Nat) (dead : Bool) (off : List Nat) : BankPower :=
  if dead || off.contains b then .off
  else if bankKept m q b || (getBank m q b).retLost && (getBank m q b).power != .off then .on
  else match bankRec m q b with
    | some r => if bit (r.f 2 1) 0 then .on else .off
    | none => .off

/-- A bank after S09: set up by its BANK record (R303), cleared unless kept. RET_LOST of this wake stays, and is reported
unless BANK_WAKE has done so (R328). -/
def bringBank (q : Nat) (dead : Bool) (x : March) (phys : SMap Nat) (m : Dg) (b : Nat) : Dg :=
  let k := getBank m q b
  let fl := ((bankRec m q b).map fun r => r.f 2 1).getD 0
  let base := canvasBase + (32 * q + b) * 0x80000
  let m := tellLost m q b (SMap.get phys b)
  let pw := bankAfter m q b dead x.off
  let m := if bankKept m q b && !dead then m else clearRange m base 0x80000
  updBank m (32 * q + b) fun _ =>
    { power := pw, noTest := bit fl 2, retSel := bit fl 1, onSel := bit fl 0, retLost := k.retLost, lostDue := false,
      corr := 0, wcoll := 0, uncorr := 0, keeps := false, woken := false }

/-- S09 for one quadrant: what it finds failing is told by the caller's records. -/
def bringQuad (m : Dg) (q : Nat) (bad : List Nat) (dead : Bool) : Dg :=
  let x := march m q bad
  let phys := (getQuad m q).remap
  let m := (List.range 32).foldl (bringBank q dead x phys) m
  let m := updQuad m q fun _ =>
    { (default : Quadrant) with remap := x.remap, free := x.free, migBank := 0x3F, shutDone := (getQuad m q).shutDone,
                                freePower := if x.free < 33 && !dead then .on else .off,
                                failed := x.bad.foldl (fun n p => setBits n p 1 1) 0 }
  let m := x.off.foldl (fun m b => reportOwn m (0x074 + q) kCanvasBankFail (SMap.get x.remap b) 0) m
  if x.free < 33 then m else noFreeBank m q

/-- S09_CANVAS_INIT, R305, R322, R326 to R328, R450. `bad` are physical banks 33 × quadrant + bank that fail the march
test. -/
def execS09CanvasInit (bad : List Nat) (s : State) : Host.Outcome State Fault Refusal :=
  run s fun m =>
    if !stepDue m 9 [44, 45, 46, 47] then m
    else
      let doms := [44, 45, 46, 47]
      let alts := domAlts m doms ++ [0, 1, 2, 3].flatMap fun q => (march m q bad).bad.map fun p => (3, 33 * q + p)
      let dead (q : Nat) : Bool := domBad m (44 + q)
      let deads := [0, 1, 2, 3].map fun q => (q, dead q)
      let m := deads.foldl (fun m x => bringQuad m x.1 bad x.2) m
      let m := { m with cnv := { m.cnv with scrubS := modField m 16 2 4, testS := modField m 20 4 2, filled := true } }
      stepEnd (domTaken m doms) 9 alts

/-! ### S10: the Palette -/

/-- The queues of the blob (R426). -/
def createQueues (m : Dg) : Dg :=
  let m := (recs m 0x0008).foldl (fun m r => setQ m (r.f 0 4) (filled m (newQueue (r.f 8 16) (r.f 24 2) (r.f 26 1)))) m
  (recs m 0x000E).foldl createPair m

/-- R291: the flip group of every partition takes its control period and phase; the boundaries so far are past. -/
def setFlipGroups (m : Dg) : Dg :=
  (recs m 0x0002).foldl (fun m r => updFlip m (flipOf (r.f 0 1)) fun f =>
    let f := { f with period := r.f 8 4, phase := r.f 12 4 }
    { f with taken := f.boundaries m.now }) m

/-- S10_PALETTE_INIT, R255, R291, R450. -/
def execS10PaletteInit (ok : Bool) (s : State) : Host.Outcome State Fault Refusal :=
  run s fun m =>
    if !stepDue m 10 [48, 49] then m
    else
      match [48, 49].filter (domBad m) with
      | d :: _ => stepReset (domTaken m [48, 49]) 10 7 d
      | [] =>
        if !ok then stepReset m 10 3 noUnit
        else
          let w := match modRec m with
            | some r => r.f 40 7
            | none => Dg.reset.fab.weights
          stepEnd (setFlipGroups (createQueues { m with fab := { Dg.reset.fab with weights := w } })) 10 []

/-! ### S11: the studios -/

/-- A core that may be seated at S11. -/
def coreUsable (m : Dg) (bad : List Nat) (c : Nat) : Bool :=
  !domBad m c && !bad.contains c &&
  (match (getCore m c).role with
   | .excluded => SMap.get m.boot.bist c == .pass
   | .untested => false
   | _ => true)

/-- Groups of a mode in a studio. -/
def groupsOf : StMode → Nat
  | .t => 3
  | .d => 4
  | .q => 0

/-- R22: the mode of a studio with these usable cores. -/
def studioMode (m : Dg) (s usable : Nat) : StMode :=
  let mode := stModeOf (modField m s 1 0)
  if coresNeeded mode ≤ usable then mode
  else
    let d := modField m (4 + s) 1 0xFF
    if d = 0xFF then mode else stModeOf d

/-- Seats of group `k` in a mode: lane and local core (Table 01.1). -/
def seatsOf : StMode → Nat → List (Nat × Nat)
  | .t, k => [(0, 3 * k), (1, 3 * k + 1), (2, 3 * k + 2)]
  | .d, k => [(0, 2 * k), (2, 2 * k + 1)]
  | .q, _ => []

/-- The partition of a group (R24). -/
def groupPid (m : Dg) (s k : Nat) (mode : StMode) : Nat :=
  match mode with
  | .t => 1 + 3 * s + k
  | _ => (((recs m 0x0002).find? fun r => r.f 1 1 == 1 && r.f 2 1 == s && r.f 3 1 == k).map fun r => r.f 0 1).getD 0

/-- Seats filled in slot order: the core of Table 01.1, or the lowest of the pool; what is left of the pool. -/
def fillSeats (usable : List Nat) : List Nat → List (Nat × Nat × Nat) → List (Nat × Nat × Nat)
  | _, [] => []
  | pool, (slot, lane, c) :: r =>
    if usable.contains c then (slot, lane, c) :: fillSeats usable pool r
    else match pool with
      | p :: rest => (slot, lane, p) :: fillSeats usable rest r
      | [] => fillSeats usable [] r

/-- R22: S11 in one studio. -/
def bringStudio (bad : List Nat) (m : Dg) (s : Nat) : Dg :=
  let usable := (coresOf s).filter (coreUsable m bad)
  let mode := studioMode m s usable.length
  let size := (lanesOfMode mode).length
  let n := if domBad m (40 + s) ∨ size = 0 then 0 else min (groupsOf mode) (usable.length / size)
  let want := (List.range n).flatMap fun k => (seatsOf mode k).map fun x => (4 * s + k, x.1, 10 * s + x.2)
  let pool := usable.filter fun c => !(want.any fun x => x.2.2 == c)
  let seats := fillSeats usable pool want
  let m := updStudio m s fun _ => { (default : Studio) with mode := mode }
  let m := usable.foldl (fun m c => setRole m c (if mode == .q && !domBad m (40 + s) then .qm else .ready)) m
  let m := seats.foldl (fun m x => seat m x.1 x.2.1 x.2.2) m
  (List.range n).foldl (fun m k => updGrp m (4 * s + k) fun g =>
    { g with state := .full, under := .full, pair := mode == .d, pid := groupPid m s k mode }) m

/-- S11_STUDIO_BRINGUP, R22, R23, R57, R450. `bad` are cores that the lane check names. -/
def execS11StudioBringup (bad : List Nat) (s : State) : Host.Outcome State Fault Refusal :=
  run s fun m =>
    let doms := List.range 44
    if !stepDue m 11 doms then m
    else
      let named := (List.range 40).filter fun c => bad.contains c && !domBad m c
      let alts := domAlts m doms ++ named.map fun c => (3, c)
      let m' := [0, 1, 2, 3].foldl (bringStudio bad) m
      let m' := ((List.range 40).filter fun c => bad.contains c || domBad m c).foldl (fun m c => setRole m c .excluded) m'
      let m' := { m' with stu := { m'.stu with rotInterval := modField m 12 4 60, filled := true } }
      stepEnd (domTaken m' doms) 11 alts

/-! ### S12: networks, plant I/O and Fixative -/

/-- The domains of a switch port (Table 08.12). -/
def portDoms (p : Nat) : List Nat :=
  if p < 4 then [53, 54] else if p < 8 then [53, 55] else if p = 10 ∨ p = 11 then [53, 56] else [53]

/-- S12 for one controller or port; what Fixative holds is checked and not reset (R7, R506). -/
def bringCan (ok : Nat → Bool) (m : Dg) (n : Nat) : Dg :=
  if m.fix.engaged then m
  else if opened m 1 n && (canRec m n).isSome && ok (canSrc n) && !domBad m 52 then
    updCan m n fun _ => { (default : CanCtl) with st := .active }
  else updCan m n fun _ => default

def bringLin (ok : Nat → Bool) (m : Dg) (n : Nat) : Dg :=
  if m.fix.engaged then m
  else match linRec m n with
  | some r =>
    if opened m 2 n && ok (linSrc n) && !domBad m 52 then
      updLin m n fun _ => { (default : LinCtl) with st := .active, master := r.f 1 1 == 1 }
    else updLin m n fun _ => default
  | none => updLin m n fun _ => default

def bringPort (ok : Nat → Bool) (m : Dg) (p : Nat) : Dg :=
  if m.fix.engaged then m
  else match portRec m p with
  | some r =>
    if opened m 3 p && bit (r.f 2 1) 0 && ok (portSrc p) && !((portDoms p).any (domBad m)) then
      updEth m p fun _ => { (default : EthPort) with st := if 12 ≤ p then .up else .down, macsec := bit (r.f 2 1) 3 }
    else updEth m p fun _ => default
  | none => updEth m p fun _ => default

/-- A timer channel and a GPIO by their records (Table 08.16). -/
def timerOf (r : CfgRec) : Timer :=
  let v := if r.f 1 1 = 2 then r.f 12 4 else r.f 4 4
  { mode := r.f 1 1, opt := r.f 2 1, duty := r.f 8 2, value := v, curDuty := r.f 8 2, curValue := v, level := false, capture := 0 }

def gpioOf (r : CfgRec) : Gpio :=
  { mode := some (r.f 1 1), level := bit (r.f 2 1) 2, driven := bit (r.f 2 1) 3, curLevel := bit (r.f 2 1) 2,
    curDriven := bit (r.f 2 1) 3, sensed := false, differ := 0 }

/-- Plant I/O is set up; its output stages stand while Fixative holds them. -/
def bringPio (m : Dg) : Dg :=
  let m := updNet m fun x => { x with adc := [], adcBad := 0, pulse := [] }
  let m := ((recs m 0x001C).filter fun r => opened m 9 (r.f 0 1)).foldl (fun m r =>
    updNet m fun x => { x with scan := SMap.set x.scan (r.f 0 1) (r.f 2 1 == 2) }) m
  if m.fix.engaged then m
  else
    let m := ((recs m 0x0019).filter fun r => opened m 4 (r.f 0 1)).foldl (fun m r => updTmr m (r.f 0 1) fun _ => timerOf r) m
    ((recs m 0x001A).filter fun r => opened m 5 (r.f 0 1)).foldl (fun m r =>
      driveGpio (updGpio m (r.f 0 1) fun _ => gpioOf r) (r.f 0 1)) m

/-- A channel value of a last-word frame (VAL0 and VAL1 of SSQ_FRAME). -/
def valOf (v : Nat) : Option FixVal :=
  if bits v 0 16 = 0xFFFF then none else some ⟨bits v 0 16, bits v 16 8, bit v 24, bit v 25⟩

/-- A Fixative channel and a last-word frame by their records. -/
def fixChOf (r : CfgRec) : FixCh :=
  { (default : FixCh) with configured := true, safe := r.f 2 2, holdMs := r.f 4 2, rampMs := r.f 6 2, staleMs := r.f 8 2,
                           owner := r.f 10 1, never := true }

def fixFrOf (r : CfgRec) : FixFr :=
  { (default : FixFr) with
    configured := true, owner := r.f 1 1, port := if r.f 2 1 < 0x20 then r.f 2 1 else 16 + (r.f 2 1 - 0x20),
    format := r.f 3 1, canId := r.f 4 4, periodMs := r.f 8 2, offsetMs := r.f 10 2, len := r.f 12 1,
    val0 := valOf (r.f 16 4), val1 := valOf (r.f 20 4),
    cnt := if r.f 24 1 = 0xFF then none else some (r.f 24 1, r.f 25 1 == 4),
    crc := if r.f 28 1 = 0 then none else some ⟨r.f 28 1 == 2, r.f 29 1, r.f 30 2, r.f 32 1, r.f 33 1⟩,
    template := leBytes (r.f 12 1) (r.f 40 128) }

/-- R496, R499: Fixative takes its records, unless it is engaged (R505). -/
def bringFix (m : Dg) : Dg :=
  if m.fix.engaged then m
  else
    let m := (recs m 0x000C).foldl (fun m r => updFixCh m (r.f 0 2) fun _ => fixChOf r) m
    (recs m 0x000D).foldl (fun m r => updFixFr m (r.f 0 1) fun _ => fixFrOf r) m

/-- Table 12.5: the blob enables a port of one of the domains 54 to 57. -/
def domUsed (m : Dg) (d : Nat) : Bool :=
  if d = 57 then !(recs m 0x0018).isEmpty
  else (recs m 0x0014).any fun r => bit (r.f 2 1) 0 && (portDoms (r.f 0 1)).contains d

/-- R592: a domain of ports of which the blob enables none is off; what Fixative holds stands (R505). -/
def trimDoms (m : Dg) : Dg :=
  if m.fix.engaged then m
  else ([54, 55, 56, 57].filter fun d => !domUsed m d).foldl
    (fun m d => updDom m d fun x => { x with on := false, held := false }) m

/-- The UNIT of a controller or port (Table 08.3): its number in its class (notes/assumptions/120.md). -/
def unitOfSrc (src : Nat) : Nat := if src < 0x0A0 then src - 0x090 else if src < 0x0A8 then src - 0x0A0 else src - 0x0A8

/-- S12_NETWORK_BRINGUP, R426, R450, R506, R546, R592. `bad` are sources whose blocks do not come up. Fixative takes its records
here too. -/
def execS12NetworkBringup (bad : List Nat) (s : State) : Host.Outcome State Fault Refusal :=
  run s fun m =>
    let doms := [52, 53, 54, 55, 56, 57, 58, 59]
    if !stepDue m 12 doms then m
    else
      let ok (src : Nat) : Bool := !bad.contains src
      let named := bad.filter fun x => 0x090 ≤ x && x < 0x0B6
      let alts := domAlts m doms ++ named.map fun x => (3, unitOfSrc x)
      let m := (List.range 16).foldl (bringCan ok) m
      let m := (List.range 8).foldl (bringLin ok) m
      let m := (List.range 14).foldl (bringPort ok) m
      let m := if domBad m 58 then updSec m fun x => { x with katFail := 0x7F, trngOk := false } else m
      let m := if domBad m 59 then m else bringPio m
      stepEnd (trimDoms (domTaken (bringFix m) doms)) 12 alts

/-! ### S13 -/

/-- An application bank (0 A, 1 B) holds an image whose staging seal matches. -/
def appOk (m : Dg) (bank : Nat) : Bool := imgHeld m (bank + 2) && imgReads m (bank + 2) 0 512 && sealOk m (bank + 2)

/-- R414: a bank that contexts are bound to is measured, or its contexts move to the other bank when that is usable. -/
def moveContexts (m : Dg) (bank : Nat) : Dg × List (Nat × Nat) :=
  let pids := ((recs m 0x0002).map fun r => r.f 0 1).filter fun p => boundBank m p == bank
  if !(pids.any fun p => partFlag m p 1) || appOk m bank then (m, [])
  else if bankUsable m (3 - bank) then
    (updBoot m fun b => { b with alt := pids.foldl (fun t p => SMap.set t p true) b.alt }, [(5, bank + 2)])
  else (m, [(5, bank + 2)])

def measureBank (m : Dg) (bank : Nat) : Dg :=
  if !(boundPids m bank).isEmpty && appOk m bank then measExtend m (3 + bank) (imgBytes m (bank + 2) 0 512) else m

/-- S13_APPLICATION_MEASURE, R414, R416, R339. -/
def execS13ApplicationMeasure (s : State) : Host.Outcome State Fault Refusal :=
  run s fun m =>
    if !stepDue m 13 [] then m
    else
      let m := imgScan (imgScan (ctrSettle m 1) 2 0 512) 3 0 512
      let (m, a) := moveContexts m 0
      let (m, b) := moveContexts m 1
      stepEnd (restoreLines (measureBank (measureBank m 0) 1)) 13 (a ++ b)

/-! ### S14 -/

/-- The Canvas spans of a partition: its access windows, its LOAD records, the rings of its queues (R322). -/
def partSpans (m : Dg) (pid : Nat) : List (Nat × Nat) :=
  ((recs m 0x0003).filter fun r => r.f 0 1 == pid).map (fun r => (r.f 8 8, r.f 16 8)) ++
  ((recs m 0x0007).filter fun r => r.f 0 1 == pid).map (fun r => (r.f 8 8, r.f 24 8)) ++
  (m.fab.q.filter fun e => e.2.valid && (e.2.prod0 == pid || e.2.cons0 == pid)).map fun e => (e.2.ringBase, e.2.ringSize)

/-- R322: a span lies in a logical bank that is to be ON and is OFF. -/
def spanOff (m : Dg) (x : Nat × Nat) : Bool :=
  (recs m 0x0005).any fun r =>
    let k := 32 * r.f 0 1 + r.f 1 1
    bit (r.f 2 1) 0 && (SMap.get m.cnv.bank k).power == .off && overlaps x.1 x.2 (canvasBase + k * 0x80000) 0x80000

/-- A watchdog by its record (R483, Table 08.16). -/
def wdgOf (r : CfgRec) : Wdg :=
  { (default : Wdg) with
    configured := true, owner := r.f 1 1, seqMode := r.f 20 1 == 1, source := r.f 2 2, prescM1 := r.f 4 4 - 1,
    openT := r.f 8 4, closeT := r.f 12 4, firstClose := r.f 16 4, cpmask := BitVec.ofNat 32 (r.f 24 4),
    order := ((List.range 32).map fun i => r.f (32 + i) 1).takeWhile fun c => c != 0xFF,
    late := SMap.tab 32 fun i => if r.f (64 + 4 * i) 4 = 0 then none else some (r.f (64 + 4 * i) 4) }

/-- R278, R358: the bindings of the blob's queues and pairs. -/
def bindQueues (m : Dg) : Dg :=
  let m := (recs m 0x0008).foldl (fun m r =>
    bindQ (bindQ m (r.f 0 4) 1 (r.f 28 1) (r.f 30 2) 0) (r.f 0 4) 2 (r.f 29 1) (r.f 32 2) (r.f 34 2)) m
  (recs m 0x000E).foldl bindPair m

/-- The group or QM core that a partition runs on stands. -/
def partSeated (m : Dg) (r : CfgRec) : Bool :=
  let x := recCtx r
  if x < 16 then (getGrp m x).state == .full && (getGrp m x).pid == r.f 0 1
  else (getCore m (x - 16)).role == .qm

/-- S14 for one partition: it starts, or stays STOPPED with the cause of its record. -/
def bringPart (bad : List Nat) (x : Dg × List (Nat × Nat)) (r : CfgRec) : Dg × List (Nat × Nat) :=
  let (m, l) := x
  let pid := r.f 0 1
  let usesBank := partFlag m pid 1 || (recs m 0x0007).any fun r => r.f 0 1 == pid
  if !partSeated m r then (m, l)
  else if usesBank && !appOk m (bankOfPid m pid) then (m, l ++ [(5, pid)])
  else if bad.contains pid || (partSpans m pid).any (spanOff m) then (m, l ++ [(3, pid)])
  else
    let m := startPartition m pid (recCtx r) false
    (m, if (getPart m pid).state == .stopped then l ++ [(3, pid)] else l)

/-- S14_PARTITION_START, R220, R84, R322. `bad` are partitions that do not start. -/
def execS14PartitionStart (bad : List Nat) (s : State) : Host.Outcome State Fault Refusal :=
  run s fun m =>
    if !stepDue m 14 [] then m
    else
      let m := bindQueues m
      let m := { m with wdg := (recs m 0x000B).foldl (fun t r => SMap.set t (r.f 0 1) (wdgOf r)) [] }
      let (m, l) := (recs m 0x0002).foldl (bringPart bad) (m, [])
      stepEnd m 14 l

/-! ### S15 and after -/

/-- The value of MEAS5 (Table 08.2): the shutdown-test record, its entries and its status, then this start's pentimento
records, oldest first. -/
def startSummary (m : Dg) : List Byte :=
  let cur := ctrValue m 4 % 2 ^ 32
  let status : Nat := match m.boot.shutStatus with
    | .complete => 0
    | .abortedIgn => 1
    | .abortedSupply => 2
  ((List.range 61).flatMap fun d =>
    let x := SMap.get m.boot.shutRec d
    bistRecord d (testCode x.result) x.triple) ++ leBytes 1 status ++
  ((m.boot.pent.filter fun p => p.start == cur).reverse.flatMap fun p =>
    leBytes 32 (pack [(8, p.step), (8, p.attempt), (16, p.cause), (32, p.unit), (64, p.utc), (32, p.start), (8, p.action)]))

/-- R431: the slot that was active before is freed. -/
def dropFallback (m : Dg) : Dg :=
  match m.boot.cfgFallback with
  | some n => updBoot (updImg m (4 + n) fun _ => default) fun b => { b with cfgFallback := none }
  | none => m

/-- S15 in SEC: the journal is ready; records from before the last supply loss are sealed (R532), START and TIME_RESTORED
are written. -/
def journalStart (m : Dg) : Dg :=
  let floor := rtcFloor m
  let m := updSec m fun x => { x with journalReady := true }
  let m := if m.sec.lossNext ≠ 0 ∧ m.sec.unsealed < m.sec.lossNext then sealTrigger m 1 else m
  let m := updSec m fun x => { x with lossNext := 0 }
  let m := secRecord m 0xF3 0 (leBytes 9 (pack [(64, ctrValue m 4), (8, timeq m)]))
  if m.sec.restoredDue then
    reportOpen (updSec (secRecord m 0xF7 0 (leBytes 8 floor)) fun x => { x with restoredDue := false }) 0x0D7 kTimeRestored 0
  else m

/-- S15_COMPLETE, R352, R413, R415, R416, R418, R419, R431. -/
def execS15Complete (s : State) : Host.Outcome State Fault Refusal :=
  run s fun m =>
    if !stepDue m 15 [] then m
    else
      let m := ctrSettle m 4
      let m := measExtend m 5 (startSummary m)
      let m := ctrRaise (ctrRaise m 0 (imgSvn m m.mbx.bank)) 2 (imgSvn m (4 + m.boot.cfgActive))
      let m := journalStart (dropFallback m)
      let m := updBoot m fun b =>
        { b with due := none, doneAt := m.now, attempts := [], recovery := false,
                 audit := [0, 1].filter fun k => !(boundPids m k).isEmpty }
      let m := updMbx m fun x => { x with state := 2, step := 15, supervisor := true }
      let m := updCtx m supCtx fun x => { x with r := { x.r with mode := .supervisor } }
      if m.pwr.request.isSome then leaveDrive m else m

/-- STARTUP_BIST_COMPLETE, R446, R450. The result of a core's start-up BIST is not shown in RESULT and LAST_PASS of STU_COREc,
which keep the last test of CORE_BIST_RUN: the model's choice (notes/assumptions/105.md). -/
def execStartupBistComplete (dom : Nat) (t : Triple) (s : State) : Host.Outcome State Fault Refusal :=
  run s fun m =>
    match SMap.get m.boot.bist dom with
    | .due again =>
      if unpowered m then m
      else startBistEnds m dom again (bistResult (SMap.get m.bistExp (if dom < 40 then 0 else 3 + dom)) t)
    | _ => m

/-- AUDIT_DIGEST, R414: the digests of a bound application bank (0 A, 1 B) are recomputed. Where the SHA-384 engine's two data
paths differ the result is discarded and reported (R520), and the bank is still to be audited (DESIGN CHOICE,
notes/assumptions/120.md). -/
def execAuditDigest (bank : Nat) (mismatch : Bool) (s : State) : Host.Outcome State Fault Refusal :=
  run s fun m =>
    if !m.boot.audit.contains bank ∨ unpowered m then m
    else if mismatch then reportOpen m 0x0D3 kEngineMismatch 0
    else
      let m := updBoot m fun b => { b with audit := b.audit.filter fun k => k != bank }
      match digestsOk m (bank + 2) with
      | (m, true) => m
      | (m, false) => pent (countAttempt (updImg m (bank + 2) fun x => { x with st := .failed }) 13) 13 0xD (bank + 2) 1

end Sys2Proof.Machine
end

