-- ==== Sys2Proof/Machine/Dma.lean ====
section
/-! DEFINITION. Code-store line writes and the DMA agents (spec/06 R338 to R347). -/
namespace Sys2Proof.Machine

/-- CODE_STORE_LINE_WRITE, R341, R342: one line is written whole, or the write is refused. -/
def execCodeStoreLineWrite (w : Writer) (addr : Nat) (data : BitVec 1024) (s : State) : Host.Outcome State Fault Refusal :=
  run s fun m =>
    let a := addr / 128 * 128
    if regionOf m true a ≠ .store then m
    else if storeAllowed m w a then
      (List.range 8).foldl (fun m i => storeClean m (a + 16 * i) (data.toNat / 2 ^ (128 * i) % 2 ^ 128)) m
    else writeProtect m a

/-! ### The claim of a request -/

/-- What a job of Exesh may read or write at an address: the memory that Table 06.1 gives to DMA agents under the rules of Table
06.4, of which the key records are SEC's alone (R346). -/
def exeshByte (m : Dg) (write : Bool) (b : Nat) : Bool :=
  match regionOf m false b with
  | .canvas => true
  | .dram => true
  | .pcie => true
  | .store => if write then storeAllowed m .dma b else !keyRecord b
  | _ => false

/-- A byte is within reach of the jobs of a partition, or of Exesh with ID 0 (R346). -/
def jobByte (m : Dg) (pid : Nat) (write : Bool) (b : Nat) : Bool :=
  (if pid = 0 then exeshByte m write b else inSide m pid write b) && !(write && (ringAt m b 1).isSome)

/-- R346: the first byte of a span that is out of reach; none when the whole span is within reach. -/
def outOfReach (m : Dg) (pid : Nat) (write : Bool) (a len : Nat) : Option Nat :=
  firstRefused (reachEdges m (sideWindows m pid false)) (jobByte m pid write) a len

/-- R346, R348: a job out of reach, reported with the address of the first word concerned. -/
def dmaRefused (m : Dg) (a pid : Nat) (r : CfgRec) (tag b : Nat) : Dg :=
  dmaDone (report m 0x085 kDmaRefused a (wordOf b % 2 ^ 48) (tagPid pid)) r tag 1 0 0

/-- The fields of a request (Table 06.13) as a job. -/
def jobOf (msg : List Byte) : DmaJob :=
  ⟨leAt msg 16 2, leAt msg 18 1, bit (leAt msg 19 1) 0, leAt msg 24 8, leAt msg 32 8, leAt msg 40 8, leAt msg 48 16, 0,
   2 ^ 32 - 1⟩

/-- R346: the job is INVALID. -/
def jobInvalid (msg : List Byte) (j : DmaJob) : Bool :=
  msg.length != 64 || !(1 ≤ j.op && j.op ≤ 3) || j.len == 0 || 2 ^ 32 < j.len || 2 ≤ leAt msg 19 1 || leAt msg 20 4 != 0 ||
  (j.op == 2 && j.src != 0) || (j.op == 3 && j.dst != 0) || (j.op != 2 && j.pattern != 0)

/-- R345, R346: the oldest request of an agent's queue, if its OP is served by the row, is claimed and checked; it is
completed at once, or queued. A request waits while the completion queue is full (notes/assumptions/31.md), and one with FENCE
while an earlier job of its queue has not completed (R344). -/
def dmaClaim (m : Dg) (a slot : Nat) (mine : Nat → Bool) : Dg :=
  match dmaRec m a slot with
  | none => m
  | some r =>
    let room := !queueUsable m (getQ m (r.f 8 4)) || 0 < (getQ m (r.f 8 4)).free
    match hwPeek m (0x60 + a) (r.f 4 4) with
    | none => m
    | some (msg, code) =>
      let waits := bit (leAt msg 19 1) 0 && code == 0 && !(SMap.get (getAgent m a).jobs slot).isEmpty
      if !room || waits || !(mine (leAt msg 18 1) || code != 0) then m
      else match hwTake m (0x60 + a) (r.f 4 4) with
        | (m, none) => m
        | (m, some (msg, code)) =>
          let j := jobOf msg
          let pid := r.f 2 1
          if code ≠ 0 then m
          else if jobInvalid msg j then dmaDone m r j.tag 2 0 0
          else match if j.op = 2 then none else outOfReach m pid false j.src j.len with
            | some b => dmaRefused m a pid r j.tag b
            | none => match if j.op = 3 then none else outOfReach m pid true j.dst j.len with
              | some b => dmaRefused m a pid r j.tag b
              | none => updAgent m a fun x => { x with jobs := SMap.upd x.jobs slot fun l => l ++ [j] }

/-- DMA_COPY, R346; a request with an undefined OP is answered here too. -/
def execDmaCopy (agent slot : Nat) (s : State) : Host.Outcome State Fault Refusal :=
  run s fun m => dmaClaim m agent slot fun op => op != 2 && op != 3

/-- DMA_FILL, R346. -/
def execDmaFill (agent slot : Nat) (s : State) : Host.Outcome State Fault Refusal :=
  run s fun m => dmaClaim m agent slot fun op => op == 2

/-- DMA_CRC, R346. -/
def execDmaCrc (agent slot : Nat) (s : State) : Host.Outcome State Fault Refusal :=
  run s fun m => dmaClaim m agent slot fun op => op == 3

/-! ### A step -/

/-- Where the next piece of a job lies, and its length: what is left of one word of the destination (of the source for OP 3). An
overlapping copy upwards goes from its end. -/
def piece (j : DmaJob) : Nat × Nat :=
  let up := j.op == 1 && j.src < j.dst && j.dst < j.src + j.len
  let left := j.len - j.done
  if up then
    let n := min left ((j.dst + left - 1) % 16 + 1)
    (left - n, n)
  else (j.done, min left (16 - ((if j.op = 3 then j.src else j.dst) + j.done) % 16))

/-- Bytes of a source; those of the PCIe window are a free value (notes/assumptions/7.md). -/
def dmaRead (m : Dg) (a n : Nat) : Dg × Option (List Byte) :=
  if regionOf m true a = .pcie then
    let (m, v) := draw m
    (m, some (leBytes n v))
  else readSpan m viaPort1 a n

/-- A write of a DMA agent; one into the PCIe window leaves the module. -/
def dmaWrite (m : Dg) (a : Nat) (bs : List Byte) : Dg × Bool :=
  match regionOf m true a with
  | .pcie => (pcieWrote m [(a - pcieBase, bs)], true)
  | .store => if storeAllowed m .dma a then writeSpan m viaPort1 a bs else (writeProtect m a, false)
  | _ => writeSpan m viaPort1 a bs

/-- What a piece of a job ends in. -/
inductive PieceEnd where
  | moved (j : DmaJob)
  | memError
  | wcoll
  deriving DecidableEq, Repr

/-- The bytes that a piece writes. -/
def pieceData (m : Dg) (j : DmaJob) (off n : Nat) : Dg × Option (List Byte) :=
  if j.op = 2 then (m, some ((List.range n).map fun i => BitVec.ofNat 8 (j.pattern / 2 ^ (8 * ((off + i) % 16)))))
  else dmaRead m (j.src + off) n

/-- One piece of up to 16 bytes; `wcoll` collisions meet its write (R312). -/
def movePiece (m : Dg) (j : DmaJob) (wcoll : Nat) : Dg × PieceEnd :=
  let (off, n) := piece j
  match pieceData m j off n with
  | (m, none) => (m, .memError)
  | (m, some bs) =>
    if j.op = 3 then
      (m, .moved { j with done := j.done + n, crc := bs.foldl (fun c b => crcByteLsb 0x82F63B78 c b.toNat) j.crc })
    else
      let a := j.dst + off
      let hits := if regionOf m true a = .canvas then min wcoll 2 else 0
      let m := (List.range hits).foldl (fun m _ => collide m a) m
      if hits = 2 then (m, .wcoll)
      else match dmaWrite m a bs with
        | (m, false) => (m, .memError)
        | (m, true) => (m, .moved { j with done := j.done + n })

/-- The next piece meets a waking bank, and the job waits (R325). -/
def pieceWaits (m : Dg) (j : DmaJob) : Bool :=
  let (off, n) := piece j
  (j.op != 2 && (wakingAt m (j.src + off) || wakingAt m (j.src + off + n - 1))) || (j.op != 3 && wakingAt m (j.dst + off))

/-- A turn of up to `n` pieces: digit i of `wcoll` to the base 3 counts the collisions that the i-th piece meets. -/
def moveTurn (m : Dg) (j : DmaJob) (wcoll : Nat) : Nat → Dg × DmaJob × PieceEnd
  | 0 => (m, j, .moved j)
  | n + 1 =>
    if j.len ≤ j.done || pieceWaits m j then (m, j, .moved j)
    else match movePiece m j (wcoll % 3) with
      | (m, .moved j) => moveTurn m j (wcoll / 3) n
      | (m, e) => (m, j, e)

/-- The agent's first slot with a job, round robin. -/
def nextSlot (x : DmaAgent) : Option Nat :=
  ((List.range 16).map fun i => (x.next + i) % 16).find? fun i => !(SMap.get x.jobs i).isEmpty

/-- DMA_STEP, R344, R345, R347: the agent moves up to 4 KiB of the job whose turn it is. A job whose completion finds no
free slot stays (notes/assumptions/31.md). -/
def execDmaStep (agent wcoll : Nat) (s : State) : Host.Outcome State Fault Refusal :=
  run s fun m =>
    let x := getAgent m agent
    match nextSlot x with
    | none => m
    | some slot =>
      match dmaRec m agent slot, SMap.get x.jobs slot with
      | some r, j :: rest =>
        if queueUsable m (getQ m (r.f 8 4)) ∧ (getQ m (r.f 8 4)).free = 0 then
          updAgent m agent fun x => { x with next := (slot + 1) % 16 }
        else
          let put (m : Dg) (l : List DmaJob) : Dg :=
            updAgent m agent fun x => { x with jobs := SMap.set x.jobs slot l, next := (slot + 1) % 16 }
          match moveTurn m j wcoll 256 with
          | (m, j, .memError) => dmaDone (put m rest) r j.tag 3 0 j.done
          | (m, j, .wcoll) => dmaDone (put m rest) r j.tag 4 0 j.done
          | (m, j, .moved _) =>
            if j.done < j.len then put m (j :: rest)
            else dmaDone (put m rest) r j.tag 0 (if j.op = 3 then (2 ^ 32 - 1) - j.crc else 0) j.done
      | _, _ => m

end Sys2Proof.Machine
end

