-- ==== Sys2Proof/Machine/RegSpace.lean ====
section
/-! DEFINITION. The register space (spec/06 Table 06.12, R303; spec/00 R14 to R19, R609; spec/01 R77 to R80): the registers
that partitions see, block by block, and the writes that they accept. -/
namespace Sys2Proof.Machine

/-! ### Reads -/

/-- The context whose registers a context-relative read shows: a shadow pair reads the live group's (R435). -/
def regCtx (m : Dg) (c : CtxId) : CtxId := if isShadowCtx m c then m.boot.under.slot else c

/-- `i` with offset `lo + step × i` below `n`. -/
def index (off lo step n : Nat) : Option Nat :=
  if lo ≤ off ∧ (off - lo) % step = 0 ∧ (off - lo) / step < n then some ((off - lo) / step) else none

/-- STATE codes of Table 01.12 and role codes of Table 01.18. -/
def gstateCode : GState → Nat
  | .unused => 0
  | .full => 1
  | .degraded => 2
  | .reseating => 3
  | .halted => 4
  | .lost => 5

def roleCode : Role → Nat
  | .active => 0
  | .ready => 1
  | .testing => 2
  | .excluded => 3
  | .qm => 4
  | .shadow => 5
  | .untested => 6

def stModeCode : StMode → Nat
  | .t => 0
  | .d => 1
  | .q => 2

/-- STU_WHOAMI (Table 01.10). -/
def whoami (m : Dg) (c : CtxId) : Nat :=
  let c' := regCtx m c
  let pid := (getCtx m c).pid
  if isSup c then 0
  else if c' < 16 then pack [(6, pid), (2, 0), (5, c'), (3, 0), (6, 0x3F), (2, b2n (getGrp m c').pair)]
  else pack [(6, pid), (2, 0), (5, 0x1F), (3, 0), (6, c' - 16), (2, 2)]

/-- STU_SPAREs (Table 01.11). -/
def sparesWord (m : Dg) (s : Nat) : Nat :=
  let cond (c : Nat) : Option Nat := match (getCore m c).role with
    | .ready => some 0
    | .testing => some 1
    | .untested => some 2
    | _ => none
  let l := (coresOf s).filterMap fun c => (cond c).map fun k => (c, k)
  let a := (l[0]?).getD (0x3F, 3)
  let b := if (getStudio m s).mode == .d then (l[1]?).getD (0x3F, 3) else (0x3F, 3)
  pack [(6, a.1), (2, 0), (6, b.1), (2, 0), (2, a.2), (2, b.2), (4, (l.filter fun x => x.2 == 0).length)]

/-- The registers of a group slot (Tables 01.12 to 01.17) by index of the eight-byte words from its status. -/
def grpWord (m : Dg) (n i : Nat) : Option Nat :=
  let g := getGrp m n
  match i with
  | 0 => some (pack [(3, gstateCode g.shown), (1, b2n g.det), (1, b2n g.pair), (3, 0), (6, g.pid)])
  | 1 => some (pack [(6, g.laneA.getD 0x3F), (2, 0), (6, g.laneB.getD 0x3F), (2, 0), (6, g.laneC.getD 0x3F)])
  | 2 => some (pack [(32, g.cntFault), (32, g.cntPlanned)])
  | 3 => some (pack [(2, g.lastCause), (2, g.lastLane), (1, b2n g.lastAborted), (3, 0), (6, g.lastOld), (2, 0), (6, g.lastNew),
                     (10, 0), (16, g.lastPause)])
  | 4 => some (g.lastTime % 2 ^ 64)
  | 5 => some g.evt.flags
  | 6 => some (g.evt.ovrWord 3)
  | _ => none

/-- STU_COREc (Table 01.18). -/
def coreWord (m : Dg) (c : Nat) : Nat :=
  let k := getCore m c
  pack [(3, roleCode k.role), (1, 0), (5, k.slot), (2, k.lane), (2, testCode k.result), (3, 0), (48, k.lastPass)]

/-- The STU block as S11 fills it. -/
def stuFilled (m : Dg) (c : CtxId) (off : Nat) : Option Nat :=
  match off with
  | 0x00 => some 0x40A04
  | 0x08 => some (pack ((List.range 4).map fun s => (2, stModeCode (getStudio m s).mode)))
  | 0x10 => some (pack ((32, m.stu.rotInterval) :: (List.range 4).map fun s => (2, suspOf m s)))
  | 0x18 => some (whoami m c)
  | _ =>
    match index off 0x20 8 4, index off 0x800 8 40 with
    | some s, _ => some (sparesWord m s)
    | _, some k => some (coreWord m k)
    | none, none => if 0x100 ≤ off ∧ off < 0x500 then grpWord m ((off - 0x100) / 0x40) ((off - 0x100) % 0x40 / 8) else none

/-- The reset value of an STU register (Table 01.6). -/
def stuResetWord (off : Nat) : Nat :=
  if off = 0 then 0x40A04
  else if 0x20 ≤ off ∧ off < 0x40 then 0xF3F3F
  else if 0x100 ≤ off ∧ off < 0x500 ∧ (off - 0x100) % 0x40 = 8 then 0x3F3F3F
  else 0

/-- The STU block (Table 01.6): reset values until S11 fills it (R77). -/
def stuReg (m : Dg) (c : CtxId) (off : Nat) : Option Nat :=
  (stuFilled m c off).map fun v => if m.stu.filled then v else stuResetWord off

/-- FAB_Hh_INFO, FAB_Hh_FILL and FAB_Hh_ERR (Table 05.22, R301). -/
def handleWord (m : Dg) (c : CtxId) (h i : Nat) : Option Nat :=
  let e := handleOf m c h
  let (q, div) : Nat × Bool := match resolveQ m (regCtx m c) h e.dir with
    | .ok x => x
    | .error _ => (e.q, false)
  let x := getQ m e.q
  let y := getQ m q
  if 2 < i then none
  else if e.dir = 0 then some 0
  else match i with
    | 0 => some (pack [(18, e.q), (2, e.dir), (3, x.cls), (4, x.slotLog), (5, x.depthLog), (1, b2n div), (1, b2n x.broken),
                       (1, b2n x.dram), (1, b2n x.notify)])
    | 1 => some (pack [(17, y.count), (15, 0), (17, y.free)])
    | _ => some (pack [(8, x.crcErr), (8, x.seqErr), (8, x.otherErr)])

/-- The FAB block (Table 05.16, R297). -/
def fabReg (m : Dg) (c : CtxId) (off : Nat) : Option Nat :=
  let y := SMap.get m.fab.my (getCtx m c).pid
  match off with
  | 0x000 => some 0x0FFC0866
  | 0x008 => some m.fab.weights
  | 0x010 => some (q0Load m)
  | 0x100 => some y.evt.flags
  | 0x108 => some (y.evt.ovrWord 4)
  | 0x110 => some y.lastErr
  | 0x118 => some (y.lastTime % 2 ^ 64)
  | _ => if 0x80000 ≤ off ∧ off < 0xA0000 then handleWord m c ((off - 0x80000) / 0x20) ((off - 0x80000) % 0x20 / 8) else none

def bankPowerCode : BankPower → Nat
  | .off => 0
  | .on => 1
  | .retain => 2
  | .waking => 3

/-- The CNV block (Tables 06.6 to 06.9). -/
def cnvReg (m : Dg) (off : Nat) : Option Nat :=
  match off with
  | 0 => some 0x200012004
  | 8 => some (pack [(16, m.cnv.scrubS), (16, m.cnv.testS)])
  | _ =>
    match index off 0x100 8 4, index off 0x1000 8 128 with
    | some q, _ =>
      let x := getQuad m q
      some (pack [(6, x.free), (6, x.migBank), (13, x.migLine), (2, x.phase), (33, if m.cnv.filled then x.failed else 0)])
    | _, some k =>
      let b := SMap.get m.cnv.bank k
      let x := getQuad m (k / 32)
      let p := SMap.get x.remap (k % 32)
      some (pack [(2, bankPowerCode b.power), (1, b2n b.noTest), (1, b2n b.retSel), (1, b2n (x.phase == 1 && x.migBank == k % 32)),
        (1, b2n b.retLost), (6, if m.cnv.filled then p else 0), (2, (SMap.get x.phys p).test), (2, 0), (16, b.corr), (16, b.wcoll), (8, b.uncorr)])
    | none, none => none

/-- The DRC block (Table 06.10). -/
def drcReg (m : Dg) (off : Nat) : Option Nat :=
  match off with
  | 0 => some (pack [(28, m.drc.tmrFirst), (4, 0), (28, m.drc.tmrHidden)])
  | 8 => some (pack [(32, m.drc.corr), (16, m.drc.uncorr), (16, m.drc.tmrRepair)])
  | _ => none

/-- The CST block (Table 06.11): the shadow sees its own binding (R435). -/
def cstReg (m : Dg) (c : CtxId) (off : Nat) : Option Nat :=
  let w := (getCtx m c).appWin
  if off = 0 then some (pack [(1, b2n (w != 0)), (1, b2n (w == 2))]) else none

/-- The MBX block (Tables 07.19 to 07.23). -/
def mbxReg (m : Dg) (c : CtxId) (off : Nat) : Option Nat :=
  let pid := (getCtx m c).pid
  let e := SMap.get m.mbx.my pid
  match off with
  | 0x000 => some 0x04020020
  | 0x008 => some (pack [(3, m.mbx.state), (1, m.mbx.bank), (4, m.mbx.step), (3, m.mbx.lanes), (5, 0), (16, m.mbx.restarts),
                         (10, m.mbx.out.length)])
  | 0x010 => some (m.mbx.ver % 2 ^ 64)
  | 0x100 => some (ofBitList ((List.range 32).map fun k => requesterOf m k == pid))
  | 0x108 => some e.flags
  | 0x110 => some (e.ovrWord 3)
  | 0x118 => some (m.mbx.out.filter fun x => x.ep == pid).length
  | _ => none

/-- The FCR block (Tables 09.16, 09.17). -/
def fcrReg (m : Dg) (c : CtxId) (off : Nat) : Option Nat :=
  let y := SMap.get m.fcr.my (getCtx m c).pid
  match off with
  | 0x000 => some (pack [(2, maxSev m), (1, b2n !(unclearedList m).isEmpty), (1, b2n (errN m)), (1, b2n (safeN m)),
                         (1, b2n m.fcr.policyLoaded), (10, 0), (10, m.fcr.logNext), (6, 0), (16, m.fcr.overwritten)])
  | 0x008 => some m.fcr.pinSev
  | 0x100 => some y.evt.flags
  | 0x108 => some (y.evt.ovrWord 2)
  | 0x110 => some y.last0
  | 0x118 => some y.last1
  | _ => none

/-- The registers of a watchdog (Table 09.9); a shadow pair reads the second set (R488). -/
def wdgWord (m : Dg) (c : CtxId) (n i : Nat) : Option Nat :=
  let w := getWdg m n
  let r := w.get (usesSecond m c n)
  match i with
  | 0 => some (if w.configured then pack [(6, w.owner), (1, b2n (wdgRuns m n)), (1, b2n w.seqMode), (12, w.source), (16, w.prescM1)] else 0)
  | 1 => some (pack [(32, w.openT), (32, w.closeT)])
  | 2 => some (if wdgRuns m n then pack [(32, r.count w m.now), (1, b2n r.first), (5, r.pos)] else 0)
  | 3 => some r.nextKey
  | 4 => some 0
  | 5 => some 0
  | 6 => some (pack [(32, r.seen.toNat), (32, w.cpmask.toNat)])
  | 7 => some w.evt.flags
  | 8 => some (w.evt.ovrWord 4)
  | 9 => some w.firstClose
  | _ => none

/-- The WDG block (Table 09.8). -/
def wdgReg (m : Dg) (c : CtxId) (off : Nat) : Option Nat :=
  if off = 0 then some 0x0E2040
  else if 0x100 ≤ off ∧ off < 0x2100 then wdgWord m c ((off - 0x100) / 0x80) ((off - 0x100) % 0x80 / 8)
  else none

/-- SSQ_CHn_PROFILE and SSQ_CHn_STATE (Table 09.15). -/
def fixChWord (m : Dg) (n : Nat) (state : Bool) : Nat :=
  let x := getFixCh m n
  let e := m.fix.engaged
  let phase := if e then x.phase m.fix.tick else 0
  if state then pack [(16, if e then x.out else x.armed), (16, x.armed), (2, phase), (1, b2n (e && x.staleHeld)), (1, b2n x.never)]
  else pack [(16, x.safe), (14, x.holdMs), (2, 0), (14, x.rampMs), (2, 0), (10, x.staleMs), (6, x.owner)]

/-- The SSQ block (Table 09.14). -/
def ssqReg (m : Dg) (off : Nat) : Option Nat :=
  match off with
  | 0x00 => some 0x0000640100403060
  | 0x08 => some (pack [(1, b2n m.fix.engaged), (1, b2n m.fix.chipLvl), (1, b2n m.fix.rampsDone), (1, b2n m.fix.releasing), (12, 0),
                        (12, m.fix.causeSrc), (8, m.fix.causeKind)])
  | 0x10 => some (m.fix.engageTime % 2 ^ 64)
  | _ =>
    match index off 0x1000 8 416, index off 0x2000 8 256 with
    | some i, _ => some (fixChWord m (i / 2) (i % 2 == 1))
    | _, some k =>
      let x := SMap.get m.fix.fr k
      some (pack [(32, x.txcount), (8, x.counter), (1, b2n x.txerr)])
    | none, none => none

def cardCode : CardSt → Nat
  | .empty => 0
  | .present => 1
  | .active => 2
  | .authenticated => 3
  | .fault => 4

/-- The SEC block (Tables 10.14, 10.15). -/
def secReg (m : Dg) (off : Nat) : Option Nat :=
  match off with
  | 0x00 => some 0x0814627F
  | 0x08 => some (pack [(1, b2n m.sec.keysReady), (1, b2n m.sec.trngOk), (1, b2n m.sec.journalReady), (5, 0), (5, timeq m)])
  | 0x10 => some (utcMs m)
  | _ =>
    match index off 0x20 8 2 with
    | some i =>
      let k := getCard m (i + 1)
      some (pack [(3, cardCode k.st), (1, b2n k.clsB), (1, b2n k.protoT1), (11, 0), (16, cardRef m (i + 1))])
    | none => none

def canCode : CanSt → Nat
  | .disabled => 0
  | .active => 1
  | .passive => 2
  | .busOff => 3
  | .loopback => 4

def linCode : LinSt → Nat
  | .disabled => 0
  | .active => 1
  | .sleep => 2
  | .loopback => 3

def ethCode : EthSt → Nat
  | .disabled => 0
  | .down => 1
  | .up => 2
  | .loopback => 3

/-- The CAN and LIN block (Tables 11.13, 11.14). -/
def canReg (m : Dg) (off : Nat) : Option Nat :=
  match index off 0 8 16, index off 0x100 8 8 with
  | some n, _ =>
    let x := getCan m n
    some (pack [(3, canCode x.st), (1, b2n (m.fix.engaged && x.st != .disabled)), (4, 0), (8, x.tec), (8, x.rec_), (16, x.busoff),
                (16, x.rxDrop)])
  | _, some n =>
    let x := getLin m n
    some (pack [(2, linCode x.st), (1, b2n x.master), (13, 0), (16, x.errs)])
  | none, none => none

/-- The ETH block. -/
def ethReg (m : Dg) (off : Nat) : Option Nat :=
  if off = 0x100 then some (pack [(2, m.net.gptpSync), (6, 0), (8, m.net.gmPort)])
  else match index off 0 8 14 with
    | some p =>
      let x := getEth m p
      let st := if m.fix.engaged && p < 12 && x.st != .disabled then 4 else ethCode x.st
      some (pack [(3, st), (3, x.speed), (1, b2n x.macsec), (1, 0), (3, x.sqi), (5, 0), (16, x.linkdown), (16, x.drops)])
    | none => none

/-- The PCI block. -/
def pciReg (m : Dg) (off : Nat) : Option Nat :=
  let x := m.net.pci
  if off = 0 then
    some (pack [(1, b2n x.up), (3, x.gen), (3, x.width), (9, 0), (16, x.aerCorr), (16, x.aerUncorr), (16, x.cplTimeout)])
  else none

/-- PIO_TMRn. -/
def tmrWord (m : Dg) (n : Nat) : Nat :=
  let t := getTmr m n
  pack [(2, t.mode), (1, b2n (m.fix.engaged && (getFixCh m n).configured)), (13, 0), (16, if t.mode = 3 then t.duty else 0),
        (32, if t.mode = 1 then t.capture else t.value)]

/-- The PIO block. -/
def pioReg (m : Dg) (off : Nat) : Option Nat :=
  match off with
  | 0x400 => some (ofBitList ((List.range 48).map fun g => (getGpio m g).sensed))
  | 0x408 => some (ofBitList ((List.range 48).map fun g => (getGpio m g).level))
  | 0x700 => some (bits m.net.ign 0 2)
  | _ =>
    match index off 0 8 96, index off 0x500 8 24, index off 0x600 8 8 with
    | some n, _, _ => some (tmrWord m n)
    | _, some n, _ =>
      let x := SMap.get m.net.adc n
      some (pack [(12, x.sample), (4, 0), (1, b2n x.invalid)])
    | _, _, some n =>
      let x := SMap.get m.net.pulse n
      some (pack [(32, x.edges), (32, x.period)])
    | none, none, none => none

/-- The CLK block (Table 12.15). -/
def clkReg (m : Dg) (off : Nat) : Option Nat :=
  match off with
  | 0 => some (m.now % 2 ^ 64)
  | 8 => some (pack [(4, m.pwr.lock), (4, m.pwr.failover), (3, m.pwr.xtal),
                     (2, if bit m.net.gptpSync 0 then 1 else if m.sec.pps then 2 else 0)])
  | _ => none

/-- The PWR block (Table 12.15); BST has no register here. -/
def pwrReg (m : Dg) (off : Nat) : Option Nat :=
  if off = 0 then
    some (pack [(2, pmodeCode m.pwr.mode), (2, m.net.ign), (1, b2n m.pwr.inA.ok), (1, b2n m.pwr.inB.ok), (1, b2n !m.pwr.holdupLow),
                (9, 0), (16, m.pwr.inA.mv / 10), (16, m.pwr.inB.mv / 10), (12, ofInt 12 m.pwr.tj)])
  else none

/-- R303: the block and the offset of an address of the register space. -/
def regBlock (a : Nat) : Nat := (a - regBase) / 0x1000000
def regOff (a : Nat) : Nat := (a - regBase) % 0x1000000

/-- R609: the value of a partition-visible register; none for every other offset. -/
def regRead (m : Dg) (c : CtxId) (a : Nat) : Option Nat :=
  let off := regOff a
  match regBlock a with
  | 0x0 => stuReg m c off
  | 0x1 => fabReg m c off
  | 0x2 => cnvReg m off
  | 0x3 => drcReg m off
  | 0x4 => cstReg m c off
  | 0x5 => mbxReg m c off
  | 0x6 => fcrReg m c off
  | 0x7 => wdgReg m c off
  | 0x8 => ssqReg m off
  | 0x9 => secReg m off
  | 0xA => canReg m off
  | 0xB => ethReg m off
  | 0xC => pciReg m off
  | 0xD => pioReg m off
  | 0xE => clkReg m off
  | _ => pwrReg m off

/-- R19: the power domain of a block is off (Table 08.12). The spec names no domain block by block: the model takes the domain
whose hardware the block describes, FAB as dark when both fabric halves are off, and CNV, STU, MBX and the blocks of the
always-on domain as never dark (notes/assumptions/111.md). -/
def regDark (m : Dg) (a : Nat) : Bool :=
  let off (d : Nat) : Bool := !domOn m d
  match regBlock a with
  | 0x1 => off 48 && off 49
  | 0x3 => off 50
  | 0x4 => off 51
  | 0x9 => off 58
  | 0xA => off 52
  | 0xB => off 53
  | 0xC => off 57
  | 0xD => off 59
  | _ => false

/-- R97: a register access that is not 64 bits wide at an aligned address. -/
def regMisfit (a len : Nat) : Bool := len != 8 || a % 8 != 0

/-- A load of the register space (R97, R609, R19). A private offset has no value in the spec: Labazor-S reads a free value
(notes/assumptions/35.md). Where an offset is not partition-visible and its domain is off, R609 comes before R19: the spec gives
no order (notes/assumptions/111.md). -/
def regLoad (m : Dg) (c : CtxId) (a len : Nat) : Dg × Except Exn Nat :=
  if regMisfit a len then (m, .error (exnAt 5 1 a))
  else match regRead m c a with
    | some v => if regDark m a then (m, .error (exnAt 4 5 a)) else (m, .ok v)
    | none =>
      if isSup c then
        let (m, v) := draw m
        (m, .ok (v % 2 ^ 64))
      else match denied m c 0 a with
        | (m, some e) => (m, .error e)
        | (m, none) => (m, .ok 0)

/-! ### Writes -/

/-- What a write to an offset meets. -/
inductive RegW where
  /-- accepted: the register after it -/
  | done (m : Dg)
  /-- the register accepts it from some partition but not from this one -/
  | notYours
  /-- no partition may write the register -/
  | readOnly
  /-- not partition-visible -/
  | hidden

/-- W1C (R18, R80): the flags below `n` written 1 are cleared with their counters, those that `hw` sets at once apart. -/
def w1cEvt (e : Evt) (n v hw : Nat) : Evt :=
  (List.range n).foldl (fun e i => if bit v i && !bit hw i then e.clear i else e) e

/-- The partition of a context runs in a group slot. -/
def ownsSlot (m : Dg) (c : CtxId) (n : Nat) : Bool :=
  c < 16 && (getGrp m n).state != .unused && (getGrp m n).pid == (getCtx m c).pid && !isSup c

/-- The events that hardware sets in the cycle of a write: in a slot by the voter, for a partition by MBX and FCR, in a
watchdog. They do not depend on the write (R18). -/
def grpSets (n hw : Nat) (m : Dg) : Dg := ((List.range 3).filter (bit hw)).foldl (fun m i => grpEvt m n i) m
def mbxSets (pid hw : Nat) (m : Dg) : Dg := ((List.range 3).filter (bit hw)).foldl (fun m i => mbxEvt m pid i) m
def fcrSets (pid : Nat) (hw : List FcrHw) (m : Dg) : Dg :=
  hw.foldl (fun m e => fcrEvt m pid (b2n e.nmi) e.lo.toNat e.hi.toNat) m
def wdgSets (n hw : Nat) (m : Dg) : Dg := ((List.range 4).filter (bit hw)).foldl (fun m i => wdgEvt m n i false) m

/-- A write to STU_GRPn_EVT, but for the flags `hw` that the voter sets in the same cycle (R18, R78, R80, R435). -/
def writeGrpEvt (m : Dg) (c : CtxId) (n v hw : Nat) : RegW :=
  if isShadowCtx m c then .done m
  else if !ownsSlot m c n then .notYours
  else .done (updGrp m n fun g => { g with evt := w1cEvt g.evt 3 v hw })

/-- A write to MBX_MY_EVT (R18, R410, R435). -/
def writeMbxEvt (m : Dg) (c : CtxId) (v hw : Nat) : Dg :=
  if isShadowCtx m c then m
  else { m with mbx := { m.mbx with my := SMap.upd m.mbx.my (getCtx m c).pid fun e => w1cEvt e 3 v hw } }

/-- A write to FCR_MY_EVT (R18, R512, R435), but for the reactions of the same cycle. -/
def writeFcrEvt (m : Dg) (c : CtxId) (v : Nat) (hw : List FcrHw) : Dg :=
  let keep := hw.foldl (fun a e => a ||| (if e.nmi then 2 else 1)) 0
  if isShadowCtx m c then m
  else { m with fcr := { m.fcr with my := SMap.upd m.fcr.my (getCtx m c).pid fun y => { y with evt := w1cEvt y.evt 2 v keep } } }

/-- The owner of a watchdog (R487). -/
def ownsWdg (m : Dg) (c : CtxId) (n : Nat) : Bool :=
  !isSup c && (getWdg m n).configured && (getWdg m n).owner == (getCtx m c).pid

/-- Writes to the three writable registers of a watchdog (R484, R487, R490, R493); one whose owner does not run reports
nothing (R483). -/
def writeService (m : Dg) (c : CtxId) (n v : Nat) : RegW :=
  if !ownsWdg m c n then .notYours
  else .done (if wdgRuns m n then wdgService m n (usesSecond m c n) (bits v 0 16) else m)

def writeCheckin (m : Dg) (c : CtxId) (n v : Nat) : RegW :=
  if !ownsWdg m c n then .notYours
  else .done (if wdgRuns m n then wdgCheckin m n (usesSecond m c n) (bits v 0 5) else m)

def writeWdgEvt (m : Dg) (c : CtxId) (n v hw : Nat) : RegW :=
  if !ownsWdg m c n then .notYours
  else if usesSecond m c n then .done m
  else .done (updWdg m n fun w => { w with evt := w1cEvt w.evt 4 v hw })

/-- A write to an offset that has a behaviour of its own; none for the others. -/
def regOwn (m : Dg) (c : CtxId) (a v : Nat) : Option RegW :=
  let off := regOff a
  match regBlock a with
  | 0x0 => (index off 0x128 0x40 16).map fun n => writeGrpEvt m c n v 0
  | 0x1 => if off = 0x100 then some (.done (fabMyEvtWrite m c v [])) else none
  | 0x5 => if off = 0x108 then some (.done (writeMbxEvt m c v 0)) else none
  | 0x6 => if off = 0x100 then some (.done (writeFcrEvt m c v [])) else none
  | 0x7 =>
    match index off 0x120 0x80 64, index off 0x128 0x80 64, index off 0x138 0x80 64 with
    | some n, _, _ => some (writeService m c n v)
    | _, some n, _ => some (writeCheckin m c n v)
    | _, _, some n => some (writeWdgEvt m c n v 0)
    | none, none, none => none
  | _ => none

/-- A write to any offset. -/
def regWrite (m : Dg) (c : CtxId) (a v : Nat) : RegW :=
  match regOwn m c a v with
  | some r => r
  | none => if (regRead m c a).isSome then .readOnly else .hidden

/-- A refused register write: DATA_ACCESS with its detail, and ACCESS_DENIED for a group or QM core (R78, R609). -/
def regRefuse (m : Dg) (c : CtxId) (a detail : Nat) : Dg × Option Exn :=
  (if isSup c then m else ifaceReport m c kAccessDenied 1 a, some (exnAt 4 detail a))

/-- R78, R609: what becomes of a write. Labazor-S writes private registers, which the spec does not describe. -/
def regOutcome (m : Dg) (c : CtxId) (a : Nat) (r : RegW) : Dg × Option Exn :=
  match r with
  | .done m => (m, none)
  | .notYours => regRefuse m c a 1
  | .readOnly => regRefuse m c a 3
  | .hidden => if isSup c then (m, none) else regRefuse m c a 1

/-- A store to the register space (R97, R19). -/
def regStore (m : Dg) (c : CtxId) (a len v : Nat) : Dg × Option Exn :=
  if regMisfit a len then (m, some (exnAt 5 1 a))
  else if regDark m a && (regRead m c a).isSome then (m, some (exnAt 4 5 a))
  else regOutcome m c a (regWrite m c a v)

/-! ### The writes that the table names -/

/-- R133: a bit of a register that a partition may write, which is reserved and read-only (Table 09.9). -/
def bitInert (a i : Nat) : Bool :=
  regBlock a == 0x7 &&
  (((index (regOff a) 0x120 0x80 64).isSome && 16 ≤ i) || ((index (regOff a) 0x128 0x80 64).isSome && 5 ≤ i))

/-- A 64-bit write that a context makes, as one command, with the events `hw` of the same cycle, which take place whatever
becomes of the write (R18). A context that does not run issues none (R42, R51); an interrupt that is due comes first (R52, R144);
the write follows the older stores (R211); a block without power answers with an error (R19), and the exception of a refused
write is taken. -/
def regCommand (m : Dg) (c : CtxId) (a : Nat) (hw : Dg → Dg) (w : Dg → RegW) : Dg :=
  if !runnable m c then hw m
  else if irqDue (getCtx m c) && !stepping m c then takeIrq (hw m) c
  else if drainWaits m c || entryWaits m c 4 then hw m
  else
  let m := drainAll m c
  if regDark m a && (regRead m c a).isSome then takeExn (hw m) c (exnAt 4 5 a)
  else match w m with
    | .done m => hw m
    | r => match regOutcome (hw m) c a r with
      | (m, none) => m
      | (m, some e) => takeExn m c e

/-- STU_GRPN_EVT, R18, R78, R80. -/
def execStuGrpnEvt (c : CtxId) (n : Nat) (v : Word) (hw : BitVec 3) (s : State) : Host.Outcome State Fault Refusal :=
  run s fun m =>
    if 16 ≤ n then m else regCommand m c (regBase + 0x128 + 0x40 * n) (grpSets n hw.toNat) fun m => writeGrpEvt m c n v.toNat hw.toNat

/-- REGISTER_WRITE_DENIED, R15, R78, R609: a write to a register without behaviour of its own. -/
def execRegisterWriteDenied (c : CtxId) (addr : Nat) (v : Word) (s : State) : Host.Outcome State Fault Refusal :=
  run s fun m =>
    if addr < regBase ∨ 0x50000000 ≤ addr ∨ addr % 8 ≠ 0 ∨ (regOwn m c addr v.toNat).isSome then m
    else regCommand m c addr id fun m => regWrite m c addr v.toNat

/-- FAB_MY_EVT, R18, R298, R299; a write by a shadow has no effect (R435). -/
def execFabMyEvt (c : CtxId) (v : Word) (hw : List FabHw) (s : State) : Host.Outcome State Fault Refusal :=
  run s fun m =>
    let hw := hw.filter fun e => e.flag < 4
    regCommand m c (regBase + 0x1000100) (fabSets (getCtx m c).pid hw) fun m => .done (fabMyEvtWrite m c v.toNat hw)

/-- MBX_MY_EVT, R18, R410. -/
def execMbxMyEvt (c : CtxId) (v : Word) (hw : BitVec 3) (s : State) : Host.Outcome State Fault Refusal :=
  run s fun m =>
    regCommand m c (regBase + 0x5000108) (mbxSets (getCtx m c).pid hw.toNat) fun m => .done (writeMbxEvt m c v.toNat hw.toNat)

/-- FCR_MY_EVT, R18, R512. -/
def execFcrMyEvt (c : CtxId) (v : Word) (hw : List FcrHw) (s : State) : Host.Outcome State Fault Refusal :=
  run s fun m => regCommand m c (regBase + 0x6000100) (fcrSets (getCtx m c).pid hw) fun m => .done (writeFcrEvt m c v.toNat hw)

/-- WDG_WN_SERVICE, R484 to R488. -/
def execWdgWnService (c : CtxId) (n : Nat) (v : Word) (s : State) : Host.Outcome State Fault Refusal :=
  run s fun m => if 64 ≤ n then m else regCommand m c (regBase + 0x7000120 + 0x80 * n) id fun m => writeService m c n v.toNat

/-- WDG_WN_CHECKIN, R487, R490. -/
def execWdgWnCheckin (c : CtxId) (n : Nat) (v : Word) (s : State) : Host.Outcome State Fault Refusal :=
  run s fun m => if 64 ≤ n then m else regCommand m c (regBase + 0x7000128 + 0x80 * n) id fun m => writeCheckin m c n v.toNat

/-- WDG_WN_EVT, R18, R493. -/
def execWdgWnEvt (c : CtxId) (n : Nat) (v : Word) (hw : BitVec 4) (s : State) : Host.Outcome State Fault Refusal :=
  run s fun m =>
    if 64 ≤ n then m
    else regCommand m c (regBase + 0x7000138 + 0x80 * n) (wdgSets n hw.toNat) fun m => writeWdgEvt m c n v.toNat hw.toNat

end Sys2Proof.Machine
end

