-- ==== Sys2Proof/Machine/Easel.lean ====
section
/-! DEFINITION. Easel: its commands on pair 31 (spec/07 R398 to R401, Table 07.24), requests in Ethernet frames (R395), and
the instructions of the TAP (R396, R397, Table 07.25). -/
namespace Sys2Proof.Machine

/-! ### Targets -/

/-- The first invalid field of the target of a command (R398). -/
def targetFault (c : Cmd) : Option Nat :=
  let k := c.f 0 1
  if k = 0 ∨ 4 ≤ k then some 0
  else if c.f 1 1 ≠ 0 then some 1
  else if (if k = 1 then 16 else if k = 2 then 40 else 1) ≤ c.f 2 2 then some 2
  else none

/-- The attachment of a target. -/
def attached (m : Dg) (c : Cmd) : Option Attach :=
  m.easel.attach.find? fun t => t.tkind == c.f 0 1 && t.index == c.f 2 2

/-- The session of a command has the target attached. -/
def mine (m : Dg) (c : Cmd) : Bool := (attached m c).any fun t => t.session == c.session

/-- Labazor-S may be a target (R399). -/
def supAllowed (m : Dg) : Bool := m.boot.recovery || m.part.factory

/-- Checks that every Easel command makes: payload length and target, the supervisor target (`sup`: the command is one
that it accepts), stop protection (`guarded`), the addresses (`reach`), the attachment, and a halted target (`frozen`), R398 to R400,
in the order of Table 07.7. -/
def easelRefusal (m : Dg) (c : Cmd) (len : Nat) (field : Option Nat) (sup guarded frozen : Bool) (reach : Bool := true) :
    Option Reply :=
  if c.payload.length ≠ len then some badLen
  else match (targetFault c).or field with
    | some f => some (badField f)
    | none =>
      if c.f 0 1 = 3 ∧ !(sup && supAllowed m) then some (.err stDenied 6)
      else if guarded && protectedNow m (getCtx m c.target).pid then some (.err stDenied 3)
      else if !reach then some (.err stDenied 4)
      else if !mine m c then some (.err stBusy 5)
      else if frozen && !(halted m c.target) then some (.err stBusy 5)
      else if (frozen || c.op == 0x0095 || c.op == 0x0093) && stepping m c.target then some (.err stBusy 2)
      else none

/-- EASEL_ATTACH, R398. -/
def execEaselAttach (pair tag : Nat) (s : State) : Host.Outcome State Fault Refusal :=
  run s fun m => carryOut m pair tag 0x0092 fun m c =>
    if c.payload.length ≠ 4 then (m, badLen)
    else match targetFault c with
      | some f => (m, badField f)
      | none =>
        if c.f 0 1 = 3 ∧ !supAllowed m then (m, .err stDenied 6)
        else if (attached m c).isSome then (m, .err stBusy 5)
        else
          ({ m with easel := { m.easel with attach := m.easel.attach ++ [⟨c.f 0 1, c.f 2 2, c.session⟩] } }, .ok [])

/-- EASEL_DETACH, R398. -/
def execEaselDetach (pair tag : Nat) (s : State) : Host.Outcome State Fault Refusal :=
  run s fun m => carryOut m pair tag 0x0093 fun m c =>
    match easelRefusal m c 4 none true false false with
    | some r => (m, r)
    | none => match attached m c with
      | some t => (endAttach m t, .ok [])
      | none => (m, .err stBusy 5)

/-! ### Halts and steps -/

/-- A context that a halt can stop: a group with seated lanes, a QM core. -/
def haltable (m : Dg) (c : CtxId) : Bool :=
  if c < 16 then (match (getGrp m c).state with
    | .full => true
    | .degraded => true
    | .reseating => true
    | _ => false)
  else (getCore m (c - 16)).role == .qm

/-- The PC as a payload. -/
def pcBytes (m : Dg) (c : CtxId) : List Byte := leBytes 8 (getCtx m c).r.pc.toNat

/-- EASEL_HALT, R72, R73, R399: deferred while the group is re-seated, and left claimed in a revert window (Table 08.11).
The shadow pair's slot holds no group once the halt has ended the underpainting (R399). -/
def execEaselHalt (pair tag : Nat) (s : State) : Host.Outcome State Fault Refusal :=
  run s fun m => if m.boot.under.st == .revertWindow then m
    else carryOut m pair tag 0x0094 fun m c =>
      let x := c.target
      match easelRefusal m c 4 none false true false with
      | some r => (m, r)
      | none =>
        if !haltable m x then (m, .err stBusy 5)
        else if halted m x then (m, .ok (pcBytes m x))
        else
          let m := if x < 16 then abortUnderAt m (x / 4) 8 else m
          if !haltable m x then (m, .err stBusy 5)
          else if x < 16 && (getGrp m x).state == .reseating then (updGrp m x fun g => { g with haltDefer := true }, .wait)
          else (haltCtx m x true, .ok (pcBytes m x))

/-- EASEL_RESUME, R72: the context passes the breakpoint that it stands on. -/
def execEaselResume (pair tag : Nat) (s : State) : Host.Outcome State Fault Refusal :=
  run s fun m => carryOut m pair tag 0x0095 fun m c =>
    let x := c.target
    match easelRefusal m c 4 none false false false with
    | some r => (m, r)
    | none =>
      if halted m x then
        let m := haltCtx m x false
        ({ m with easel := { m.easel with pass := SMap.set m.easel.pass x true } }, .ok [])
      else (m, .ok [])

/-- EASEL_STEP, R72, R106: COUNT instructions retire, one at a time, and the context stays halted. -/
def execEaselStep (pair tag : Nat) (s : State) : Host.Outcome State Fault Refusal :=
  run s fun m => carryOut m pair tag 0x0096 fun m c =>
    let x := c.target
    let n := c.f 4 4
    match easelRefusal m c 8 (if n = 0 ∨ 65536 ≤ n then some 4 else none) false true true with
    | some r => (m, r)
    | none =>
      ({ m with easel := { m.easel with step := SMap.set m.easel.step x ⟨n, 0, c.tag⟩,
                                        pass := SMap.set m.easel.pass x true } }, .wait)

/-! ### Registers -/

/-- A NUMBER that names no register of a CLASS. -/
def regMissing (sup : Bool) (cls n : Nat) : Bool :=
  match cls with
  | 0 => 32 ≤ n
  | 1 => 16 ≤ n
  | 2 => 16 ≤ n || n % 4 == 3
  | 3 => 17 ≤ n
  | 4 => !csrExists sup n
  | _ => false

/-- CLASS and NUMBER of a register access: the first invalid field. -/
def regFault (c : Cmd) : Option Nat :=
  let cls := c.f 4 1
  let n := c.f 6 2
  if 6 ≤ cls then some 4
  else if c.f 5 1 ≠ 0 then some 5
  else if regMissing (c.f 0 1 == 3) cls n then some 6
  else none

/-- A register's value by CLASS and NUMBER. -/
def easelReg (p : Part) (sup : Bool) (r : Regs) (cls n : Nat) : Nat :=
  match cls with
  | 0 => (r.getD n).toNat
  | 1 => (r.getA n).toNat
  | 2 => (r.getAccPart (n / 4) (n % 4)).toNat
  | 3 => r.getSpecial n
  | 4 => (csrRead p sup r n).toNat
  | _ => r.pc.toNat

/-- A register written by CLASS and NUMBER. -/
def easelSetReg (cls n v : Nat) (r : Regs) : Regs :=
  match cls with
  | 0 => r.setD n (BitVec.ofNat 128 v)
  | 1 => r.setA n (BitVec.ofNat 64 v)
  | 2 => r.setAccPart (n / 4) (n % 4) (BitVec.ofNat 128 v)
  | 3 => r.setSpecial n v
  | 4 => csrWrite r n (v % 2 ^ 64)
  | _ => { r with pc := BitVec.ofNat 48 v }

/-- EASEL_REG_READ, R75: between a load and its shadow the load's destination reads as the shadow reads it. -/
def execEaselRegRead (pair tag : Nat) (s : State) : Host.Outcome State Fault Refusal :=
  run s fun m => carryOut m pair tag 0x0097 fun m c =>
    match easelRefusal m c 8 (regFault c) true false false with
    | some r => (m, r)
    | none => (m, .ok (leBytes 16 (easelReg m.part (c.f 0 1 == 3) (getCtx m c.target).r (c.f 4 1) (c.f 6 2))))

/-- Registers of a context changed from outside: those that a load's shadow still holds take the same change. -/
def patchRegs (x : Ctx) (f : Regs → Regs) (isA : Bool) (reg : Option Nat) (v : Nat) : Ctx :=
  { x with r := f x.r,
           load := x.load.map fun l =>
             { l with before := f l.before, value := if l.isA == isA && reg == some l.reg then BitVec.ofNat 128 v else l.value } }

/-- A value that a register does not take: a read-only CSR, a reserved encoding, an address that no instruction has; and
MODE STR, which only EASEL_STR sets (R89). -/
def badRegValue (m : Dg) (c : Cmd) : Option Nat :=
  let n := c.f 6 2
  let v := c.f 8 16
  if c.f 4 1 = 4 then
    (if csrRo n then some 6
     else if csrReserved n (v % 2 ^ 64) ∨ (n = 0 ∧ bits v 0 2 = 2 ∧ (getCtx m c.target).r.mode ≠ .str) then some 8 else none)
  else if c.f 4 1 = 5 then (if v % 4 ≠ 0 ∨ 2 ^ 48 ≤ v then some 8 else none)
  else none

/-- R17: the write would be made, but for a reserved encoding in a CSR. -/
def reservedCsrValue (m : Dg) (c : Cmd) : Bool :=
  c.f 4 1 == 4 && (easelRefusal m c 24 (regFault c) false true true).isNone && !csrRo (c.f 6 2) &&
  csrReserved (c.f 6 2) (c.f 8 16 % 2 ^ 64)

/-- EASEL_REG_WRITE, R75; a reserved encoding is refused and reported (R17). -/
def execEaselRegWrite (pair tag : Nat) (s : State) : Host.Outcome State Fault Refusal :=
  run s fun m => carryOut m pair tag 0x0098 fun m c =>
    let cls := c.f 4 1
    let n := c.f 6 2
    let v := c.f 8 16
    match easelRefusal m c 24 ((regFault c).or (badRegValue m c)) false true true with
    | some r => (if reservedCsrValue m c then ctxReport m c.target kRegReserved else m, r)
    | none =>
      (updCtx m c.target fun x =>
        patchRegs x (easelSetReg cls n v) (cls == 1) (if cls = 0 ∨ cls = 1 then some n else none) v, .ok [])

/-! ### Memory -/

/-- A Vendor session of a part in the factory (R400). -/
def vendorReach (m : Dg) (c : Cmd) : Bool := m.part.factory && c.role m == 1

/-- R400: the whole memory map, for a Vendor session but the ROM, and never the key records, which only SEC reads (Table 06.4,
notes/assumptions/30.md). -/
def mapReach (m : Dg) (rom : Bool) (a len : Nat) : Bool :=
  let reg := regionOf m true a
  spanIn m true reg a len && reg != .unmapped && reg != .sram && (rom || reg != .rom) &&
  !(a < 0x76000000 && 0x75F00000 < a + len)

/-- A span lies in access windows of a context, ring windows among them, in memory that Table 06.1 opens to it. -/
def windowReach (m : Dg) (x : CtxId) (write : Bool) (a len : Nat) : Bool :=
  (firstRefused (reachEdges m (getCtx m x).windows) (fun b => partitionMem m b && inWindow m x (b2n write) b 1) a len).isNone

/-- R400: the addresses that a memory command may reach. -/
def easelReach (m : Dg) (c : Cmd) (write : Bool) (a len : Nat) : Bool :=
  let x := c.target
  if vendorReach m c then mapReach m false a len
  else if isSup x then mapReach m true a len
  else match regionOf m false a with
    | .regs => a + len ≤ 0x50000000 && (List.range (len / 8)).all fun i => (regRead m x (a + 8 * i)).isSome
    | .window => !write && (getCtx m x).appWin != 0 && a + len ≤ 0x18000000
    | _ => windowReach m x write a len

/-- ADDR and LEN of a memory command: the first invalid field (Table 07.24, R400). -/
def memFault (m : Dg) (c : Cmd) (most : Nat) : Option Nat :=
  let a := c.f 8 8
  let len := c.f 16 4
  let reg := regionOf m true a == .regs
  if c.f 4 4 ≠ 0 then some 4
  else if reg ∧ a % 8 ≠ 0 then some 8
  else if len = 0 ∨ most < len ∨ (reg ∧ len % 8 ≠ 0) then some 16
  else none

/-- Registers read in ascending order; one that the spec does not describe is a free value (notes/assumptions/35.md), one
of a dark block an error. -/
def easelReadRegs (m : Dg) (x : CtxId) (a : Nat) : Nat → Dg × Option (List Byte)
  | 0 => (m, some [])
  | n + 1 =>
    let (m, v) := match regRead m x a with
      | some v => (m, v)
      | none => draw m
    if regDark m a then (m, none)
    else match easelReadRegs m x (a + 8) n with
      | (m, some l) => (m, some (leBytes 8 v ++ l))
      | (m, none) => (m, none)

/-- Bytes as Easel reads them, through Canvas port 1; those of the PCIe window are a free value (notes/assumptions/7.md). -/
def easelReadMem (m : Dg) (x : CtxId) (a len : Nat) : Dg × Option (List Byte) :=
  match regionOf m true a with
  | .regs => easelReadRegs m x a (len / 8)
  | .pcie =>
    let (m, v) := draw m
    (m, some (leBytes len v))
  | .window => if (getCtx m x).appWin = 0 then (m, none) else readSpan m viaPort1 (busAddr m x a) len
  | _ => readSpan m viaPort1 a len

/-- EASEL_MEM_READ, R400. -/
def execEaselMemRead (pair tag : Nat) (s : State) : Host.Outcome State Fault Refusal :=
  run s fun m => carryOut m pair tag 0x0099 fun m c =>
    let a := c.f 8 8
    let len := c.f 16 4
    match easelRefusal m c 20 (memFault m c 4064) true false false (easelReach m c false a len) with
    | some r => (m, r)
    | none => match easelReadMem m c.target a len with
      | (m, some l) => (m, .ok l)
      | (m, none) => (m, .err stFailed 6)

/-- Registers written in ascending order; the flag tells that all were. -/
def easelWriteRegs (m : Dg) (x : CtxId) (a : Nat) (bs : List Byte) : Nat → Dg × Bool
  | 0 => (m, true)
  | n + 1 =>
    if regDark m a then (m, false)
    else match regWrite m x a (leAt bs 0 8) with
      | .done m => easelWriteRegs m x (a + 8) (bs.drop 8) n
      | _ => easelWriteRegs m x (a + 8) (bs.drop 8) n

/-- R400: a register that the target's context may not write is outside the reach. -/
def regsWritable (m : Dg) (c : Cmd) (a n : Nat) : Bool :=
  vendorReach m c || (List.range n).all fun i => match regWrite m c.target (a + 8 * i) 0 with
    | .done _ => true
    | _ => false

/-- Bytes written by Easel; those before an error stay. A write to the code store is one of Exesh, which carries it out (R341). -/
def easelWriteMem (m : Dg) (x : CtxId) (a : Nat) (bs : List Byte) : Dg × Bool :=
  match regionOf m true a with
  | .regs => easelWriteRegs m x a bs (bs.length / 8)
  | .pcie => (pcieWrote m [(a - pcieBase, bs)], true)
  | .window => (m, false)
  | .store =>
    match (spanWords a bs.length).find? fun w => !storeAllowed m .supervisor w with
    | some w => (writeProtect (writeSpan m viaPort1 a (bs.take (w - a))).1 w, false)
    | none => writeSpan m viaPort1 a bs
  | _ => writeSpan m viaPort1 a bs

/-- R400: the addresses that EASEL_MEM_WRITE may write. -/
def easelWritable (m : Dg) (c : Cmd) (a len : Nat) : Bool :=
  easelReach m c true a len && (regionOf m true a != .regs || regsWritable m c a (len / 8))

/-- EASEL_MEM_WRITE, R400. -/
def execEaselMemWrite (pair tag : Nat) (s : State) : Host.Outcome State Fault Refusal :=
  run s fun m => carryOut m pair tag 0x009A fun m c =>
    let a := c.f 8 8
    let len := c.f 16 4
    match easelRefusal m c (24 + len) ((memFault m c 4040).or (if c.f 20 4 ≠ 0 then some 20 else none)) false true true
        (easelWritable m c a len) with
    | some r => (m, r)
    | none => match easelWriteMem m c.target a (c.payload.drop 24) with
      | (m, true) => (m, .ok [])
      | (m, false) => (m, .err stFailed 6)

/-! ### Break units, STR mode, trace -/

/-- EASEL_BREAK, R75. -/
def execEaselBreak (pair tag : Nat) (s : State) : Host.Outcome State Fault Refusal :=
  run s fun m => carryOut m pair tag 0x009B fun m c =>
    let u := c.f 4 1
    let acc := c.f 6 1
    let f :=
      if 8 ≤ u then some 4
      else if 2 ≤ c.f 5 1 then some 5
      else if 4 ≤ u ∧ (acc = 0 ∨ 4 ≤ acc) then some 6
      else if c.f 7 1 ≠ 0 then some 7
      else none
    match easelRefusal m c 24 f false false false with
    | some r => (m, r)
    | none =>
      ({ m with easel := { m.easel with brk := SMap.set m.easel.brk (8 * c.target + u)
                                                 ⟨c.f 5 1 == 1, acc, c.f 8 8, c.f 16 8⟩ } }, .ok [])

/-- EASEL_STR, R89: into STR mode, or from it back to Supervisor mode. -/
def execEaselStr (pair tag : Nat) (s : State) : Host.Outcome State Fault Refusal :=
  run s fun m => carryOut m pair tag 0x009C fun m c =>
    match easelRefusal m c 5 (if 2 ≤ c.f 4 1 then some 4 else none) false true true with
    | some r => (m, r)
    | none =>
      let f (r : Regs) : Regs :=
        { r with mode := if c.f 4 1 = 1 then .str else if r.mode = .str then .supervisor else r.mode }
      (updCtx m c.target fun x => patchRegs x f false none 0, .ok [])

/-- EASEL_TRACE, R400: a buffer inside the target's windows; the count since trace was enabled. -/
def execEaselTrace (pair tag : Nat) (s : State) : Host.Outcome State Fault Refusal :=
  run s fun m => carryOut m pair tag 0x009D fun m c =>
    let x := c.target
    let on := c.f 4 1 == 1
    let (buf, len) := (c.f 8 8, c.f 16 4)
    let f := if 2 ≤ c.f 4 1 then some 4 else if c.f 5 3 ≠ 0 then some 5 else if len % 16 ≠ 0 then some 16 else none
    match easelRefusal m c 20 f false false false (!on || (0 < len && windowReach m x true buf len)) with
    | some r => (m, r)
    | none =>
      let t := SMap.get m.easel.trace x
      let t' : Trace := if on then ⟨true, buf, len, 0⟩ else { t with enable := false }
      ({ m with easel := { m.easel with trace := SMap.set m.easel.trace x t' } }, .ok (leBytes 4 t'.written))

/-! ### Transports -/

/-- The message bytes 16 onward of a request, and the tag in them. -/
def reqLen (l : List Byte) : Nat := 16 + leAt l 8 4

/-- The bridge publishes a request on 0x3FF3E with SRC 0x3F; an Ethernet request leaves its port and source address for
the response (R395). -/
def bridgeRequest (m : Dg) (l : List Byte) (mac : Option (Nat × Nat)) : Dg :=
  match hwPublish m (reqQ 31) 0x3F l with
  | (m, false) => m
  | (m, true) => { m with easel := { m.easel with macs := m.easel.macs ++ [(leAt l 0 2, mac)] } }

/-- EASEL_FRAME_RECEIVED, R395: a frame of EtherType 0x88B5 for the Easel address, `mac` its source; the request ends where
its PLEN says, before the padding of a short frame. -/
def execEaselFrameReceived (port mac : Nat) (payload : List Byte) (s : State) : Host.Outcome State Fault Refusal :=
  run s fun m =>
    let accepts : Bool := match portRec m port with
      | some r => bit (r.f 2 1) 0 && bit (r.f 2 1) 4
      | none => false
    if 12 ≤ port ∨ (getEth m port).st ≠ .up ∨ !accepts ∨ (recs m 0x0021).isEmpty then m
    else if maxFrame m port < payload.length + 14 ∨ leAt payload 0 1 ≠ 31 ∨ leAt payload 1 1 ≠ 0 then m
    else
      let l := payload.drop 2
      bridgeRequest m (l.take (reqLen l)) (some (port, mac))

/-- A TAP instruction is selected: away from EXTEST nothing is driven; the data register captures a value. -/
def tapSelect (m : Dg) (ir dr : Nat) : Dg :=
  { m with easel := { m.easel with ir := ir, dr := dr, driven := if ir = 0 then m.easel.driven else none } }

/-- R396: the digital signal lands of Table 12.10 that the boundary-scan register covers: CAN, LIN, MDC and MDIO, the cards, GNSS,
timers, pulse inputs, GPIO, the ignition inputs, ERR_N and SAFE_N, FTEST_N (notes/assumptions/124.md). -/
def boundaryLands : List Nat := [32, 16, 2, 14, 3, 88, 8, 33, 2, 2, 1]

/-- The length of the boundary-scan register, one cell for each land (notes/assumptions/124.md). -/
def boundaryLength : Nat := boundaryLands.sum

/-- R396: EXTEST may drive the lands. -/
def extestAllowed (m : Dg) : Bool :=
  m.part.factory ||
  (m.boot.recovery && m.mbx.sessions.any fun s => s.pair == 31 && s.auth && (s.role == 1 || s.role == 2 || s.role == 3))

/-- R396: the levels that EXTEST drives onto the lands now: none once its condition has ended. -/
def landsDriven (m : Dg) : Option Nat := if extestAllowed m then m.easel.driven else none

/-- SAMPLE/PRELOAD: the levels of the lands are captured, in a cell order that the spec does not give (a free value,
notes/assumptions/7.md), and the boundary-scan register takes the value shifted in. -/
def preload (m : Dg) (ir bits : Nat) : Dg :=
  let (m, v) := draw m
  let m := tapSelect m ir (v % 2 ^ boundaryLength)
  { m with easel := { m.easel with bsr := bits % 2 ^ boundaryLength } }

/-- EXTEST, R396: it holds levels for the lands, which are driven while the rule allows it. -/
def execExtest (bits : Nat) (s : State) : Host.Outcome State Fault Refusal :=
  run s fun m =>
    let m := preload m 0x00 bits
    { m with easel := { m.easel with driven := some m.easel.bsr } }

/-- SAMPLE_PRELOAD, Table 07.25. -/
def execSamplePreload (bits : Nat) (s : State) : Host.Outcome State Fault Refusal :=
  run s fun m => preload m 0x02 bits

/-- IDCODE, Table 07.25. -/
def execIdcode (s : State) : Host.Outcome State Fault Refusal :=
  run s fun m => tapSelect m 0x01 (pack [(1, 1), (11, Config.jepCode.toNat), (16, 0x0D69), (4, m.part.stepDigit)])

/-- BYPASS, Table 07.25, R396: selected by its own code and by every code that the table does not list; the bypass register
captures 0 (IEEE 1149.1). -/
def execBypass (s : State) : Host.Outcome State Fault Refusal :=
  run s fun m => tapSelect m 0xFF 0

/-- MBOX_STATUS.REQ_FREE: the bridge can publish a further request. -/
def reqFree (m : Dg) : Bool := queueUsable m (getQ m (reqQ 31)) && 0 < (getQ m (reqQ 31)).free

/-- MBOX_WR, R397. -/
def execMboxWr (w : BitVec 32) (s : State) : Host.Outcome State Fault Refusal :=
  run s fun m =>
    let m := tapSelect m 0x10 w.toNat
    if !reqFree m then { m with easel := { m.easel with overrun := true } }
    else
      let l := m.easel.reqBuf ++ leBytes 4 w.toNat
      if 12 ≤ l.length ∧ reqLen l ≤ l.length then
        bridgeRequest { m with easel := { m.easel with reqBuf := [] } } (l.take (reqLen l)) none
      else { m with easel := { m.easel with reqBuf := l } }

/-- The oldest response, when it answers a request of the TAP. -/
def tapResponse (m : Dg) : Option (List Byte) :=
  ((hwPeek m 0x3F (respQ 31)).map (·.1)).filter fun msg => (easelReturn m msg).isNone

/-- MBOX_RD, R397. -/
def execMboxRd (s : State) : Host.Outcome State Fault Refusal :=
  run s fun m =>
    match tapResponse m with
    | none => tapSelect m 0x11 0
    | some msg =>
      let l := msg.drop 16
      let p := m.easel.respPos
      let m := tapSelect m 0x11 (leAt l p 4)
      if l.length ≤ p + 4 then
        let m := takeEaselResp m msg
        { m with easel := { m.easel with respPos := 0 } }
      else { m with easel := { m.easel with respPos := p + 4 } }

/-- Responses that wait. -/
def responsesWaiting (m : Dg) : Nat := if queueUsable m (getQ m (respQ 31)) then (getQ m (respQ 31)).count else 0

/-- MBOX_STATUS, R397: the capture that returns OVERRUN clears it. -/
def execMboxStatus (s : State) : Host.Outcome State Fault Refusal :=
  run s fun m =>
    let v := pack [(1, b2n (reqFree m)), (1, b2n (tapResponse m).isSome), (1, b2n m.easel.overrun), (5, 0), (8, responsesWaiting m)]
    let m := tapSelect m 0x12 v
    { m with easel := { m.easel with overrun := false } }

end Sys2Proof.Machine
end

