-- ==== Sys2Proof/Machine/FpOps.lean ====
section
/-! DEFINITION. Floating-point instructions (spec/03 R175 to R195). -/
namespace Sys2Proof.Machine

/-- R180: the rounding mode of FN[2:0]; none for the reserved codes. -/
def roundOf (r : Regs) (fn : Nat) : Option Nat :=
  match bits fn 0 3 with
  | 0 => some (bits r.fpcr.toNat 0 3)
  | 6 => none
  | 7 => none
  | k => some k

/-- R181, R191: the results are written and the flags join FPSR, or an enabled exception traps. DETAIL
holds the flags in the order of FPSR, NV in bit 0 (DEDUCED, notes/assumptions/117.md). -/
def fpFinish (op w : Nat) (f : Rrr) (o : FpOut) (m : Dg) (src base : Regs) : IRes :=
  match o.trapElem (fpEnables src) with
  | some i => .trap m { exn 10 o.all with fpti := some (fptiWord i op f.w.toNat) }
  | none => regs m (joinFlags (base.setD f.d.toNat (o.quad w)) o.all)

/-- UFE: a tiny result traps even when it is exact (R182). -/
def ufe (r : Regs) : Bool := bit r.fpcr.toNat 7

/-- The floating-point instructions except FCVT; `badFn` and `rsv` are the undefined codes and reserved fields of the
row. On Labazor-S every one is ILLEGAL (R91). -/
def fpBody (c : CtxId) (op : Nat) (rounds badFn rsv : Bool) (f : Rrr) (m : Dg) (src base : Regs) : IRes :=
  let rm := if rounds then roundOf src f.fn.toNat else some 1
  checked [((fpWidth f.w).isNone || rm.isNone || badFn, 2), (rsv, 3), (isSup c, 9)] (fun m src base =>
    let w := (fpWidth f.w).getD 32
    let o := fpElems op f.fn.toNat (rm.getD 1) w (ufe src) (src.getD f.d.toNat) (src.getD f.s1.toNat) (src.getD f.s2.toNat)
    fpFinish op w f o m src base) m src base

/-- R189: FCVT. -/
def fcvtBody (c : CtxId) (f : Rrr) (m : Dg) (src base : Regs) : IRes :=
  let fn := f.fn.toNat
  let kind := bits fn 3 4
  let s2 := f.s2.toNat
  let rm := roundOf src fn
  let w := if kind = 3 ∨ kind = 4 then intWidth f.w else fpWidth f.w
  let code : BitVec 3 := BitVec.ofNat 3 s2
  let sw := if kind ≥ 5 then w else if kind = 1 ∨ kind = 2 then intWidth code else fpWidth code
  let rsv : Bool := if 5 ≤ kind then s2 != 0 else bits s2 3 2 != 0
  checked [(7 ≤ kind || rm.isNone || w.isNone || sw.isNone, 2), (rsv, 3), (isSup c, 9)] (fun m src base =>
    let w := w.getD 32
    fpFinish 0x38 w f (fpCvt kind (rm.getD 1) w (sw.getD 32) (ufe src) (src.getD f.s1.toNat)) m src base) m src base

/-- FADD, R184. -/
def execFadd (c : CtxId) (f : Rrr) (s : State) : Host.Outcome State Fault Refusal :=
  run s fun m => instr m c 4 (fpBody c 0x30 true false (bits f.fn.toNat 3 4 != 0) f)

/-- FSUB, R184. -/
def execFsub (c : CtxId) (f : Rrr) (s : State) : Host.Outcome State Fault Refusal :=
  run s fun m => instr m c 4 (fpBody c 0x31 true false (bits f.fn.toNat 3 4 != 0) f)

/-- FMUL, R184. -/
def execFmul (c : CtxId) (f : Rrr) (s : State) : Host.Outcome State Fault Refusal :=
  run s fun m => instr m c 4 (fpBody c 0x32 true false (bits f.fn.toNat 3 4 != 0) f)

/-- FDIV, R184. -/
def execFdiv (c : CtxId) (f : Rrr) (s : State) : Host.Outcome State Fault Refusal :=
  run s fun m => instr m c 4 (fpBody c 0x33 true false (bits f.fn.toNat 3 4 != 0) f)

/-- FSQRT, R184, R195. -/
def execFsqrt (c : CtxId) (f : Rrr) (s : State) : Host.Outcome State Fault Refusal :=
  run s fun m => instr m c 4 (fpBody c 0x34 true false (bits f.fn.toNat 3 4 != 0 || f.s2 != 0) f)

/-- FMA, R185. -/
def execFma (c : CtxId) (f : Rrr) (s : State) : Host.Outcome State Fault Refusal :=
  run s fun m => instr m c 4 (fpBody c 0x35 true false (bits f.fn.toNat 5 2 != 0) f)

/-- FMIN, R186. -/
def execFmin (c : CtxId) (f : Rrr) (s : State) : Host.Outcome State Fault Refusal :=
  run s fun m => instr m c 4 (fpBody c 0x36 false (2 ≤ f.fn.toNat) false f)

/-- FMAX, R186. -/
def execFmax (c : CtxId) (f : Rrr) (s : State) : Host.Outcome State Fault Refusal :=
  run s fun m => instr m c 4 (fpBody c 0x37 false (2 ≤ f.fn.toNat) false f)

/-- FCMP, R187. -/
def execFcmp (c : CtxId) (f : Rrr) (s : State) : Host.Outcome State Fault Refusal :=
  run s fun m => instr m c 4 (fpBody c 0x39 false (7 ≤ f.fn.toNat) false f)

/-- FCLASS, R188. -/
def execFclass (c : CtxId) (f : Rrr) (s : State) : Host.Outcome State Fault Refusal :=
  run s fun m => instr m c 4 (fpBody c 0x3A false (f.fn != 0) (f.s2 != 0) f)

/-- FSGN, R184. -/
def execFsgn (c : CtxId) (f : Rrr) (s : State) : Host.Outcome State Fault Refusal :=
  run s fun m => instr m c 4 (fpBody c 0x3B false (3 ≤ f.fn.toNat) false f)

/-- FCVT, R189. -/
def execFcvt (c : CtxId) (f : Rrr) (s : State) : Host.Outcome State Fault Refusal :=
  run s fun m => instr m c 4 (fcvtBody c f)

end Sys2Proof.Machine
end

