-- ==== Sys2Proof/Machine/QueueOps.lean ====
section
/-! DEFINITION. Queue instructions (spec/05 R267 to R274, Tables 05.7 to 05.10). -/
namespace Sys2Proof.Machine

/-- R273: a refused operation: QUEUE with the code, the queue and the handle, and the report of Table 05.10. -/
def queueTrap (m : Dg) (c : CtxId) (h code : Nat) : IRes :=
  .trap (refuseReport m c h code) (exnAt 13 code (pack [(18, (handleOf m c h).q), (12, h)]))

/-- The state as the dequeue of a load still outstanding will leave it: an operation in its shadow follows it (R213). -/
def afterDeq (m : Dg) (c : CtxId) : Dg := moveDeq m (((getCtx m c).load.map (·.deq)).getD none)

/-- R268, R269, R213: publication of `n` slots after every older store; `dest` receives the producer status. -/
def publishBody (c : CtxId) (h n : Nat) (dest : Option Nat) (m : Dg) (base : Regs) : IRes :=
  if drainWaits m c then .hold m else
  let m := showStores m c
  match resolveQ (afterDeq m c) c h 1 with
  | .error code => queueTrap m c h code
  | .ok (q, div) =>
    match publishRefusal m (getQ (afterDeq m c) q) n with
    | some code => queueTrap m c h code
    | none =>
      let m := publish m q n (getCtx m c).pid h
      let r := match dest with
        | some d => base.setD d (prodStatus (getQ (afterDeq m c) q) div)
        | none => base
      .done m r none none [0x11]

/-- ENQ, R268. -/
def execEnq (c : CtxId) (f : QueF) (s : State) : Host.Outcome State Fault Refusal :=
  run s fun m => instr m c 4 (checked [(f.fn != 0, 2), (f.rsv != 0, 3)] fun m _ base =>
    publishBody c f.h.toNat 1 (some f.d.toNat) m base)

/-- DOORBELL, R269: n is bits [15:0] of Dd. -/
def execDoorbell (c : CtxId) (f : QueF) (s : State) : Host.Outcome State Fault Refusal :=
  run s fun m => instr m c 4 (checked [(f.fn != 0, 2), (f.rsv != 0, 3)] fun m src base =>
    publishBody c f.h.toNat (bits (src.getD f.d.toNat).toNat 0 16) none m base)

/-- R270: DEQ (FN 0) and DEQ.REL (FN 1), loads whose index changes and whose count wait for retirement (R213, R103). -/
def deqBody (c : CtxId) (f : QueF) (m : Dg) (src base : Regs) : IRes :=
  checked [(2 ≤ f.fn.toNat, 2), (f.rsv != 0, 3)] (fun m _ base =>
    let h := f.h.toNat
    let m' := afterDeq m c
    match resolveQ m' c h 2 with
    | .error code => queueTrap m c h code
    | .ok (q, _) =>
      let x := getQ m' q
      if !queueUsable m x then queueTrap m c h 5
      else
        let claim := if f.fn = 0 ∧ 0 < x.count then 1 else 0
        let st := consStatus m' x (if claim = 1 then some x.rd else none) (x.count - claim)
        .done m base none (some ⟨false, f.d.toNat, st, [], some ⟨q, claim, (getCtx m c).pid, h⟩⟩) []) m src base

/-- DEQ, R270. -/
def execDeq (c : CtxId) (f : QueF) (s : State) : Host.Outcome State Fault Refusal :=
  run s fun m => instr m c 4 (deqBody c f)

/-- DEQ.REL, R270. -/
def execDeqRel (c : CtxId) (f : QueF) (s : State) : Host.Outcome State Fault Refusal :=
  run s fun m => instr m c 4 (deqBody c f)

/-- R272: QSTAT, FN 0 the producer status, FN 1 the consumer status of the head slot. -/
def qstatBody (c : CtxId) (f : QueF) (m : Dg) (src base : Regs) : IRes :=
  checked [(2 ≤ f.fn.toNat, 2), (f.rsv != 0, 3)] (fun m _ base =>
    let h := f.h.toNat
    let m' := afterDeq m c
    match resolveQ m' c h (if f.fn = 0 then 1 else 2) with
    | .error code => queueTrap m c h code
    | .ok (q, div) =>
      let x := getQ m' q
      if !queueUsable m x then queueTrap m c h 5
      else
        let v := if f.fn = 0 then prodStatus x div else consStatus m' x (if 0 < x.count then some x.rd else none) x.count
        .done m (base.setD f.d.toNat v) none none [0x11]) m src base

/-- QSTAT of a producer, R272. -/
def execQstatProducer (c : CtxId) (f : QueF) (s : State) : Host.Outcome State Fault Refusal :=
  run s fun m => instr m c 4 (qstatBody c f)

/-- QSTAT of a consumer, R272. -/
def execQstatConsumer (c : CtxId) (f : QueF) (s : State) : Host.Outcome State Fault Refusal :=
  run s fun m => instr m c 4 (qstatBody c f)

end Sys2Proof.Machine
end

