-- ==== Sys2Proof/Machine/MemOps.lean ====
section
/-! DEFINITION. Loads, stores, LEA and their long forms (spec/02 R93 to R106, R140, Tables 02.10, 02.24; spec/04 R210 to
R216), and the bit-variable instructions (spec/02 R131 to R134). -/
namespace Sys2Proof.Machine

/-- R97: an access of which a half lies in the register space, other than one 64-bit access at an aligned address. -/
def regsMisfit (m : Dg) (c : CtxId) (a len : Nat) : Bool :=
  ((halves a len).any fun h => regionOf m (isSup c) h.1 == .regs) && regMisfit a len

/-- The codes of Table 04.13 that a memory access counts: 0x10 when it is split, 0x12 for what it lasts beyond Table 04.8 (R235,
R236). -/
def splitEvs (a len : Nat) : List Nat := if (halves a len).length = 2 then [0x10, 0x12] else [0x12]

/-- The line requests (code 0x08) that a load from the application bank window makes: in deterministic mode one for each line;
in performance mode the caches may hold it, and whether it is requested is a free value (notes/assumptions/118.md). -/
def windowEvs (m : Dg) (c : CtxId) (a len : Nat) : Dg × List Nat :=
  if regionOf m (isSup c) a ≠ .window then (m, [])
  else
    let n := (a + len - 1) / 128 - a / 128 + 1
    if (getCtx m c).r.det then (m, List.replicate n 0x08)
    else
      let (m, v) := draw m
      (m, List.replicate (v % (n + 1)) 0x08)

/-- R96: the registers with the base update of a completed access. -/
def updBase (r : Regs) (upd : Option (Nat × Word)) : Regs :=
  match upd with
  | some (i, v) => r.setA i v
  | none => r

/-- What a load of opcode 0x20 to 0x27 or 0x2E leaves for its shadow (R100, R102). -/
def loadPend (op d v : Nat) : Pend :=
  if op = 0x2E then ⟨true, d, BitVec.ofNat 128 v, [], none⟩ else ⟨false, d, extendLoad op v, [], none⟩

/-- A load at an effective address, of an instruction of `len` bytes. A register is read as the dequeue of a load still
outstanding leaves it (R212, R213); a load from the PCIe window waits for LOAD_RESPONSE. Of an LDA whose destination is also the
base that it updates, the shadow reads the updated base (R102), and the loaded value stands after it: the model's choice
(notes/assumptions/14.md). -/
def loadBody (c : CtxId) (op d len : Nat) (ea : Ea) (m : Dg) (base : Regs) : IRes :=
  match ea with
  | .bad a => .trap m (exnAt 6 0 a)
  | .ok a upd =>
    let n := memSize op
    if regsMisfit m c a n then .trap m (exnAt 5 1 a)
    else if waits m a n then .hold m
    else match regionOf m (isSup c) a with
      | .regs =>
        match regLoad m c a n with
        | (m, .error e) => .trap m e
        | (m, .ok v) =>
          let v := (regRead (afterDeq m c) c a).getD v
          .done (watched m c a n 1) (updBase base upd) none (some (loadPend op d v)) []
      | .pcie =>
        match checkAccess m c 0 a n with
        | (m, some e) => .trap m e
        | (m, none) =>
          .hold (updCtx m c fun x => { x with pcie := some ⟨op, d, a, upd, base.pc + BitVec.ofNat 48 len, [], []⟩ })
      | _ =>
        match loadMem m c a n with
        | (m, .error e) => .trap m e
        | (m, .ok v) =>
          let (m, evs) := windowEvs m c a n
          .done (watched m c a n 1) (updBase base upd) none (some (loadPend op d v)) (splitEvs a n ++ evs)

/-- A store of a value at an effective address: a register takes it at once, the PCIe root port accepts its halves, any
other region is reached through the store buffer (R210, R212, R566). The first two follow the older stores (R211). -/
def storeBody (c : CtxId) (op : Nat) (ea : Ea) (v : Nat) (m : Dg) (base : Regs) : IRes :=
  match ea with
  | .bad a => .trap m (exnAt 6 0 a)
  | .ok a upd =>
    let n := memSize op
    if regsMisfit m c a n then .trap m (exnAt 5 1 a)
    else if waits m a n || (drainWaits m c &&
        (regionOf m (isSup c) a == .regs || regionOf m (isSup c) a == .pcie || 20 ≤ (getCtx m c).sb.length)) then .hold m
    else match regionOf m (isSup c) a with
      | .regs =>
        match regStore (drainAll m c) c a n v with
        | (m, some e) => .trap m e
        | (m, none) => .done (watched m c a n 2) (updBase base upd) none none []
      | .pcie =>
        match checkAccess m c 1 a n with
        | (m, some e) => .trap m e
        | (m, none) =>
          let m := pcieWrote (drainAll m c) ((halves a n).map fun h => (h.1 - pcieBase, leBytes h.2 (v / 2 ^ (8 * (h.1 - a)))))
          .done (watched m c a n 2) (updBase base upd) none none (splitEvs a n)
      | _ =>
        match storeMem m c a n v with
        | (m, some e) => .trap m e
        | (m, none) => .done (watched m c a n 2) (updBase base upd) none none (splitEvs a n)

/-- LEA: the effective address into an address register. The value of a destination that is also a post-modified base is
not stated and is a free value (notes/assumptions/7.md). -/
def leaBody (d : Nat) (ea : Ea) (m : Dg) (base : Regs) : IRes :=
  match ea with
  | .bad a => .trap m (exnAt 6 0 a)
  | .ok a upd =>
    let ea : Word := BitVec.ofNat 64 a
    match upd with
    | none => regs m (base.setA d ea)
    | some (i, v) =>
      if i = d ∧ v ≠ ea then
        let (m, x) := draw m
        regs m (base.setA d (BitVec.ofNat 64 x))
      else regs m ((base.setA i v).setA d ea)

/-- The access of opcode 0x20 to 0x2F, whatever gave its address. -/
def accessBody (c : CtxId) (op d len : Nat) (ea : Ea) (m : Dg) (src base : Regs) : IRes :=
  if op ≤ 0x27 then loadBody c op d len ea m base
  else if op ≤ 0x2C then storeBody c op ea ((src.getD d).toNat % 2 ^ (8 * memSize op)) m base
  else if op = 0x2D then storeBody c op ea (src.getA d).toNat m base
  else if op = 0x2E then loadBody c op d len ea m base
  else leaBody d ea m base

/-- STA, LDA and LEA name an address register: 16 to 31 are reserved register numbers (Table 02.7). -/
def badAreg (op d : Nat) : Bool := 0x2D ≤ op && 16 ≤ d

/-- The MEM format. -/
def memBody (c : CtxId) (op : Nat) (f : Sys2Proof.Mem) : Dg → Regs → Regs → IRes :=
  checked [(badAreg op f.d.toNat, 4)] fun m src base => accessBody c op f.d.toNat 4 (eaMem src f) m src base

/-- LD_B, R82, R93. -/
def execLdB (c : CtxId) (f : Sys2Proof.Mem) (s : State) : Host.Outcome State Fault Refusal :=
  run s fun m => instr m c 4 (memBody c 0x20 f)

/-- LD_BU, R82, R93. -/
def execLdBu (c : CtxId) (f : Sys2Proof.Mem) (s : State) : Host.Outcome State Fault Refusal :=
  run s fun m => instr m c 4 (memBody c 0x21 f)

/-- LD_H, R82, R93. -/
def execLdH (c : CtxId) (f : Sys2Proof.Mem) (s : State) : Host.Outcome State Fault Refusal :=
  run s fun m => instr m c 4 (memBody c 0x22 f)

/-- LD_HU, R82, R93. -/
def execLdHu (c : CtxId) (f : Sys2Proof.Mem) (s : State) : Host.Outcome State Fault Refusal :=
  run s fun m => instr m c 4 (memBody c 0x23 f)

/-- LD_W, R82, R93. -/
def execLdW (c : CtxId) (f : Sys2Proof.Mem) (s : State) : Host.Outcome State Fault Refusal :=
  run s fun m => instr m c 4 (memBody c 0x24 f)

/-- LD_WU, R82, R93. -/
def execLdWu (c : CtxId) (f : Sys2Proof.Mem) (s : State) : Host.Outcome State Fault Refusal :=
  run s fun m => instr m c 4 (memBody c 0x25 f)

/-- LD_D, R82, R97. -/
def execLdD (c : CtxId) (f : Sys2Proof.Mem) (s : State) : Host.Outcome State Fault Refusal :=
  run s fun m => instr m c 4 (memBody c 0x26 f)

/-- LD_Q, R93, R100. -/
def execLdQ (c : CtxId) (f : Sys2Proof.Mem) (s : State) : Host.Outcome State Fault Refusal :=
  run s fun m => instr m c 4 (memBody c 0x27 f)

/-- ST_B, R93, R210. -/
def execStB (c : CtxId) (f : Sys2Proof.Mem) (s : State) : Host.Outcome State Fault Refusal :=
  run s fun m => instr m c 4 (memBody c 0x28 f)

/-- ST_H, R93, R210. -/
def execStH (c : CtxId) (f : Sys2Proof.Mem) (s : State) : Host.Outcome State Fault Refusal :=
  run s fun m => instr m c 4 (memBody c 0x29 f)

/-- ST_W, R93, R210. -/
def execStW (c : CtxId) (f : Sys2Proof.Mem) (s : State) : Host.Outcome State Fault Refusal :=
  run s fun m => instr m c 4 (memBody c 0x2A f)

/-- ST_D, R93, R97. -/
def execStD (c : CtxId) (f : Sys2Proof.Mem) (s : State) : Host.Outcome State Fault Refusal :=
  run s fun m => instr m c 4 (memBody c 0x2B f)

/-- ST_Q, R93, R210. -/
def execStQ (c : CtxId) (f : Sys2Proof.Mem) (s : State) : Host.Outcome State Fault Refusal :=
  run s fun m => instr m c 4 (memBody c 0x2C f)

/-- STA, R93. -/
def execSta (c : CtxId) (f : Sys2Proof.Mem) (s : State) : Host.Outcome State Fault Refusal :=
  run s fun m => instr m c 4 (memBody c 0x2D f)

/-- LDA, R93, R102. -/
def execLda (c : CtxId) (f : Sys2Proof.Mem) (s : State) : Host.Outcome State Fault Refusal :=
  run s fun m => instr m c 4 (memBody c 0x2E f)

/-- LEA, R93, R94. -/
def execLea (c : CtxId) (f : Sys2Proof.Mem) (s : State) : Host.Outcome State Fault Refusal :=
  run s fun m => instr m c 4 (memBody c 0x2F f)

/-- INDEXED_ACCESS, R93, Table 02.24: the indexed form of opcode 0x20 + `sub`. -/
def execIndexedAccess (c : CtxId) (sub : BitVec 4) (f : Long) (s : State) : Host.Outcome State Fault Refusal :=
  run s fun m =>
    let op := 0x20 + sub.toNat
    let d := bits f.x.toNat 11 5
    instr m c 8 (checked [(4 < bits f.x.toNat 0 3, 2), (badAreg op d, 4)] fun m src base =>
      accessBody c op d 8 (eaIndexed src f) m src base)

/-- PC_RELATIVE_ACCESS, R93, Table 02.24: the PC-relative form of opcode 0x20 + `sub`. -/
def execPcRelativeAccess (c : CtxId) (sub : BitVec 4) (f : Long) (s : State) : Host.Outcome State Fault Refusal :=
  run s fun m =>
    let op := 0x20 + sub.toNat
    let d := bits f.x.toNat 11 5
    instr m c 8 (checked [(bits f.x.toNat 0 11 != 0, 3), (badAreg op d, 4)] fun m src base =>
      accessBody c op d 8 (eaPc src f) m src base)

/-! ### Bit variables -/

/-- R132: the bit address. -/
def bitAddr (r : Regs) (f : BitF) : Nat := (r.getA f.an.toNat + f.disp.signExtend 64).toNat

/-- Work on a bit address that is one, in Canvas RAM or in the register space (R131, R132). -/
def bitChecked (c : CtxId) (f : BitF) (canvas register : Dg → Regs → Nat → Nat → IRes) (m : Dg) (src base : Regs) : IRes :=
  if src.mode ≠ .str then .trap m (illegal 5)
  else
    let n := bitAddr src f
    let a := bits n 3 48
    if 2 ^ 51 ≤ n then .trap m (exnAt 6 0 a)
    else match regionOf m (isSup c) a with
      | .canvas => canvas m base a (n % 8)
      | .regs => register m base (a / 8 * 8) (a % 8 * 8 + n % 8)
      | _ => .trap m (exnAt 4 2 a)

/-- The writes on a bit. -/
inductive BitOp where
  | set
  | clear
  | invert
  deriving DecidableEq, Repr

def BitOp.on (o : BitOp) (b : Bool) : Bool :=
  match o with
  | .set => true
  | .clear => false
  | .invert => !b

/-- R133: the locked read-modify-write of a Canvas word, behind the older stores of the context; the copy that the context's own
caches hold follows it. -/
def bitCanvas (c : CtxId) (o : BitOp) (m : Dg) (base : Regs) (a i : Nat) : IRes :=
  if waits m a 1 || drainWaits m c then .hold m
  else match checkSpan m c 1 [(a, 1)] with
  | (m, some e) => .trap m e
  | (m, none) =>
    let m := writeBack (drainAll m c) c (a / 16)
    match readWord m (viaCtx c) a with
    | (m, none) => .trap m (exnAt 4 4 a)
    | (m, some w) =>
      let k := a % 16 * 8 + i
      let w := setBits w k 1 (b2n (o.on (bit w k)))
      let m := cacheStore (writeWord m (viaCtx c) a (BitVec.allOnes 16) w).1 c ⟨wordOf a, BitVec.allOnes 16, BitVec.ofNat 128 w⟩
      .done (watched m c a 1 2) base none none [0x12]

/-- R133: one 64-bit write with a bit-enable for the addressed bit. The registers that a partition may write hold W1C
flags and, in the watchdogs, the values of a service and of a check-in: only a 1 acts on a flag, and a reserved bit takes no
write. The write follows the older stores (R211). -/
def bitRegister (c : CtxId) (o : BitOp) (m : Dg) (base : Regs) (a i : Nat) : IRes :=
  if drainWaits m c then .hold m else
  let m := drainAll m c
  let v := setBits 0 i 1 (b2n (o.on (bit ((regRead m c a).getD 0) i)))
  match regStore m c a 8 v with
  | (m, some e) => .trap m e
  | (m', none) => .done (watched (if bitInert a i then m else m') c (a + i / 8) 1 2) base none none []

/-- BTST, R133, R134: a load of one bit. -/
def execBtst (c : CtxId) (f : BitF) (s : State) : Host.Outcome State Fault Refusal :=
  run s fun m => instr m c 4 (bitChecked c f
    (fun m base a i => if waits m a 1 then .hold m else match loadMem m c a 1 with
      | (m, .error e) => .trap m e
      | (m, .ok v) => .done (watched m c a 1 1) base none (some (loadPend 0x21 f.d.toNat (bits v i 1))) [0x12])
    (fun m base a i => match regLoad m c a 8 with
      | (m, .error e) => .trap m e
      | (m, .ok v) =>
        let v := (regRead (afterDeq m c) c a).getD v
        .done (watched m c (a + i / 8) 1 1) base none (some (loadPend 0x21 f.d.toNat (bits v i 1))) []))

/-- BSET, R133. -/
def execBset (c : CtxId) (f : BitF) (s : State) : Host.Outcome State Fault Refusal :=
  run s fun m => instr m c 4 (bitChecked c f (bitCanvas c .set) (bitRegister c .set))

/-- BCLR, R133. -/
def execBclr (c : CtxId) (f : BitF) (s : State) : Host.Outcome State Fault Refusal :=
  run s fun m => instr m c 4 (bitChecked c f (bitCanvas c .clear) (bitRegister c .clear))

/-- BINV, R133. -/
def execBinv (c : CtxId) (f : BitF) (s : State) : Host.Outcome State Fault Refusal :=
  run s fun m => instr m c 4 (bitChecked c f (bitCanvas c .invert) (bitRegister c .invert))

end Sys2Proof.Machine
end

