-- ==== Sys2Proof/Machine/Stage.lean ====
section
/-! DEFINITION. Staging and verification of images (spec/07 R390, R393; spec/08 R421 to R431). -/
namespace Sys2Proof.Machine

/-- The configuration slot that is not active. -/
def stageSlot (m : Dg) : Nat := 5 - m.boot.cfgActive

/-- R390, R427: a chunk for a bank: offset, total, and the DREF that carries it; the last chunk waits for
verification. The checks are in the order of Table 07.7; `busy` tells that the bank is in use. -/
def stageChunk (m : Dg) (c : Cmd) (bank offPos totPos drefPos : Nat) (busy : Bool) : Dg × Reply :=
  let off := c.f offPos 8
  let total := c.f totPos 8
  let len := c.f (drefPos + 4) 4
  let b := getImg m bank
  if total < 4096 ∨ payLimit (bankKind bank) + 4096 < total then (m, badField totPos)
  else if off ≠ 0 ∧ (b.st ≠ .staging ∨ b.next ≠ off ∨ b.size ≠ total) then (m, badField offPos)
  else match drefKind c drefPos with
  | some bad => (m, badField bad)
  | none =>
    if len = 0 ∨ total < off + len then (m, badField (drefPos + 4))
    else match drefData m c drefPos with
    | (m, .error (st, d)) => (m, .err st d)
    | (m, .ok data) =>
      if busy then (m, .err stBusy 5)
      else
        let w := writeSpan m viaPort1 (bankBase bank + off) data
        let last := off + data.length == total
        if w.2 then
          (updImg w.1 bank fun _ =>
            ⟨.staging, off + data.length, total, none, if last then some (c.pair, c.tag) else none⟩, if last then .wait else .ok [])
        else (updImg w.1 bank fun _ => { b with st := .failed, cmd := none }, .err stFailed 5)

/-- CONFIG_STAGE, R390, R427. -/
def execConfigStage (pair tag : Nat) (s : State) : Host.Outcome State Fault Refusal :=
  run s fun m => carryOut m pair tag 0x0034 fun m c =>
    if c.payload.length < 32 then (m, badLen) else stageChunk m c (stageSlot m) 0 8 16 false

/-- CONFIG_DISCARD, R390. -/
def execConfigDiscard (pair tag : Nat) (s : State) : Host.Outcome State Fault Refusal :=
  run s fun m => carryOut m pair tag 0x0035 fun m c =>
    if c.payload.length ≠ 0 then (m, badLen) else (updImg m (stageSlot m) fun _ => default, .ok [])

/-- The bank that a TARGET of UPDATE_STAGE names: 1 the Exesh bank that does not run. In recovery neither runs, and byte 1 of the
payload names the one meant (R401, notes/assumptions/114.md). -/
def targetBank (m : Dg) (target sel : Nat) : Nat :=
  if target ≠ 1 then target else if m.mbx.state = 4 then sel else 1 - m.mbx.bank

/-- The reserved bytes of UPDATE_STAGE hold 0; in recovery the first of them is a bank number. -/
def stageReserved (m : Dg) (c : Cmd) : Bool :=
  if m.mbx.state = 4 ∧ c.f 0 1 = 1 then c.f 1 1 < 2 && c.f 2 6 == 0 else c.f 1 7 == 0

/-- UPDATE_STAGE, R390, R393, R427; the Vendor role stages Exesh images only: in the field state another TARGET is refused by check 7
of Table 07.7 (R386). -/
def execUpdateStage (pair tag : Nat) (s : State) : Host.Outcome State Fault Refusal :=
  run s fun m => carryOut m pair tag 0x0040 fun m c =>
    let target := c.f 0 1
    if c.role m = 1 ∧ m.part.factory ∧ target ≠ 1 then (m, .err stDenied 1)
    else if c.payload.length < 40 then (m, badLen)
    else if target = 0 ∨ 3 < target then (m, badField 0)
    else if !stageReserved m c then (m, badField 1)
    else stageChunk m c (targetBank m target (c.f 1 1)) 8 16 24 (target ≠ 1 ∧ 0 < boundCount m (target - 2))

/-- UPDATE_STATUS, R393, Table 07.13. -/
def execUpdateStatus (pair tag : Nat) (s : State) : Host.Outcome State Fault Refusal :=
  run s fun m => carryOut m pair tag 0x0041 fun m c =>
    if c.payload.length ≠ 0 then (m, badLen)
    else
      (m, .ok ((List.range 4).flatMap fun b =>
        let held := imgHeld m b
        leBytes 8 (pack [(8, bankStCode (shownState m b)), (8, if b < 2 then 0 else boundCount m (b - 2))]) ++
        leBytes 8 (if held then imgVersion m b else 0) ++ (if held then imgDigest m b else List.replicate 48 0)))

/-! ### Verification (Table 08.6) -/

/-- Check 1: the format. -/
def formatOk (m : Dg) (b : Nat) : Bool :=
  let kind := bankKind b
  imgBytes m b 0 8 == ascii "DG9-IMG1" && imgField m b 8 2 == 1 && imgField m b 10 1 == kind && imgField m b 11 1 == 9 &&
  imgField m b 12 4 == 0 && imgField m b 139 5 == 0 && imgField m b 152 360 == 0 && imgField m b 3917 179 == 0 &&
  imgPayLen m b ≤ payLimit kind && imgPayLen m b + 4096 == (getImg m b).size &&
  (if kind = 1 then imgField m b 144 8 ≤ 0xC0000 else imgField m b 144 8 == 0)

/-- Check 2: the signer and its keys (R422). -/
def signerOk (m : Dg) (b : Nat) : Bool :=
  let s := imgField m b 136 1
  (if bankKind b = 1 then s == 1 else s == 2 || s == 3) && imgField m b 137 1 < 4 && imgField m b 138 1 < 4 &&
  (roleKey m s (imgField m b 137 1)).alg == 1 && (roleKey m s (imgField m b 138 1)).alg == 2

/-- Checks 5 and 6: the signatures over the signed header. -/
def sigMlOk (m : Dg) (b : Nat) : Bool :=
  dsaVerify (roleKey m (imgField m b 136 1) (imgField m b 137 1)).key "DG9-IMAGE" (imgBytes m b 0 512) (imgBytes m b 512 3309)
def sigEcOk (m : Dg) (b : Nat) : Bool :=
  ecdsaVerify (roleKey m (imgField m b 136 1) (imgField m b 138 1)).key (imgBytes m b 0 512) (imgBytes m b 3821 96)

/-- R423, R526: the first check that fails, as a FAILED detail. -/
def verifyImage (m : Dg) (b : Nat) : Dg × Option Nat :=
  if !formatOk m b then (m, some 3)
  else if !signerOk m b then (m, some 1)
  else
    let (m, floor) := ctrRead m (bankKind b - 1)
    if imgSvn m b < floor then (reportOpen m 0x0D6 kRollbackRefused 0, some 2)
    else match digestsOk m b with
      | (m, false) => (m, some 5)
      | (m, true) => if sigMlOk m b && sigEcOk m b then (m, none) else (m, some 1)

/-- R423, R428: the refusal of a staged image, with its status. -/
def stageRefusal (m : Dg) (b : Nat) : Dg × Option (Nat × Nat) :=
  match verifyImage m b with
  | (m, some d) => (m, some (stFailed, d))
  | (m, none) =>
    if b < 4 then (m, none)
    else (m, blobRefusal m (imgBytes m b 4096 (imgPayLen m b)))

/-- VERIFICATION_COMPLETE, R390, R423, R428, R430: the target is VERIFIED and sealed, or FAILED; the last chunk is
answered. -/
def execVerificationComplete (target : Nat) (s : State) : Host.Outcome State Fault Refusal :=
  run s fun m =>
    let b := getImg m target
    if 6 ≤ target ∨ b.st ≠ .staging ∨ b.cmd.isNone ∨ exeshDown m then m
    else match stageRefusal m target with
      | (m, some (st, d)) =>
        let m := match b.cmd.bind fun x => findCmd m x.1 x.2 with
          | some c => if st = stConflict then conflictReport m c else m
          | none => m
        finishAt (updImg m target fun b => { b with st := .failed, cmd := none }) b.cmd st d []
      | (m, none) =>
        let m := updImg m target fun b => { b with st := .verified, cmd := none, mac := some (stageMac m target) }
        finishAt m b.cmd stOk 0
          (if target < 4 then imgDigest m target ++ leBytes 8 (imgVersion m target) else blobDigest m target)

end Sys2Proof.Machine
end

