-- ==== Sys2Proof/Machine/Dispatch.lean ====
section
/-! DEFINITION. The meaning of each command: one arm for each row of the opcode table. -/
namespace Sys2Proof.Machine

/-- The effect of a command on everything but the queue of commands. -/
def exec (i : Instr) (s : State) : Host.Outcome State Fault Refusal :=
  match i with
  | .add c f => Sys2Proof.Machine.execAdd c f s
  | .addC c f => Sys2Proof.Machine.execAddC c f s
  | .sub c f => Sys2Proof.Machine.execSub c f s
  | .subB c f => Sys2Proof.Machine.execSubB c f s
  | .addsat c f => Sys2Proof.Machine.execAddsat c f s
  | .subsat c f => Sys2Proof.Machine.execSubsat c f s
  | .andd c f => Sys2Proof.Machine.execAndd c f s
  | .orr c f => Sys2Proof.Machine.execOrr c f s
  | .xorr c f => Sys2Proof.Machine.execXorr c f s
  | .andn c f => Sys2Proof.Machine.execAndn c f s
  | .shl c f => Sys2Proof.Machine.execShl c f s
  | .shr c f => Sys2Proof.Machine.execShr c f s
  | .shra c f => Sys2Proof.Machine.execShra c f s
  | .rot c f => Sys2Proof.Machine.execRot c f s
  | .min c f => Sys2Proof.Machine.execMin c f s
  | .max c f => Sys2Proof.Machine.execMax c f s
  | .neg c f => Sys2Proof.Machine.execNeg c f s
  | .abs c f => Sys2Proof.Machine.execAbs c f s
  | .abssat c f => Sys2Proof.Machine.execAbssat c f s
  | .nott c f => Sys2Proof.Machine.execNott c f s
  | .clz c f => Sys2Proof.Machine.execClz c f s
  | .ctz c f => Sys2Proof.Machine.execCtz c f s
  | .dvinitU c f => Sys2Proof.Machine.execDvinitU c f s
  | .dvinitS c f => Sys2Proof.Machine.execDvinitS c f s
  | .addi c f => Sys2Proof.Machine.execAddi c f s
  | .andi c f => Sys2Proof.Machine.execAndi c f s
  | .ori c f => Sys2Proof.Machine.execOri c f s
  | .xori c f => Sys2Proof.Machine.execXori c f s
  | .shli c f => Sys2Proof.Machine.execShli c f s
  | .shri c f => Sys2Proof.Machine.execShri c f s
  | .shrai c f => Sys2Proof.Machine.execShrai c f s
  | .movi c f => Sys2Proof.Machine.execMovi c f s
  | .mul c f => Sys2Proof.Machine.execMul c f s
  | .mulh c f => Sys2Proof.Machine.execMulh c f s
  | .mac c f => Sys2Proof.Machine.execMac c f s
  | .macs c f => Sys2Proof.Machine.execMacs c f s
  | .divs c f => Sys2Proof.Machine.execDivs c f s
  | .dive c f => Sys2Proof.Machine.execDive c f s
  | .dadd c f => Sys2Proof.Machine.execDadd c f s
  | .dsub c f => Sys2Proof.Machine.execDsub c f s
  | .dtob c f => Sys2Proof.Machine.execDtob c f s
  | .btod c f => Sys2Proof.Machine.execBtod c f s
  | .fadd c f => Sys2Proof.Machine.execFadd c f s
  | .fsub c f => Sys2Proof.Machine.execFsub c f s
  | .fmul c f => Sys2Proof.Machine.execFmul c f s
  | .fdiv c f => Sys2Proof.Machine.execFdiv c f s
  | .fsqrt c f => Sys2Proof.Machine.execFsqrt c f s
  | .fma c f => Sys2Proof.Machine.execFma c f s
  | .fmin c f => Sys2Proof.Machine.execFmin c f s
  | .fmax c f => Sys2Proof.Machine.execFmax c f s
  | .fcvt c f => Sys2Proof.Machine.execFcvt c f s
  | .fcmp c f => Sys2Proof.Machine.execFcmp c f s
  | .fclass c f => Sys2Proof.Machine.execFclass c f s
  | .fsgn c f => Sys2Proof.Machine.execFsgn c f s
  | .cmp c f => Sys2Proof.Machine.execCmp c f s
  | .cmpi c f => Sys2Proof.Machine.execCmpi c f s
  | .sel c f => Sys2Proof.Machine.execSel c f s
  | .mov c f => Sys2Proof.Machine.execMov c f s
  | .shuf c f => Sys2Proof.Machine.execShuf c f s
  | .ins c f => Sys2Proof.Machine.execIns c f s
  | .ext c f => Sys2Proof.Machine.execExt c f s
  | .crcs c f => Sys2Proof.Machine.execCrcs c f s
  | .par c f => Sys2Proof.Machine.execPar c f s
  | .brev c f => Sys2Proof.Machine.execBrev c f s
  | .bcnt c f => Sys2Proof.Machine.execBcnt c f s
  | .ldB c f => Sys2Proof.Machine.execLdB c f s
  | .ldBu c f => Sys2Proof.Machine.execLdBu c f s
  | .ldH c f => Sys2Proof.Machine.execLdH c f s
  | .ldHu c f => Sys2Proof.Machine.execLdHu c f s
  | .ldW c f => Sys2Proof.Machine.execLdW c f s
  | .ldWu c f => Sys2Proof.Machine.execLdWu c f s
  | .ldD c f => Sys2Proof.Machine.execLdD c f s
  | .ldQ c f => Sys2Proof.Machine.execLdQ c f s
  | .stB c f => Sys2Proof.Machine.execStB c f s
  | .stH c f => Sys2Proof.Machine.execStH c f s
  | .stW c f => Sys2Proof.Machine.execStW c f s
  | .stD c f => Sys2Proof.Machine.execStD c f s
  | .stQ c f => Sys2Proof.Machine.execStQ c f s
  | .sta c f => Sys2Proof.Machine.execSta c f s
  | .lda c f => Sys2Proof.Machine.execLda c f s
  | .lea c f => Sys2Proof.Machine.execLea c f s
  | .indexedAccess c sub f => Sys2Proof.Machine.execIndexedAccess c sub f s
  | .pcRelativeAccess c sub f => Sys2Proof.Machine.execPcRelativeAccess c sub f s
  | .li c f => Sys2Proof.Machine.execLi c f s
  | .bz c f => Sys2Proof.Machine.execBz c f s
  | .bnz c f => Sys2Proof.Machine.execBnz c f s
  | .j c disp => Sys2Proof.Machine.execJ c disp s
  | .jr c f => Sys2Proof.Machine.execJr c f s
  | .jl c f => Sys2Proof.Machine.execJl c f s
  | .call c f => Sys2Proof.Machine.execCall c f s
  | .callr c f => Sys2Proof.Machine.execCallr c f s
  | .ret c f => Sys2Proof.Machine.execRet c f s
  | .loopi c f => Sys2Proof.Machine.execLoopi c f s
  | .loop c f => Sys2Proof.Machine.execLoop c f s
  | .lbreak c rsv => Sys2Proof.Machine.execLbreak c rsv s
  | .rep c f => Sys2Proof.Machine.execRep c f s
  | .csrr c f => Sys2Proof.Machine.execCsrr c f s
  | .csrw c f => Sys2Proof.Machine.execCsrw c f s
  | .statusWrite c f => Sys2Proof.Machine.execStatusWrite c f s
  | .pmovfWrite c f hw => Sys2Proof.Machine.execPmovfWrite c f hw s
  | .syscall c f => Sys2Proof.Machine.execSyscall c f s
  | .eret c f at_ => Sys2Proof.Machine.execEret c f at_ s
  | .fence c f => Sys2Proof.Machine.execFence c f s
  | .iflush c f => Sys2Proof.Machine.execIflush c f s
  | .waitt c f => Sys2Proof.Machine.execWaitt c f s
  | .bkpt c f => Sys2Proof.Machine.execBkpt c f s
  | .btst c f => Sys2Proof.Machine.execBtst c f s
  | .bset c f => Sys2Proof.Machine.execBset c f s
  | .bclr c f => Sys2Proof.Machine.execBclr c f s
  | .binv c f => Sys2Proof.Machine.execBinv c f s
  | .enq c f => Sys2Proof.Machine.execEnq c f s
  | .deq c f => Sys2Proof.Machine.execDeq c f s
  | .deqRel c f => Sys2Proof.Machine.execDeqRel c f s
  | .doorbell c f => Sys2Proof.Machine.execDoorbell c f s
  | .qstatProducer c f => Sys2Proof.Machine.execQstatProducer c f s
  | .qstatConsumer c f => Sys2Proof.Machine.execQstatConsumer c f s
  | .loadResponse c half data err => Sys2Proof.Machine.execLoadResponse c half data err s
  | .storeBufferDrain c wcoll => Sys2Proof.Machine.execStoreBufferDrain c wcoll s
  | .lineFetchComplete c upset => Sys2Proof.Machine.execLineFetchComplete c upset s
  | .waitWake c => Sys2Proof.Machine.execWaitWake c s
  | .interruptSourceEvent c src => Sys2Proof.Machine.execInterruptSourceEvent c src s
  | .interruptTaken c => Sys2Proof.Machine.execInterruptTaken c s
  | .pmcWrap c n => Sys2Proof.Machine.execPmcWrap c n s
  | .laneDisagreement g digest request => Sys2Proof.Machine.execLaneDisagreement g digest request s
  | .voterSlice g slice => Sys2Proof.Machine.execVoterSlice g slice s
  | .laneCorrected core => Sys2Proof.Machine.execLaneCorrected core s
  | .plannedReseatStart g => Sys2Proof.Machine.execPlannedReseatStart g s
  | .heldReseatStart g => Sys2Proof.Machine.execHeldReseatStart g s
  | .reseatQuiesced st => Sys2Proof.Machine.execReseatQuiesced st s
  | .reseatRestart st => Sys2Proof.Machine.execReseatRestart st s
  | .newcomerFault st => Sys2Proof.Machine.execNewcomerFault st s
  | .lostGroupRestart pid => Sys2Proof.Machine.execLostGroupRestart pid s
  | .rotationDue st => Sys2Proof.Machine.execRotationDue st s
  | .coreBistComplete core logic mem => Sys2Proof.Machine.execCoreBistComplete core logic mem s
  | .stuGrpnEvt c n v hw => Sys2Proof.Machine.execStuGrpnEvt c n v hw s
  | .registerWriteDenied c addr v => Sys2Proof.Machine.execRegisterWriteDenied c addr v s
  | .publicationCheck q => Sys2Proof.Machine.execPublicationCheck q s
  | .budgetRefill q => Sys2Proof.Machine.execBudgetRefill q s
  | .mirrorCopy q => Sys2Proof.Machine.execMirrorCopy q s
  | .flipGroupBoundary g => Sys2Proof.Machine.execFlipGroupBoundary g s
  | .flitCorrected l wire => Sys2Proof.Machine.execFlitCorrected l wire s
  | .linkRetry l => Sys2Proof.Machine.execLinkRetry l s
  | .laneSpared l wire => Sys2Proof.Machine.execLaneSpared l wire s
  | .linkFail l => Sys2Proof.Machine.execLinkFail l s
  | .routerSlice x y slice => Sys2Proof.Machine.execRouterSlice x y slice s
  | .paletteScrub q word found => Sys2Proof.Machine.execPaletteScrub q word found s
  | .fabMyEvt c v hw => Sys2Proof.Machine.execFabMyEvt c v hw s
  | .canvasScrubRead qd upset => Sys2Proof.Machine.execCanvasScrubRead qd upset s
  | .migrationStart qd => Sys2Proof.Machine.execMigrationStart qd s
  | .migrationLineCopy qd => Sys2Proof.Machine.execMigrationLineCopy qd s
  | .bankBistComplete qd t => Sys2Proof.Machine.execBankBistComplete qd t s
  | .retentionSupplyLoss qd => Sys2Proof.Machine.execRetentionSupplyLoss qd s
  | .bankWake qd b => Sys2Proof.Machine.execBankWake qd b s
  | .bankClearDone qd b => Sys2Proof.Machine.execBankClearDone qd b s
  | .dramRefresh ch => Sys2Proof.Machine.execDramRefresh ch s
  | .dramPatrolScrub copy upset => Sys2Proof.Machine.execDramPatrolScrub copy upset s
  | .codeStoreLineWrite writer addr data => Sys2Proof.Machine.execCodeStoreLineWrite writer addr data s
  | .dmaCopy agent slot => Sys2Proof.Machine.execDmaCopy agent slot s
  | .dmaFill agent slot => Sys2Proof.Machine.execDmaFill agent slot s
  | .dmaCrc agent slot => Sys2Proof.Machine.execDmaCrc agent slot s
  | .dmaStep agent wcoll => Sys2Proof.Machine.execDmaStep agent wcoll s
  | .requestClaim pair => Sys2Proof.Machine.execRequestClaim pair s
  | .sessionOpen pair tag => Sys2Proof.Machine.execSessionOpen pair tag s
  | .sessionAuth pair tag => Sys2Proof.Machine.execSessionAuth pair tag s
  | .sessionClose pair tag => Sys2Proof.Machine.execSessionClose pair tag s
  | .sessionQuery pair tag => Sys2Proof.Machine.execSessionQuery pair tag s
  | .challengeTimeout handle => Sys2Proof.Machine.execChallengeTimeout handle s
  | .sessionIdleTimeout handle => Sys2Proof.Machine.execSessionIdleTimeout handle s
  | .roleKeySet pair tag => Sys2Proof.Machine.execRoleKeySet pair tag s
  | .roleKeyRevoke pair tag => Sys2Proof.Machine.execRoleKeyRevoke pair tag s
  | .passphraseSet pair tag => Sys2Proof.Machine.execPassphraseSet pair tag s
  | .identityGet pair tag => Sys2Proof.Machine.execIdentityGet pair tag s
  | .versionGet pair tag => Sys2Proof.Machine.execVersionGet pair tag s
  | .attest pair tag => Sys2Proof.Machine.execAttest pair tag s
  | .identityKeysGet pair tag => Sys2Proof.Machine.execIdentityKeysGet pair tag s
  | .queueCreate pair tag => Sys2Proof.Machine.execQueueCreate pair tag s
  | .queueDestroy pair tag => Sys2Proof.Machine.execQueueDestroy pair tag s
  | .queueBind pair tag => Sys2Proof.Machine.execQueueBind pair tag s
  | .queueUnbind pair tag => Sys2Proof.Machine.execQueueUnbind pair tag s
  | .queueReset pair tag => Sys2Proof.Machine.execQueueReset pair tag s
  | .queueQuery pair tag => Sys2Proof.Machine.execQueueQuery pair tag s
  | .partitionQuery pair tag => Sys2Proof.Machine.execPartitionQuery pair tag s
  | .partitionStop pair tag => Sys2Proof.Machine.execPartitionStop pair tag s
  | .partitionStart pair tag => Sys2Proof.Machine.execPartitionStart pair tag s
  | .partitionRestart pair tag => Sys2Proof.Machine.execPartitionRestart pair tag s
  | .configStage pair tag => Sys2Proof.Machine.execConfigStage pair tag s
  | .configDiscard pair tag => Sys2Proof.Machine.execConfigDiscard pair tag s
  | .coreReseat pair tag => Sys2Proof.Machine.execCoreReseat pair tag s
  | .updateStage pair tag => Sys2Proof.Machine.execUpdateStage pair tag s
  | .updateStatus pair tag => Sys2Proof.Machine.execUpdateStatus pair tag s
  | .verificationComplete target => Sys2Proof.Machine.execVerificationComplete target s
  | .shadowStart pair tag => Sys2Proof.Machine.execShadowStart pair tag s
  | .shadowStatus pair tag => Sys2Proof.Machine.execShadowStatus pair tag s
  | .shadowAbort pair tag => Sys2Proof.Machine.execShadowAbort pair tag s
  | .digestMaskSet pair tag => Sys2Proof.Machine.execDigestMaskSet pair tag s
  | .shadowPairStart => Sys2Proof.Machine.execShadowPairStart s
  | .shadowPeriodCompare => Sys2Proof.Machine.execShadowPeriodCompare s
  | .glaze pair tag => Sys2Proof.Machine.execGlaze pair tag s
  | .glazeSwitch => Sys2Proof.Machine.execGlazeSwitch s
  | .glazeCommit => Sys2Proof.Machine.execGlazeCommit s
  | .revert pair tag => Sys2Proof.Machine.execRevert pair tag s
  | .revertExecute => Sys2Proof.Machine.execRevertExecute s
  | .exeshSwitch pair tag => Sys2Proof.Machine.execExeshSwitch pair tag s
  | .faultLogRead pair tag => Sys2Proof.Machine.execFaultLogRead pair tag s
  | .faultClear pair tag => Sys2Proof.Machine.execFaultClear pair tag s
  | .faultPolicyGet pair tag => Sys2Proof.Machine.execFaultPolicyGet pair tag s
  | .faultPolicySet pair tag => Sys2Proof.Machine.execFaultPolicySet pair tag s
  | .faultStatus pair tag => Sys2Proof.Machine.execFaultStatus pair tag s
  | .safestateRelease pair tag => Sys2Proof.Machine.execSafestateRelease pair tag s
  | .safeReleaseExecute => Sys2Proof.Machine.execSafeReleaseExecute s
  | .journalAppend pair tag => Sys2Proof.Machine.execJournalAppend pair tag s
  | .journalRead pair tag => Sys2Proof.Machine.execJournalRead pair tag s
  | .journalExport pair tag => Sys2Proof.Machine.execJournalExport pair tag s
  | .journalExportComplete => Sys2Proof.Machine.execJournalExportComplete s
  | .journalStatus pair tag => Sys2Proof.Machine.execJournalStatus pair tag s
  | .journalSealNow pair tag => Sys2Proof.Machine.execJournalSealNow pair tag s
  | .journalSealTimer => Sys2Proof.Machine.execJournalSealTimer s
  | .batchSealComplete ok => Sys2Proof.Machine.execBatchSealComplete ok s
  | .chainAudit => Sys2Proof.Machine.execChainAudit s
  | .bistResultsGet pair tag => Sys2Proof.Machine.execBistResultsGet pair tag s
  | .coreBistRun pair tag => Sys2Proof.Machine.execCoreBistRun pair tag s
  | .powerStatus pair tag => Sys2Proof.Machine.execPowerStatus pair tag s
  | .powerModeRequest pair tag => Sys2Proof.Machine.execPowerModeRequest pair tag s
  | .clockStatus pair tag => Sys2Proof.Machine.execClockStatus pair tag s
  | .rtcSet pair tag => Sys2Proof.Machine.execRtcSet pair tag s
  | .loopbackRun pair tag => Sys2Proof.Machine.execLoopbackRun pair tag s
  | .loopbackAbort pair tag => Sys2Proof.Machine.execLoopbackAbort pair tag s
  | .easelAttach pair tag => Sys2Proof.Machine.execEaselAttach pair tag s
  | .easelDetach pair tag => Sys2Proof.Machine.execEaselDetach pair tag s
  | .easelHalt pair tag => Sys2Proof.Machine.execEaselHalt pair tag s
  | .easelResume pair tag => Sys2Proof.Machine.execEaselResume pair tag s
  | .easelStep pair tag => Sys2Proof.Machine.execEaselStep pair tag s
  | .easelRegRead pair tag => Sys2Proof.Machine.execEaselRegRead pair tag s
  | .easelRegWrite pair tag => Sys2Proof.Machine.execEaselRegWrite pair tag s
  | .easelMemRead pair tag => Sys2Proof.Machine.execEaselMemRead pair tag s
  | .easelMemWrite pair tag => Sys2Proof.Machine.execEaselMemWrite pair tag s
  | .easelBreak pair tag => Sys2Proof.Machine.execEaselBreak pair tag s
  | .easelStr pair tag => Sys2Proof.Machine.execEaselStr pair tag s
  | .easelTrace pair tag => Sys2Proof.Machine.execEaselTrace pair tag s
  | .easelFrameReceived port mac payload => Sys2Proof.Machine.execEaselFrameReceived port mac payload s
  | .extest bits => Sys2Proof.Machine.execExtest bits s
  | .idcode => Sys2Proof.Machine.execIdcode s
  | .samplePreload bits => Sys2Proof.Machine.execSamplePreload bits s
  | .bypass => Sys2Proof.Machine.execBypass s
  | .mboxWr w => Sys2Proof.Machine.execMboxWr w s
  | .mboxRd => Sys2Proof.Machine.execMboxRd s
  | .mboxStatus => Sys2Proof.Machine.execMboxStatus s
  | .mbxMyEvt c v hw => Sys2Proof.Machine.execMbxMyEvt c v hw s
  | .restartDrainEnd => Sys2Proof.Machine.execRestartDrainEnd s
  | .restartLaneReset => Sys2Proof.Machine.execRestartLaneReset s
  | .bridgeBusyResponse pair => Sys2Proof.Machine.execBridgeBusyResponse pair s
  | .restartComplete okA okB => Sys2Proof.Machine.execRestartComplete okA okB s
  | .supLaneMinority lane => Sys2Proof.Machine.execSupLaneMinority lane s
  | .laneResync => Sys2Proof.Machine.execLaneResync s
  | .supNoMajority => Sys2Proof.Machine.execSupNoMajority s
  | .supWdgService => Sys2Proof.Machine.execSupWdgService s
  | .supWdgTimeout => Sys2Proof.Machine.execSupWdgTimeout s
  | .s00SupplyCheck ok => Sys2Proof.Machine.execS00SupplyCheck ok s
  | .s01GessoSelfCheck ok => Sys2Proof.Machine.execS01GessoSelfCheck ok s
  | .s02KeyStoreUnlock ok kat => Sys2Proof.Machine.execS02KeyStoreUnlock ok kat s
  | .s03LaneSync ok => Sys2Proof.Machine.execS03LaneSync ok s
  | .s04ResultCheck t => Sys2Proof.Machine.execS04ResultCheck t s
  | .s05CodeStoreIntegrity => Sys2Proof.Machine.execS05CodeStoreIntegrity s
  | .s06ExeshLoad okA okB => Sys2Proof.Machine.execS06ExeshLoad okA okB s
  | .s07PllLock lock => Sys2Proof.Machine.execS07PllLock lock s
  | .s08DramTraining cachedOk fullOk => Sys2Proof.Machine.execS08DramTraining cachedOk fullOk s
  | .s09CanvasInit bad => Sys2Proof.Machine.execS09CanvasInit bad s
  | .s10PaletteInit ok => Sys2Proof.Machine.execS10PaletteInit ok s
  | .s11StudioBringup bad => Sys2Proof.Machine.execS11StudioBringup bad s
  | .s12NetworkBringup bad => Sys2Proof.Machine.execS12NetworkBringup bad s
  | .s13ApplicationMeasure => Sys2Proof.Machine.execS13ApplicationMeasure s
  | .s14PartitionStart bad => Sys2Proof.Machine.execS14PartitionStart bad s
  | .s15Complete => Sys2Proof.Machine.execS15Complete s
  | .startupBistComplete dom t => Sys2Proof.Machine.execStartupBistComplete dom t s
  | .auditDigest bank mismatch => Sys2Proof.Machine.execAuditDigest bank mismatch s
  | .shutdownTestStart => Sys2Proof.Machine.execShutdownTestStart s
  | .domainTestComplete dom t => Sys2Proof.Machine.execDomainTestComplete dom t s
  | .shutdownTestEnd => Sys2Proof.Machine.execShutdownTestEnd s
  | .shutdownTestKeyOn => Sys2Proof.Machine.execShutdownTestKeyOn s
  | .faultMessageAccept src => Sys2Proof.Machine.execFaultMessageAccept src s
  | .faultOverflow src => Sys2Proof.Machine.execFaultOverflow src s
  | .faultnetResend src => Sys2Proof.Machine.execFaultnetResend src s
  | .conditionEnd src kind => Sys2Proof.Machine.execConditionEnd src kind s
  | .resetShadowEnd tag => Sys2Proof.Machine.execResetShadowEnd tag s
  | .chipResetExecute => Sys2Proof.Machine.execChipResetExecute s
  | .fcrSlice slice => Sys2Proof.Machine.execFcrSlice slice s
  | .fcrSelf => Sys2Proof.Machine.execFcrSelf s
  | .clkMainCheck khz => Sys2Proof.Machine.execClkMainCheck khz s
  | .fcrMyEvt c v hw => Sys2Proof.Machine.execFcrMyEvt c v hw s
  | .wdgWnService c n v => Sys2Proof.Machine.execWdgWnService c n v s
  | .wdgTimeout n second => Sys2Proof.Machine.execWdgTimeout n second s
  | .wdgWnCheckin c n v => Sys2Proof.Machine.execWdgWnCheckin c n v s
  | .wdgWnEvt c n v hw => Sys2Proof.Machine.execWdgWnEvt c n v hw s
  | .fixativeTick => Sys2Proof.Machine.execFixativeTick s
  | .armChannelValue q => Sys2Proof.Machine.execArmChannelValue q s
  | .armTemplateBytes q => Sys2Proof.Machine.execArmTemplateBytes q s
  | .ssqSlice slice => Sys2Proof.Machine.execSsqSlice slice s
  | .ssqSelf frame n => Sys2Proof.Machine.execSsqSelf frame n s
  | .ssqOsc => Sys2Proof.Machine.execSsqOsc s
  | .injectMessage src kind detail addr subject => Sys2Proof.Machine.execInjectMessage src kind detail addr subject s
  | .injectDigestCorruption g lane => Sys2Proof.Machine.execInjectDigestCorruption g lane s
  | .injectBitInversion addr copy bit1 bit2 => Sys2Proof.Machine.execInjectBitInversion addr copy bit1 bit2 s
  | .injectFlitCorruption l wires => Sys2Proof.Machine.execInjectFlitCorruption l wires s
  | .injectClockStop core => Sys2Proof.Machine.execInjectClockStop core s
  | .injectServiceSuppress n => Sys2Proof.Machine.execInjectServiceSuppress n s
  | .sha384 q mismatch => Sys2Proof.Machine.execSha384 q mismatch s
  | .sha3384 q mismatch => Sys2Proof.Machine.execSha3384 q mismatch s
  | .hmacSha384 q mismatch => Sys2Proof.Machine.execHmacSha384 q mismatch s
  | .aes256GcmEncrypt q mismatch => Sys2Proof.Machine.execAes256GcmEncrypt q mismatch s
  | .aes256GcmDecrypt q mismatch => Sys2Proof.Machine.execAes256GcmDecrypt q mismatch s
  | .aes256Ctr q mismatch => Sys2Proof.Machine.execAes256Ctr q mismatch s
  | .aes256Cmac q mismatch => Sys2Proof.Machine.execAes256Cmac q mismatch s
  | .ecdsaP384Verify q mismatch => Sys2Proof.Machine.execEcdsaP384Verify q mismatch s
  | .mlDsa65Verify q mismatch => Sys2Proof.Machine.execMlDsa65Verify q mismatch s
  | .ecdsaP384Sign q mismatch => Sys2Proof.Machine.execEcdsaP384Sign q mismatch s
  | .mlDsa65Sign q mismatch => Sys2Proof.Machine.execMlDsa65Sign q mismatch s
  | .mlKem1024Encapsulate q mismatch => Sys2Proof.Machine.execMlKem1024Encapsulate q mismatch s
  | .mlKem1024Decapsulate q mismatch => Sys2Proof.Machine.execMlKem1024Decapsulate q mismatch s
  | .mlKem1024KeyGeneration q mismatch => Sys2Proof.Machine.execMlKem1024KeyGeneration q mismatch s
  | .randomBytes q mismatch => Sys2Proof.Machine.execRandomBytes q mismatch s
  | .trngHealth => Sys2Proof.Machine.execTrngHealth s
  | .cardRemoval n => Sys2Proof.Machine.execCardRemoval n s
  | .cardSupplyFault n => Sys2Proof.Machine.execCardSupplyFault n s
  | .cardApdu n reply => Sys2Proof.Machine.execCardApdu n reply s
  | .canFrameReceived n f => Sys2Proof.Machine.execCanFrameReceived n f s
  | .canTransmitClaim n => Sys2Proof.Machine.execCanTransmitClaim n s
  | .canFrameTransmitted n ok => Sys2Proof.Machine.execCanFrameTransmitted n ok s
  | .canErrorPassive n tec rec_ => Sys2Proof.Machine.execCanErrorPassive n tec rec_ s
  | .canBusOff n => Sys2Proof.Machine.execCanBusOff n s
  | .busoffRecovery n => Sys2Proof.Machine.execBusoffRecovery n s
  | .linScheduleSlot n => Sys2Proof.Machine.execLinScheduleSlot n s
  | .linFrameReceived n id data res => Sys2Proof.Machine.execLinFrameReceived n id data res s
  | .ethFrameReceived port f => Sys2Proof.Machine.execEthFrameReceived port f s
  | .ethInternalTransmit port q => Sys2Proof.Machine.execEthInternalTransmit port q s
  | .macsecKeyMessage port => Sys2Proof.Machine.execMacsecKeyMessage port s
  | .mailboxFrameReceived port payload => Sys2Proof.Machine.execMailboxFrameReceived port payload s
  | .phyCalibrationStep port sqi => Sys2Proof.Machine.execPhyCalibrationStep port sqi s
  | .ethLinkDown port => Sys2Proof.Machine.execEthLinkDown port s
  | .gptpUnsync dom => Sys2Proof.Machine.execGptpUnsync dom s
  | .pcieCplTimeout c => Sys2Proof.Machine.execPcieCplTimeout c s
  | .pcieInboundRequest write addr len data => Sys2Proof.Machine.execPcieInboundRequest write addr len data s
  | .queuePageDoorbell h n => Sys2Proof.Machine.execQueuePageDoorbell h n s
  | .queuePageDeq h => Sys2Proof.Machine.execQueuePageDeq h s
  | .queuePageDeqRel h => Sys2Proof.Machine.execQueuePageDeqRel h s
  | .pwmDuty q => Sys2Proof.Machine.execPwmDuty q s
  | .pwmPeriod q => Sys2Proof.Machine.execPwmPeriod q s
  | .compareValue q => Sys2Proof.Machine.execCompareValue q s
  | .gpioOutput q => Sys2Proof.Machine.execGpioOutput q s
  | .adcScanStart q => Sys2Proof.Machine.execAdcScanStart q s
  | .pwmPeriodEnd n => Sys2Proof.Machine.execPwmPeriodEnd n s
  | .timerCapture n rising count => Sys2Proof.Machine.execTimerCapture n rising count s
  | .timerCompareMatch n => Sys2Proof.Machine.execTimerCompareMatch n s
  | .pulseSummary n edges period count => Sys2Proof.Machine.execPulseSummary n edges period count s
  | .adcConversionDone ch sample count => Sys2Proof.Machine.execAdcConversionDone ch sample count s
  | .adcReferenceCheck conv ok => Sys2Proof.Machine.execAdcReferenceCheck conv ok s
  | .gpioInputChange n level count => Sys2Proof.Machine.execGpioInputChange n level count s
  | .outputReadback levels => Sys2Proof.Machine.execOutputReadback levels s
  | .gnssMessageClose data => Sys2Proof.Machine.execGnssMessageClose data s
  | .gnssPpsEdge utc => Sys2Proof.Machine.execGnssPpsEdge utc s
  | .gnssPpsLoss => Sys2Proof.Machine.execGnssPpsLoss s
  | .ignitionChange pin level => Sys2Proof.Machine.execIgnitionChange pin level s
  | .keyOffDelayExpiry => Sys2Proof.Machine.execKeyOffDelayExpiry s
  | .parkTimeExpiry => Sys2Proof.Machine.execParkTimeExpiry s
  | .parkWake w => Sys2Proof.Machine.execParkWake w s
  | .supplyLow mv => Sys2Proof.Machine.execSupplyLow mv s
  | .supplyLoss => Sys2Proof.Machine.execSupplyLoss s
  | .supplyHigh input mv => Sys2Proof.Machine.execSupplyHigh input mv s
  | .inputLost input mv => Sys2Proof.Machine.execInputLost input mv s
  | .supplyReturn => Sys2Proof.Machine.execSupplyReturn s
  | .holdupLow => Sys2Proof.Machine.execHoldupLow s
  | .domainRelease dom => Sys2Proof.Machine.execDomainRelease dom s
  | .railFault dom => Sys2Proof.Machine.execRailFault dom s
  | .domainSwitchFault dom => Sys2Proof.Machine.execDomainSwitchFault dom s
  | .pllUnlock p => Sys2Proof.Machine.execPllUnlock p s
  | .xtalFail x => Sys2Proof.Machine.execXtalFail x s
  | .thermalWarn tj => Sys2Proof.Machine.execThermalWarn tj s
  | .thermalCrit tj => Sys2Proof.Machine.execThermalCrit tj s
  | .ext3v3Fault => Sys2Proof.Machine.execExt3v3Fault s
  | .ext3v3Retry ok => Sys2Proof.Machine.execExt3v3Retry ok s
  | .undefinedOpcode c word => Sys2Proof.Machine.execUndefinedOpcode c word s
  | .cardInsertion n cls proto => Sys2Proof.Machine.execCardInsertion n cls proto s
  | .cardAuthenticationComplete n reply => Sys2Proof.Machine.execCardAuthenticationComplete n reply s
  | .attestationComplete pair tag => Sys2Proof.Machine.execAttestationComplete pair tag s
  | .loopbackComplete pair tag bad => Sys2Proof.Machine.execLoopbackComplete pair tag bad s
  | .partitionRunning pid => Sys2Proof.Machine.execPartitionRunning pid s
  | .ethLinkUp port => Sys2Proof.Machine.execEthLinkUp port s
  | .pcieLinkDown => Sys2Proof.Machine.execPcieLinkDown s
  | .pcieLinkUp gen width => Sys2Proof.Machine.execPcieLinkUp gen width s
  | .pcieAerError uncorrectable => Sys2Proof.Machine.execPcieAerError uncorrectable s
  | .ethFrameTransmitted port => Sys2Proof.Machine.execEthFrameTransmitted port s
  | .linHeaderReceived n id => Sys2Proof.Machine.execLinHeaderReceived n id s
  | .linWakeUp n => Sys2Proof.Machine.execLinWakeUp n s
  | .gnssTransmitClaim => Sys2Proof.Machine.execGnssTransmitClaim s
  | .inputRestored input mv => Sys2Proof.Machine.execInputRestored input mv s
  | .holdupEnd => Sys2Proof.Machine.execHoldupEnd s

end Sys2Proof.Machine
end

