-- ==== Sys2Proof/Machine/Idle.lean ====
section
/-! DEFINITION. The passing of time while no command waits. -/
namespace Sys2Proof.Machine

/-- The module time base advances by one unit of 16 ns (R599); the RTC, the watchdog counts and every other time are
computed from it. -/
def tick (s : State) : State := { s with dg := { s.dg with now := s.dg.now + 1 } }

end Sys2Proof.Machine
end

