-- ==== Sys2Proof/WellFormed.lean ====
section
/-! DEFINITION. Well-formed commands: every operand that numbers something of the DG9 lies in the range that the spec gives
it. An ill-formed command is no refusal of the machine: where it names nothing, it changes nothing
(notes/assumptions/4.md). -/
namespace Sys2Proof

/-- What a natural-number operand of a command numbers. -/
inductive OperandSort where
  /-- an execution context: 16 group slots, 40 QM cores, Labazor-S -/
  | context
  /-- a mailbox pair (R358) -/
  | pair
  /-- a tag of a request (Table 07.4) -/
  | tag
  /-- a port of the Ethernet switch -/
  | port
  /-- a core -/
  | core
  /-- a group slot -/
  | group
  /-- a studio -/
  | studio
  /-- a queue ID (R254) -/
  | queue
  /-- a flip group (Table 05.3) -/
  | flipGroup
  /-- a partition ID -/
  | partition
  /-- a lane, a copy of a triplicated word, or a crystal -/
  | lane
  /-- one of three slices of a voted block -/
  | slice
  /-- a coordinate of a router (R242) -/
  | mesh
  /-- one of two -/
  | half
  /-- an interrupt source (R221) -/
  | irqSource
  /-- a performance counter, a pulse input -/
  | counter
  /-- a partition watchdog -/
  | watchdog
  /-- a fault source (Table 09.1) -/
  | source
  /-- a fault kind -/
  | kind
  /-- a Canvas quadrant, a DRAM channel, a PLL -/
  | quadrant
  /-- a Canvas bank of a quadrant (R304) -/
  | bank
  /-- a power domain (Table 08.12) -/
  | domain
  /-- a gPTP domain (R560) -/
  | gptpDomain
  /-- an ADC channel (R571) -/
  | adcChannel
  /-- a timer channel (R569) -/
  | timer
  /-- a GPIO (R572) -/
  | gpio
  /-- a handle (R253) -/
  | handle
  /-- a DMA agent -/
  | dmaAgent
  /-- a request queue of a DMA agent (R344) -/
  | dmaSlot
  /-- an address, or a MAC address -/
  | address
  /-- a card slot (R539) -/
  | card
  /-- a CAN controller (R554) -/
  | can
  /-- a LIN controller (R558) -/
  | lin
  /-- a LIN frame ID -/
  | linId
  /-- the length of a frame (R550) -/
  | frame
  deriving DecidableEq, Repr

/-- How many values a sort of operand has. -/
def OperandSort.bound : OperandSort → Nat
  | .context => 57
  | .pair => 32
  | .tag => 65536
  | .port => 14
  | .core => 40
  | .group => 16
  | .studio => 4
  | .queue => 262144
  | .flipGroup => 64
  | .partition => 64
  | .lane => 3
  | .slice => 3
  | .mesh => 6
  | .half => 2
  | .irqSource => 512
  | .counter => 8
  | .watchdog => 64
  | .source => 272
  | .kind => 256
  | .quadrant => 4
  | .bank => 32
  | .domain => 61
  | .gptpDomain => 2
  | .adcChannel => 24
  | .timer => 96
  | .gpio => 48
  | .handle => 4096
  | .dmaAgent => 8
  | .dmaSlot => 16
  | .address => 2 ^ 48
  | .card => 3
  | .can => 16
  | .lin => 8
  | .linId => 64
  | .frame => 9217

/-- An operand with its sort. -/
structure Operand where
  sort : OperandSort
  value : Nat
  deriving DecidableEq, Repr

/-- An operand in its range. -/
def Operand.ok (o : Operand) : Bool := o.value < o.sort.bound

/-- The operands of a command that number something. -/
def Instr.operands : Instr → List Operand
  | .add c _ => [⟨.context, c⟩]
  | .addC c _ => [⟨.context, c⟩]
  | .sub c _ => [⟨.context, c⟩]
  | .subB c _ => [⟨.context, c⟩]
  | .addsat c _ => [⟨.context, c⟩]
  | .subsat c _ => [⟨.context, c⟩]
  | .andd c _ => [⟨.context, c⟩]
  | .orr c _ => [⟨.context, c⟩]
  | .xorr c _ => [⟨.context, c⟩]
  | .andn c _ => [⟨.context, c⟩]
  | .shl c _ => [⟨.context, c⟩]
  | .shr c _ => [⟨.context, c⟩]
  | .shra c _ => [⟨.context, c⟩]
  | .rot c _ => [⟨.context, c⟩]
  | .min c _ => [⟨.context, c⟩]
  | .max c _ => [⟨.context, c⟩]
  | .neg c _ => [⟨.context, c⟩]
  | .abs c _ => [⟨.context, c⟩]
  | .abssat c _ => [⟨.context, c⟩]
  | .nott c _ => [⟨.context, c⟩]
  | .clz c _ => [⟨.context, c⟩]
  | .ctz c _ => [⟨.context, c⟩]
  | .dvinitU c _ => [⟨.context, c⟩]
  | .dvinitS c _ => [⟨.context, c⟩]
  | .addi c _ => [⟨.context, c⟩]
  | .andi c _ => [⟨.context, c⟩]
  | .ori c _ => [⟨.context, c⟩]
  | .xori c _ => [⟨.context, c⟩]
  | .shli c _ => [⟨.context, c⟩]
  | .shri c _ => [⟨.context, c⟩]
  | .shrai c _ => [⟨.context, c⟩]
  | .movi c _ => [⟨.context, c⟩]
  | .mul c _ => [⟨.context, c⟩]
  | .mulh c _ => [⟨.context, c⟩]
  | .mac c _ => [⟨.context, c⟩]
  | .macs c _ => [⟨.context, c⟩]
  | .divs c _ => [⟨.context, c⟩]
  | .dive c _ => [⟨.context, c⟩]
  | .dadd c _ => [⟨.context, c⟩]
  | .dsub c _ => [⟨.context, c⟩]
  | .dtob c _ => [⟨.context, c⟩]
  | .btod c _ => [⟨.context, c⟩]
  | .fadd c _ => [⟨.context, c⟩]
  | .fsub c _ => [⟨.context, c⟩]
  | .fmul c _ => [⟨.context, c⟩]
  | .fdiv c _ => [⟨.context, c⟩]
  | .fsqrt c _ => [⟨.context, c⟩]
  | .fma c _ => [⟨.context, c⟩]
  | .fmin c _ => [⟨.context, c⟩]
  | .fmax c _ => [⟨.context, c⟩]
  | .fcvt c _ => [⟨.context, c⟩]
  | .fcmp c _ => [⟨.context, c⟩]
  | .fclass c _ => [⟨.context, c⟩]
  | .fsgn c _ => [⟨.context, c⟩]
  | .cmp c _ => [⟨.context, c⟩]
  | .cmpi c _ => [⟨.context, c⟩]
  | .sel c _ => [⟨.context, c⟩]
  | .mov c _ => [⟨.context, c⟩]
  | .shuf c _ => [⟨.context, c⟩]
  | .ins c _ => [⟨.context, c⟩]
  | .ext c _ => [⟨.context, c⟩]
  | .crcs c _ => [⟨.context, c⟩]
  | .par c _ => [⟨.context, c⟩]
  | .brev c _ => [⟨.context, c⟩]
  | .bcnt c _ => [⟨.context, c⟩]
  | .ldB c _ => [⟨.context, c⟩]
  | .ldBu c _ => [⟨.context, c⟩]
  | .ldH c _ => [⟨.context, c⟩]
  | .ldHu c _ => [⟨.context, c⟩]
  | .ldW c _ => [⟨.context, c⟩]
  | .ldWu c _ => [⟨.context, c⟩]
  | .ldD c _ => [⟨.context, c⟩]
  | .ldQ c _ => [⟨.context, c⟩]
  | .stB c _ => [⟨.context, c⟩]
  | .stH c _ => [⟨.context, c⟩]
  | .stW c _ => [⟨.context, c⟩]
  | .stD c _ => [⟨.context, c⟩]
  | .stQ c _ => [⟨.context, c⟩]
  | .sta c _ => [⟨.context, c⟩]
  | .lda c _ => [⟨.context, c⟩]
  | .lea c _ => [⟨.context, c⟩]
  | .indexedAccess c _ _ => [⟨.context, c⟩]
  | .pcRelativeAccess c _ _ => [⟨.context, c⟩]
  | .li c _ => [⟨.context, c⟩]
  | .bz c _ => [⟨.context, c⟩]
  | .bnz c _ => [⟨.context, c⟩]
  | .j c _ => [⟨.context, c⟩]
  | .jr c _ => [⟨.context, c⟩]
  | .jl c _ => [⟨.context, c⟩]
  | .call c _ => [⟨.context, c⟩]
  | .callr c _ => [⟨.context, c⟩]
  | .ret c _ => [⟨.context, c⟩]
  | .loopi c _ => [⟨.context, c⟩]
  | .loop c _ => [⟨.context, c⟩]
  | .lbreak c _ => [⟨.context, c⟩]
  | .rep c _ => [⟨.context, c⟩]
  | .csrr c _ => [⟨.context, c⟩]
  | .csrw c _ => [⟨.context, c⟩]
  | .statusWrite c _ => [⟨.context, c⟩]
  | .pmovfWrite c _ _ => [⟨.context, c⟩]
  | .syscall c _ => [⟨.context, c⟩]
  | .eret c _ _ => [⟨.context, c⟩]
  | .fence c _ => [⟨.context, c⟩]
  | .iflush c _ => [⟨.context, c⟩]
  | .waitt c _ => [⟨.context, c⟩]
  | .bkpt c _ => [⟨.context, c⟩]
  | .btst c _ => [⟨.context, c⟩]
  | .bset c _ => [⟨.context, c⟩]
  | .bclr c _ => [⟨.context, c⟩]
  | .binv c _ => [⟨.context, c⟩]
  | .enq c _ => [⟨.context, c⟩]
  | .deq c _ => [⟨.context, c⟩]
  | .deqRel c _ => [⟨.context, c⟩]
  | .doorbell c _ => [⟨.context, c⟩]
  | .qstatProducer c _ => [⟨.context, c⟩]
  | .qstatConsumer c _ => [⟨.context, c⟩]
  | .loadResponse c half _ _ => [⟨.context, c⟩, ⟨.half, half⟩]
  | .storeBufferDrain c _ => [⟨.context, c⟩]
  | .lineFetchComplete c _ => [⟨.context, c⟩]
  | .waitWake c => [⟨.context, c⟩]
  | .interruptSourceEvent c src => [⟨.context, c⟩, ⟨.irqSource, src⟩]
  | .interruptTaken c => [⟨.context, c⟩]
  | .pmcWrap c n => [⟨.context, c⟩, ⟨.counter, n⟩]
  | .laneDisagreement g _ _ => [⟨.group, g⟩]
  | .voterSlice g slice => [⟨.group, g⟩, ⟨.slice, slice⟩]
  | .laneCorrected core => [⟨.core, core⟩]
  | .plannedReseatStart g => [⟨.group, g⟩]
  | .heldReseatStart g => [⟨.group, g⟩]
  | .reseatQuiesced st => [⟨.studio, st⟩]
  | .reseatRestart st => [⟨.studio, st⟩]
  | .newcomerFault st => [⟨.studio, st⟩]
  | .lostGroupRestart pid => [⟨.partition, pid⟩]
  | .rotationDue st => [⟨.studio, st⟩]
  | .coreBistComplete core _ _ => [⟨.core, core⟩]
  | .stuGrpnEvt c n _ _ => [⟨.context, c⟩, ⟨.group, n⟩]
  | .registerWriteDenied c addr _ => [⟨.context, c⟩, ⟨.address, addr⟩]
  | .publicationCheck q => [⟨.queue, q⟩]
  | .budgetRefill q => [⟨.queue, q⟩]
  | .mirrorCopy q => [⟨.queue, q⟩]
  | .flipGroupBoundary g => [⟨.flipGroup, g⟩]
  | .flitCorrected l _ => [⟨.mesh, l.x⟩, ⟨.mesh, l.y⟩, ⟨.quadrant, l.dir⟩]
  | .linkRetry l => [⟨.mesh, l.x⟩, ⟨.mesh, l.y⟩, ⟨.quadrant, l.dir⟩]
  | .laneSpared l _ => [⟨.mesh, l.x⟩, ⟨.mesh, l.y⟩, ⟨.quadrant, l.dir⟩]
  | .linkFail l => [⟨.mesh, l.x⟩, ⟨.mesh, l.y⟩, ⟨.quadrant, l.dir⟩]
  | .routerSlice x y slice => [⟨.mesh, x⟩, ⟨.mesh, y⟩, ⟨.slice, slice⟩]
  | .paletteScrub q word _ => [⟨.queue, q⟩, ⟨.half, word⟩]
  | .fabMyEvt c _ _ => [⟨.context, c⟩]
  | .canvasScrubRead qd _ => [⟨.quadrant, qd⟩]
  | .migrationStart qd => [⟨.quadrant, qd⟩]
  | .migrationLineCopy qd => [⟨.quadrant, qd⟩]
  | .bankBistComplete qd _ => [⟨.quadrant, qd⟩]
  | .retentionSupplyLoss qd => [⟨.quadrant, qd⟩]
  | .bankWake qd b => [⟨.quadrant, qd⟩, ⟨.bank, b⟩]
  | .bankClearDone qd b => [⟨.quadrant, qd⟩, ⟨.bank, b⟩]
  | .dramRefresh ch => [⟨.quadrant, ch⟩]
  | .dramPatrolScrub copy _ => [⟨.lane, copy⟩]
  | .codeStoreLineWrite _ addr _ => [⟨.address, addr⟩]
  | .dmaCopy agent slot => [⟨.dmaAgent, agent⟩, ⟨.dmaSlot, slot⟩]
  | .dmaFill agent slot => [⟨.dmaAgent, agent⟩, ⟨.dmaSlot, slot⟩]
  | .dmaCrc agent slot => [⟨.dmaAgent, agent⟩, ⟨.dmaSlot, slot⟩]
  | .dmaStep agent _ => [⟨.dmaAgent, agent⟩]
  | .requestClaim pair => [⟨.pair, pair⟩]
  | .sessionOpen pair tag => [⟨.pair, pair⟩, ⟨.tag, tag⟩]
  | .sessionAuth pair tag => [⟨.pair, pair⟩, ⟨.tag, tag⟩]
  | .sessionClose pair tag => [⟨.pair, pair⟩, ⟨.tag, tag⟩]
  | .sessionQuery pair tag => [⟨.pair, pair⟩, ⟨.tag, tag⟩]
  | .challengeTimeout _ => []
  | .sessionIdleTimeout _ => []
  | .roleKeySet pair tag => [⟨.pair, pair⟩, ⟨.tag, tag⟩]
  | .roleKeyRevoke pair tag => [⟨.pair, pair⟩, ⟨.tag, tag⟩]
  | .passphraseSet pair tag => [⟨.pair, pair⟩, ⟨.tag, tag⟩]
  | .identityGet pair tag => [⟨.pair, pair⟩, ⟨.tag, tag⟩]
  | .versionGet pair tag => [⟨.pair, pair⟩, ⟨.tag, tag⟩]
  | .attest pair tag => [⟨.pair, pair⟩, ⟨.tag, tag⟩]
  | .identityKeysGet pair tag => [⟨.pair, pair⟩, ⟨.tag, tag⟩]
  | .queueCreate pair tag => [⟨.pair, pair⟩, ⟨.tag, tag⟩]
  | .queueDestroy pair tag => [⟨.pair, pair⟩, ⟨.tag, tag⟩]
  | .queueBind pair tag => [⟨.pair, pair⟩, ⟨.tag, tag⟩]
  | .queueUnbind pair tag => [⟨.pair, pair⟩, ⟨.tag, tag⟩]
  | .queueReset pair tag => [⟨.pair, pair⟩, ⟨.tag, tag⟩]
  | .queueQuery pair tag => [⟨.pair, pair⟩, ⟨.tag, tag⟩]
  | .partitionQuery pair tag => [⟨.pair, pair⟩, ⟨.tag, tag⟩]
  | .partitionStop pair tag => [⟨.pair, pair⟩, ⟨.tag, tag⟩]
  | .partitionStart pair tag => [⟨.pair, pair⟩, ⟨.tag, tag⟩]
  | .partitionRestart pair tag => [⟨.pair, pair⟩, ⟨.tag, tag⟩]
  | .configStage pair tag => [⟨.pair, pair⟩, ⟨.tag, tag⟩]
  | .configDiscard pair tag => [⟨.pair, pair⟩, ⟨.tag, tag⟩]
  | .coreReseat pair tag => [⟨.pair, pair⟩, ⟨.tag, tag⟩]
  | .updateStage pair tag => [⟨.pair, pair⟩, ⟨.tag, tag⟩]
  | .updateStatus pair tag => [⟨.pair, pair⟩, ⟨.tag, tag⟩]
  | .verificationComplete _ => []
  | .shadowStart pair tag => [⟨.pair, pair⟩, ⟨.tag, tag⟩]
  | .shadowStatus pair tag => [⟨.pair, pair⟩, ⟨.tag, tag⟩]
  | .shadowAbort pair tag => [⟨.pair, pair⟩, ⟨.tag, tag⟩]
  | .digestMaskSet pair tag => [⟨.pair, pair⟩, ⟨.tag, tag⟩]
  | .shadowPairStart => []
  | .shadowPeriodCompare => []
  | .glaze pair tag => [⟨.pair, pair⟩, ⟨.tag, tag⟩]
  | .glazeSwitch => []
  | .glazeCommit => []
  | .revert pair tag => [⟨.pair, pair⟩, ⟨.tag, tag⟩]
  | .revertExecute => []
  | .exeshSwitch pair tag => [⟨.pair, pair⟩, ⟨.tag, tag⟩]
  | .faultLogRead pair tag => [⟨.pair, pair⟩, ⟨.tag, tag⟩]
  | .faultClear pair tag => [⟨.pair, pair⟩, ⟨.tag, tag⟩]
  | .faultPolicyGet pair tag => [⟨.pair, pair⟩, ⟨.tag, tag⟩]
  | .faultPolicySet pair tag => [⟨.pair, pair⟩, ⟨.tag, tag⟩]
  | .faultStatus pair tag => [⟨.pair, pair⟩, ⟨.tag, tag⟩]
  | .safestateRelease pair tag => [⟨.pair, pair⟩, ⟨.tag, tag⟩]
  | .safeReleaseExecute => []
  | .journalAppend pair tag => [⟨.pair, pair⟩, ⟨.tag, tag⟩]
  | .journalRead pair tag => [⟨.pair, pair⟩, ⟨.tag, tag⟩]
  | .journalExport pair tag => [⟨.pair, pair⟩, ⟨.tag, tag⟩]
  | .journalExportComplete => []
  | .journalStatus pair tag => [⟨.pair, pair⟩, ⟨.tag, tag⟩]
  | .journalSealNow pair tag => [⟨.pair, pair⟩, ⟨.tag, tag⟩]
  | .journalSealTimer => []
  | .batchSealComplete _ => []
  | .chainAudit => []
  | .bistResultsGet pair tag => [⟨.pair, pair⟩, ⟨.tag, tag⟩]
  | .coreBistRun pair tag => [⟨.pair, pair⟩, ⟨.tag, tag⟩]
  | .powerStatus pair tag => [⟨.pair, pair⟩, ⟨.tag, tag⟩]
  | .powerModeRequest pair tag => [⟨.pair, pair⟩, ⟨.tag, tag⟩]
  | .clockStatus pair tag => [⟨.pair, pair⟩, ⟨.tag, tag⟩]
  | .rtcSet pair tag => [⟨.pair, pair⟩, ⟨.tag, tag⟩]
  | .loopbackRun pair tag => [⟨.pair, pair⟩, ⟨.tag, tag⟩]
  | .loopbackAbort pair tag => [⟨.pair, pair⟩, ⟨.tag, tag⟩]
  | .easelAttach pair tag => [⟨.pair, pair⟩, ⟨.tag, tag⟩]
  | .easelDetach pair tag => [⟨.pair, pair⟩, ⟨.tag, tag⟩]
  | .easelHalt pair tag => [⟨.pair, pair⟩, ⟨.tag, tag⟩]
  | .easelResume pair tag => [⟨.pair, pair⟩, ⟨.tag, tag⟩]
  | .easelStep pair tag => [⟨.pair, pair⟩, ⟨.tag, tag⟩]
  | .easelRegRead pair tag => [⟨.pair, pair⟩, ⟨.tag, tag⟩]
  | .easelRegWrite pair tag => [⟨.pair, pair⟩, ⟨.tag, tag⟩]
  | .easelMemRead pair tag => [⟨.pair, pair⟩, ⟨.tag, tag⟩]
  | .easelMemWrite pair tag => [⟨.pair, pair⟩, ⟨.tag, tag⟩]
  | .easelBreak pair tag => [⟨.pair, pair⟩, ⟨.tag, tag⟩]
  | .easelStr pair tag => [⟨.pair, pair⟩, ⟨.tag, tag⟩]
  | .easelTrace pair tag => [⟨.pair, pair⟩, ⟨.tag, tag⟩]
  | .easelFrameReceived port sa payload => [⟨.port, port⟩, ⟨.address, sa⟩, ⟨.frame, payload.length⟩]
  | .extest _ => []
  | .idcode => []
  | .samplePreload _ => []
  | .bypass => []
  | .mboxWr _ => []
  | .mboxRd => []
  | .mboxStatus => []
  | .mbxMyEvt c _ _ => [⟨.context, c⟩]
  | .restartDrainEnd => []
  | .restartLaneReset => []
  | .bridgeBusyResponse pair => [⟨.pair, pair⟩]
  | .restartComplete _ _ => []
  | .supLaneMinority lane => [⟨.lane, lane⟩]
  | .laneResync => []
  | .supNoMajority => []
  | .supWdgService => []
  | .supWdgTimeout => []
  | .s00SupplyCheck _ => []
  | .s01GessoSelfCheck _ => []
  | .s02KeyStoreUnlock _ _ => []
  | .s03LaneSync _ => []
  | .s04ResultCheck _ => []
  | .s05CodeStoreIntegrity => []
  | .s06ExeshLoad _ _ => []
  | .s07PllLock _ => []
  | .s08DramTraining _ _ => []
  | .s09CanvasInit _ => []
  | .s10PaletteInit _ => []
  | .s11StudioBringup _ => []
  | .s12NetworkBringup _ => []
  | .s13ApplicationMeasure => []
  | .s14PartitionStart _ => []
  | .s15Complete => []
  | .startupBistComplete dom _ => [⟨.domain, dom⟩]
  | .auditDigest bank _ => [⟨.half, bank⟩]
  | .shutdownTestStart => []
  | .domainTestComplete dom _ => [⟨.domain, dom⟩]
  | .shutdownTestEnd => []
  | .shutdownTestKeyOn => []
  | .faultMessageAccept src => [⟨.source, src⟩]
  | .faultOverflow src => [⟨.source, src⟩]
  | .faultnetResend src => [⟨.source, src⟩]
  | .conditionEnd src kind => [⟨.source, src⟩, ⟨.kind, kind⟩]
  | .resetShadowEnd tag => [⟨.tag, tag⟩]
  | .chipResetExecute => []
  | .fcrSlice slice => [⟨.slice, slice⟩]
  | .fcrSelf => []
  | .clkMainCheck _ => []
  | .fcrMyEvt c _ _ => [⟨.context, c⟩]
  | .wdgWnService c n _ => [⟨.context, c⟩, ⟨.watchdog, n⟩]
  | .wdgTimeout n _ => [⟨.watchdog, n⟩]
  | .wdgWnCheckin c n _ => [⟨.context, c⟩, ⟨.watchdog, n⟩]
  | .wdgWnEvt c n _ _ => [⟨.context, c⟩, ⟨.watchdog, n⟩]
  | .fixativeTick => []
  | .armChannelValue q => [⟨.queue, q⟩]
  | .armTemplateBytes q => [⟨.queue, q⟩]
  | .ssqSlice slice => [⟨.slice, slice⟩]
  | .ssqSelf _ _ => []
  | .ssqOsc => []
  | .injectMessage src kind _ _ _ => [⟨.source, src⟩, ⟨.kind, kind⟩]
  | .injectDigestCorruption g lane => [⟨.group, g⟩, ⟨.lane, lane⟩]
  | .injectBitInversion addr copy _ _ => [⟨.address, addr⟩, ⟨.lane, copy⟩]
  | .injectFlitCorruption l _ => [⟨.mesh, l.x⟩, ⟨.mesh, l.y⟩, ⟨.quadrant, l.dir⟩]
  | .injectClockStop core => [⟨.core, core⟩]
  | .injectServiceSuppress n => [⟨.watchdog, n⟩]
  | .sha384 q _ => [⟨.queue, q⟩]
  | .sha3384 q _ => [⟨.queue, q⟩]
  | .hmacSha384 q _ => [⟨.queue, q⟩]
  | .aes256GcmEncrypt q _ => [⟨.queue, q⟩]
  | .aes256GcmDecrypt q _ => [⟨.queue, q⟩]
  | .aes256Ctr q _ => [⟨.queue, q⟩]
  | .aes256Cmac q _ => [⟨.queue, q⟩]
  | .ecdsaP384Verify q _ => [⟨.queue, q⟩]
  | .mlDsa65Verify q _ => [⟨.queue, q⟩]
  | .ecdsaP384Sign q _ => [⟨.queue, q⟩]
  | .mlDsa65Sign q _ => [⟨.queue, q⟩]
  | .mlKem1024Encapsulate q _ => [⟨.queue, q⟩]
  | .mlKem1024Decapsulate q _ => [⟨.queue, q⟩]
  | .mlKem1024KeyGeneration q _ => [⟨.queue, q⟩]
  | .randomBytes q _ => [⟨.queue, q⟩]
  | .trngHealth => []
  | .cardRemoval n => [⟨.card, n⟩]
  | .cardSupplyFault n => [⟨.card, n⟩]
  | .cardApdu n reply => [⟨.card, n⟩, ⟨.frame, reply.length⟩]
  | .canFrameReceived n _ => [⟨.can, n⟩]
  | .canTransmitClaim n => [⟨.can, n⟩]
  | .canFrameTransmitted n _ => [⟨.can, n⟩]
  | .canErrorPassive n _ _ => [⟨.can, n⟩]
  | .canBusOff n => [⟨.can, n⟩]
  | .busoffRecovery n => [⟨.can, n⟩]
  | .linScheduleSlot n => [⟨.lin, n⟩]
  | .linFrameReceived n id data _ => [⟨.lin, n⟩, ⟨.linId, id⟩, ⟨.frame, data.length⟩]
  | .ethFrameReceived port _ => [⟨.port, port⟩]
  | .ethInternalTransmit port q => [⟨.port, port⟩, ⟨.queue, q⟩]
  | .macsecKeyMessage port => [⟨.port, port⟩]
  | .mailboxFrameReceived port payload => [⟨.port, port⟩, ⟨.frame, payload.length⟩]
  | .phyCalibrationStep port _ => [⟨.port, port⟩]
  | .ethLinkDown port => [⟨.port, port⟩]
  | .gptpUnsync dom => [⟨.gptpDomain, dom⟩]
  | .pcieCplTimeout c => [⟨.context, c⟩]
  | .pcieInboundRequest _ _ _ data => [⟨.frame, data.length⟩]
  | .queuePageDoorbell h _ => [⟨.handle, h⟩]
  | .queuePageDeq h => [⟨.handle, h⟩]
  | .queuePageDeqRel h => [⟨.handle, h⟩]
  | .pwmDuty q => [⟨.queue, q⟩]
  | .pwmPeriod q => [⟨.queue, q⟩]
  | .compareValue q => [⟨.queue, q⟩]
  | .gpioOutput q => [⟨.queue, q⟩]
  | .adcScanStart q => [⟨.queue, q⟩]
  | .pwmPeriodEnd n => [⟨.timer, n⟩]
  | .timerCapture n _ _ => [⟨.timer, n⟩]
  | .timerCompareMatch n => [⟨.timer, n⟩]
  | .pulseSummary n _ _ _ => [⟨.counter, n⟩]
  | .adcConversionDone ch _ _ => [⟨.adcChannel, ch⟩]
  | .adcReferenceCheck conv _ => [⟨.half, conv⟩]
  | .gpioInputChange n _ _ => [⟨.gpio, n⟩]
  | .outputReadback _ => []
  | .gnssMessageClose data => [⟨.frame, data.length⟩]
  | .gnssPpsEdge _ => []
  | .gnssPpsLoss => []
  | .ignitionChange pin _ => [⟨.half, pin⟩]
  | .keyOffDelayExpiry => []
  | .parkTimeExpiry => []
  | .parkWake _ => []
  | .supplyLow _ => []
  | .supplyLoss => []
  | .supplyHigh input _ => [⟨.half, input⟩]
  | .inputLost input _ => [⟨.half, input⟩]
  | .supplyReturn => []
  | .holdupLow => []
  | .domainRelease dom => [⟨.domain, dom⟩]
  | .railFault dom => [⟨.domain, dom⟩]
  | .domainSwitchFault dom => [⟨.domain, dom⟩]
  | .pllUnlock p => [⟨.quadrant, p⟩]
  | .xtalFail x => [⟨.lane, x⟩]
  | .thermalWarn _ => []
  | .thermalCrit _ => []
  | .ext3v3Fault => []
  | .ext3v3Retry _ => []
  | .undefinedOpcode c _ => [⟨.context, c⟩]
  | .cardInsertion n _ _ => [⟨.card, n⟩]
  | .cardAuthenticationComplete n _ => [⟨.card, n⟩]
  | .attestationComplete pair tag => [⟨.pair, pair⟩, ⟨.tag, tag⟩]
  | .loopbackComplete pair tag _ => [⟨.pair, pair⟩, ⟨.tag, tag⟩]
  | .partitionRunning pid => [⟨.partition, pid⟩]
  | .ethLinkUp port => [⟨.port, port⟩]
  | .pcieLinkDown => []
  | .pcieLinkUp _ _ => []
  | .pcieAerError _ => []
  | .ethFrameTransmitted port => [⟨.port, port⟩]
  | .linHeaderReceived n id => [⟨.lin, n⟩, ⟨.linId, id⟩]
  | .linWakeUp n => [⟨.lin, n⟩]
  | .gnssTransmitClaim => []
  | .inputRestored input _ => [⟨.half, input⟩]
  | .holdupEnd => []

/-- Every operand lies in its range. -/
def Instr.wellFormed (i : Instr) : Bool := i.operands.all Operand.ok

end Sys2Proof
end

