-- ==== Sys2Proof/Safety.lean ====
section
/-! DEFINITION. The terms in which claims about runs are made: what a run keeps, and how a state is reached. -/
namespace Sys2Proof.Machine

/-- The stored bytes are in canonical form. -/
def State.memOk (s : State) : Bool := Memory.wf s.dg.mem

/-- Every command that waits is well-formed. -/
def State.pendingOk (s : State) : Bool := s.pending.all Instr.wellFormed

/-- `s` with a command put at the front of its queue. -/
def State.withFront (s : State) (i : Instr) : State := { s with pending := i :: s.pending }

/-- One step leads from a state to another. -/
def Steps (s t : State) : Prop := step s = .next t

/-- A state that steps lead to from another. -/
inductive Reaches (s : State) : State → Prop where
  | start : Reaches s s
  | step {t u : State} : Reaches s t → Steps t u → Reaches s u

/-- The module runs no command that it refuses and meets no fault: its next step answers a state. -/
def State.runs (s : State) : Prop := ∃ t, Steps s t

/-! ### Instructions -/

/-- The registers of a context. -/
def regsOf (m : Dg) (c : CtxId) : Regs := (getCtx m c).r

/-- The module as the context fetches the instruction of `len` bytes at its pc, and whether the fetch is answered: a break
passed before is armed again, the line buffers hold the lines of the instruction, and the following lines are requested (R75,
R197, R200). -/
def fetches (m : Dg) (c : CtxId) (len : Nat) : Dg × Bool :=
  fetch { m with easel := { m.easel with pass := SMap.set m.easel.pass c false } } c len

/-- No fetch of the instruction and no vector entry meets a bank of Canvas RAM that is waking (R325). -/
def awake (m : Dg) (c : CtxId) (len : Nat) : Bool :=
  !fetchWaits m c len && (List.range 32).all fun v => !entryWaits m c v

/-- The module after the fetch. -/
def fetched (m : Dg) (c : CtxId) (len : Nat) : Dg := (fetches m c len).1

/-- A context whose next instruction, of `len` bytes, meets nothing but its own effect and the end of a loop body: the
context runs, no interrupt is due and no breakpoint matches, no bank that it needs is waking, the fetch is answered, no load is outstanding, no repetition is
under way, no performance counter is enabled, no branch is traced and no single step is asked for. -/
def quiet (m : Dg) (c : CtxId) (len : Nat) : Bool :=
  runnable m c && !irqDue (getCtx m c) && !breakHit m c (regsOf m c).pc.toNat && awake m c len &&
  (fetches m c len).2 &&
  (getCtx m c).load.isNone && (regsOf m c).rep.isNone && (regsOf m c).pmctl == 0 && !stepping m c &&
  !(SMap.get m.easel.trace c).enable

/-- A quiet context with no hardware loop active. -/
def ready (m : Dg) (c : CtxId) (len : Nat) : Bool := quiet m c len && (regsOf m c).ldepth == 0

/-- The module after an instruction of a context whose work left the module `m`: the context has the registers `r` with
the pc at `next`, and perhaps a load whose value its shadow does not see; nothing else is changed. -/
def ranOn (m : Dg) (c : CtxId) (r : Regs) (next : Addr) (ld : Option PendLoad) : Dg :=
  updCtx m c fun x => { x with r := { r with pc := next, holdoff := r.holdoff - 1 }, load := ld }

/-- The module after an instruction of `len` bytes of a context that changed nothing but its registers. -/
def ranTo (m : Dg) (c : CtxId) (len : Nat) (r : Regs) (next : Addr) (ld : Option PendLoad) : Dg :=
  ranOn (fetched m c len) c r next ld

/-- The module after a branch of `len` bytes whose work left the module `m`: as after any instruction, and in performance mode the
branch predictor has taken note of it (R198). `target` is none where the branch is not taken. -/
def branched (m : Dg) (c : CtxId) (len : Nat) (r : Regs) (kind : BrKind) (target : Option Addr) : Dg :=
  let seq := r.pc + BitVec.ofNat 48 len
  noteBranch (ranOn m c r (target.getD seq) none) c r.pc seq kind target

/-- The command is an instruction of `len` bytes that retires with the registers `r`, and nothing else changes: no byte
of memory, no other context, no other part of the module. -/
def Retires (i : Instr) (s : State) (c : CtxId) (len : Nat) (r : Regs) : Prop :=
  exec i s = .next { s with dg := ranTo s.dg c len r (r.pc + BitVec.ofNat 48 len) none }

/-- The command is an instruction of `len` bytes that takes the synchronous exception `e` in the context, and nothing else
happens. -/
def Traps (i : Instr) (s : State) (c : CtxId) (len : Nat) (e : Exn) : Prop :=
  exec i s = .next { s with dg := takeExn (fetched s.dg c len) c e }

/-- What an instruction's own work left of the context: no load outstanding, no single step, no branch trace. -/
def calm (m : Dg) (c : CtxId) : Bool :=
  (getCtx m c).load.isNone && !stepping m c && !(SMap.get m.easel.trace c).enable

/-- The registers with which the handler of an exception starts (R146). -/
def handlerRegs (r : Regs) (cause : Word) (eaddr : Option Nat) (h : Addr) : Regs :=
  { r with
    ecause := cause, eaddr := (eaddr.map (BitVec.ofNat 64)).getD r.eaddr, a15s := r.a15s - 176,
    mode := if r.mode = .str then .str else .supervisor, pc := h, repact := false, rep := none, holdoff := 2 }

/-- The module with the handler about to start in a context with the registers `r`: its counters stand as they are, the
handler's line is requested, in performance mode in place of the requests under way, and the frame counts as an access. -/
def handlerAt (m : Dg) (c : CtxId) (r : Regs) : Dg :=
  countEv (requestLine (updCtx m c fun x =>
    { x with r := r.withCounts x.r, lineReq := if r.det then x.lineReq else [] }) c (r.pc.toNat / 128)) c 0x12

/-! ### Event registers -/

/-- R18, R80: what `n` W1C flags and their `w`-bit overrun counters hold after a write of `v` in whose cycle hardware sets
the flags `hw`, each once: a set wins, and counts when its flag stood; a flag written 1 is cleared with its counter. -/
def W1cOutcome (w n : Nat) (old new : Evt) (v hw : Nat) : Prop :=
  ∀ i, i < n →
    bit new.flags i = (bit hw i || (bit old.flags i && !bit v i)) ∧
    SMap.get new.ovr i =
      if bit hw i = true then (if bit old.flags i = true then satInc w (SMap.get old.ovr i) else SMap.get old.ovr i)
      else if bit v i = true then 0 else SMap.get old.ovr i

/-! ### Mailbox commands -/

/-- `c` is outstanding under its pair and tag, has been claimed, and its turn has come: no earlier command that names one
of its objects is outstanding (R367, R373), and Exesh runs; it is none of those that a Vendor session has not in the field
(R386). -/
def TurnOf (m : Dg) (pair tag op : Nat) (c : Cmd) : Prop :=
  findCmd m pair tag = some c ∧ c.op = op ∧ c.phase = .claimed ∧ exeshDown m = false ∧
  earlier m c .claimed = false ∧ earlier m c .running = false ∧ vendorRefused m c = false

/-- The command leaves the module `m` and is then answered OK with a payload. -/
def Answers (i : Instr) (s : State) (c : Cmd) (m : Dg) (payload : List Byte) : Prop :=
  exec i s = .next { s with dg := finish m c stOk 0 payload }

/-- The command has no effect but its refusal (R371). -/
def Refuses (i : Instr) (s : State) (c : Cmd) (status detail : Nat) : Prop :=
  exec i s = .next { s with dg := finish s.dg c status detail [] }

/-- The long command leaves the module `m` and stays outstanding until the event that completes it. -/
def GoesOn (i : Instr) (s : State) (c : Cmd) (m : Dg) : Prop := exec i s = .next { s with dg := setRunning m c }

end Sys2Proof.Machine
end

