-- ==== Sys2Proof/Certificates/Slice0/Obligations.lean ====
section
/-! DEFINITION. The statements about the model for the provers, group by group in the order of the specification. -/

open Sys2Proof Sys2Proof.Machine

/-! ### Integer, decimal and checksum instructions (spec/03, spec/02 R111 to R130) -/

/-- R151 to R156, R159, R113, R129, R130: each element-wise instruction of the RRR and RRRR formats, in a context that is
ready and with a legal width code, writes to every element of Dd the value the rules give, for every register value; and
it changes nothing else. -/
def Obligations.ElementwiseResults : Prop :=
  ∀ (s : State) (c : CtxId) (f : Rrr) (w : Nat), ready s.dg c 4 = true → intWidth f.w = some w →
    let r := regsOf s.dg c
    let p := r.getD f.s1.toNat
    let q := r.getD f.s2.toNat
    let x (i : Nat) : Nat := elem w p i
    let y (i : Nat) : Nat := elem w q i
    let sx (i : Nat) : Int := toInt w (x i)
    let sy (i : Nat) : Int := toInt w (y i)
    let lo : Int := -(2 ^ (w - 1))
    let hi : Int := 2 ^ (w - 1) - 1
    let writes (i : Instr) (v : Quad) : Prop := Retires i s c 4 (r.setD f.d.toNat v)
    let elems (i : Instr) (g : Nat → Nat) : Prop := writes i (ofElems w g)
    (f.fn = 0 → elems (.add c f) fun i => (x i + y i) % 2 ^ w) ∧
    (f.fn = 1 → elems (.addC c f) fun i => if 2 ^ w ≤ x i + y i then 1 else 0) ∧
    (f.fn = 0 → elems (.sub c f) fun i => ofInt w ((x i : Int) - y i)) ∧
    (f.fn = 1 → elems (.subB c f) fun i => if x i < y i then 1 else 0) ∧
    (f.fn = 0 → elems (.addsat c f) fun i => ofInt w (clampInt lo hi (sx i + sy i))) ∧
    (f.fn = 1 → elems (.addsat c f) fun i => min (x i + y i) (2 ^ w - 1)) ∧
    (f.fn = 0 → elems (.subsat c f) fun i => ofInt w (clampInt lo hi (sx i - sy i))) ∧
    (f.fn = 1 → elems (.subsat c f) fun i => x i - y i) ∧
    (f.fn = 0 → writes (.andd c f) (p &&& q) ∧ writes (.orr c f) (p ||| q) ∧ writes (.xorr c f) (p ^^^ q) ∧
      writes (.andn c f) (p &&& ~~~q)) ∧
    (∀ k : Nat → Nat, (f.fn = 0 ∧ k = y ∨ f.fn = 1 ∧ k = fun _ => y 0) →
      elems (.shl c f) (fun i => if k i < w then x i * 2 ^ k i % 2 ^ w else 0) ∧
      elems (.shr c f) (fun i => if k i < w then x i / 2 ^ k i else 0) ∧
      elems (.shra c f) (fun i => ofInt w (if k i < w then sx i / 2 ^ k i else if sx i < 0 then -1 else 0)) ∧
      elems (.rot c f) (fun i => x i * 2 ^ (k i % w) % 2 ^ w + x i / 2 ^ (w - k i % w))) ∧
    (f.fn = 0 → elems (.min c f) (fun i => if sx i ≤ sy i then x i else y i) ∧
      elems (.max c f) (fun i => if sy i ≤ sx i then x i else y i)) ∧
    (f.fn = 1 → elems (.min c f) (fun i => min (x i) (y i)) ∧ elems (.max c f) (fun i => max (x i) (y i))) ∧
    (f.s2 = 0 →
      (f.fn = 0 → elems (.neg c f) fun i => (2 ^ w - x i) % 2 ^ w) ∧
      (f.fn = 1 → elems (.abs c f) fun i => (sx i).natAbs % 2 ^ w) ∧
      (f.fn = 2 → elems (.abssat c f) fun i => min (sx i).natAbs (2 ^ (w - 1) - 1)) ∧
      (f.fn = 3 → writes (.nott c f) (~~~p)) ∧
      (f.fn = 4 → elems (.clz c f) fun i => ((bitList w (x i)).reverse.takeWhile (! ·)).length) ∧
      (f.fn = 5 → elems (.ctz c f) fun i => ((bitList w (x i)).takeWhile (! ·)).length)) ∧
    (f.fn = 0 → elems (.mul c f) (fun i => x i * y i % 2 ^ w) ∧
      elems (.mulh c f) (fun i => ofInt w (sx i * sy i / 2 ^ w))) ∧
    (f.fn = 1 → elems (.mulh c f) fun i => x i * y i / 2 ^ w) ∧
    (f.fn = 2 → elems (.mulh c f) fun i => ofInt w (sx i * y i / 2 ^ w)) ∧
    (∀ rel : Nat → Bool,
      (f.fn = 0 ∧ rel = (fun i => x i == y i) ∨ f.fn = 1 ∧ rel = (fun i => x i != y i) ∨
       f.fn = 2 ∧ rel = (fun i => sx i < sy i) ∨ f.fn = 3 ∧ rel = (fun i => sy i ≤ sx i) ∨
       f.fn = 4 ∧ rel = (fun i => x i < y i) ∨ f.fn = 5 ∧ rel = (fun i => y i ≤ x i)) →
      elems (.cmp c f) fun i => if rel i then 1 else 0) ∧
    (f.fn = 0 →
      elems (.shuf c f) (fun i => if bit (y i) (w - 1) then 0 else x (y i % (128 / w))) ∧
      elems (.par c f) (fun i => popcount w (x i) % 2) ∧ elems (.brev c f) (fun i => bitRev w (x i)) ∧
      elems (.bcnt c f) (fun i => popcount w (x i))) ∧
    (∀ g : Rrrr, g.w = f.w → g.d = f.d → g.s1 = f.s1 → g.s2 = f.s2 → g.rsv = 0 →
      elems (.sel c g) fun i => if elem w (r.getD g.cond.toNat) i ≠ 0 then x i else y i)

/-- R157, R158, R160, R140, R87, R128: the immediate, field, load-immediate, move and checksum instructions, in a context
that is ready and with legal codes and registers, write the one register the rules name with the value they give, and
change nothing else. -/
def Obligations.ImmediateAndMoveResults : Prop :=
  ∀ (s : State) (c : CtxId), ready s.dg c 4 = true →
    let r := regsOf s.dg c
    (∀ (f : Rri) (w : Nat), intWidth f.w = some w →
      let p := r.getD f.s1.toNat
      let k := (f.imm.signExtend 128).toNat % 2 ^ w
      let n := f.imm.toNat % 128
      let writes (i : Instr) (v : Quad) : Prop := Retires i s c 4 (r.setD f.d.toNat v)
      let elems (i : Instr) (g : Nat → Nat) : Prop := writes i (ofElems w fun j => g (elem w p j))
      (elems (.addi c f) fun x => (x + k) % 2 ^ w) ∧ (elems (.andi c f) fun x => x &&& k) ∧
      (elems (.ori c f) fun x => x ||| k) ∧ (elems (.xori c f) fun x => x ^^^ k) ∧
      (f.s1 = 0 → elems (.movi c f) fun _ => k) ∧
      (f.imm.toNat < 128 →
        (elems (.shli c f) fun x => if n < w then x * 2 ^ n % 2 ^ w else 0) ∧
        (elems (.shri c f) fun x => if n < w then x / 2 ^ n else 0) ∧
        (elems (.shrai c f) fun x => ofInt w (if n < w then toInt w x / 2 ^ n else if toInt w x < 0 then -1 else 0))) ∧
      (∀ rel : Nat → Nat → Bool,
        (f.imm.toNat / 512 = 0 ∧ rel = (fun a b => a == b) ∨ f.imm.toNat / 512 = 1 ∧ rel = (fun a b => a != b) ∨
         f.imm.toNat / 512 = 2 ∧ rel = (fun a b => decide (toInt w a < toInt w b)) ∨
         f.imm.toNat / 512 = 3 ∧ rel = (fun a b => decide (toInt w b ≤ toInt w a)) ∨
         f.imm.toNat / 512 = 4 ∧ rel = (fun a b => decide (a < b)) ∨ f.imm.toNat / 512 = 5 ∧ rel = (fun a b => decide (b ≤ a))) →
        elems (.cmpi c f) fun x => if rel x (sext 9 w (f.imm.toNat % 512)) then 1 else 0) ∧
      (w < 128 → f.imm.toNat < 128 →
        writes (.ins c f) (BitVec.ofNat 128 (setBits (r.getD f.d.toNat).toNat n w (p.toNat % 2 ^ w)))) ∧
      (w < 128 → f.imm.toNat < 256 →
        writes (.ext c f) (BitVec.ofNat 128
          (if f.imm.toNat < 128 then p.toNat / 2 ^ n % 2 ^ w else sext w 128 (p.toNat / 2 ^ n))))) ∧
    (∀ (f : Rrr) (w : Nat), intWidth f.w = some w →
      let (d, s1, s2) := (f.d.toNat, f.s1.toNat, f.s2.toNat)
      let puts (r' : Regs) : Prop := Retires (.mov c f) s c 4 r'
      (f.fn = 0 → puts (r.setD d (r.getD s1))) ∧
      (f.fn = 1 → s1 < 16 → puts (r.setD d ((r.getA s1).setWidth 128))) ∧
      (f.fn = 2 → d < 16 → puts (r.setA d ((r.getD s1).setWidth 64))) ∧
      (f.fn = 3 → d < 16 → s1 < 16 → puts (r.setA d (r.getA s1))) ∧
      (f.fn = 4 → s2 < 17 → puts (r.setSpecial s2 (r.getD s1).toNat)) ∧
      (f.fn = 5 → s2 < 17 → puts (r.setD d (BitVec.ofNat 128 (r.getSpecial s2)))) ∧
      (f.fn = 6 → d < 4 → s2 < 3 → puts (r.setAccPart d s2 (r.getD s1))) ∧
      (f.fn = 7 → s1 < 4 → s2 < 3 → puts (r.setD d (r.getAccPart s1 s2))) ∧
      (f.fn = 0 →
        Retires (.crcs c f) s c 4 (r.setD d (crcStep r.crcpoly r.crcpolyv (w / 8) (r.getD s1) (r.getD s2))))) ∧
    (∀ f : Long, ready s.dg c 8 = true → f.x.toNat % 1024 = 0 →
      let d := f.x.toNat / 2048
      (f.x.toNat / 1024 % 2 = 0 → Retires (.li c f) s c 8 (r.setD d (f.imm.signExtend 128))) ∧
      (f.x.toNat / 1024 % 2 = 1 → d < 16 → Retires (.li c f) s c 8 (r.setA d (f.imm.signExtend 64))))

/-- R161, R162, R165 to R168: multiply-accumulate and the three steps of a division, slot by slot; w steps of the restoring
division from quotient x and remainder 0 give the quotient and the remainder of x by the divisor. -/
def Obligations.AccumulatorAndDivisionResults : Prop :=
  (∀ (s : State) (c : CtxId) (f : Rrr) (w : Nat), ready s.dg c 4 = true → intWidth f.w = some w →
     let r := regsOf s.dg c
     let d := f.d.toNat
     let x (i : Nat) : Nat := elem w (r.getD f.s1.toNat) i
     let y (i : Nat) : Nat := elem w (r.getD f.s2.toNat) i
     let st (i : Nat) : Nat := elem w (r.getD d) i
     let slots (i : Instr) (g : Nat → Nat × Nat) : Prop := Retires i s c 4 (r.setD d (ofSlots w g))
     (d < 4 → f.fn.toNat < 4 →
       let val (n : Nat) : Int := if f.fn.toNat < 2 then toInt w n else n
       let sum : Int := ((List.range (128 / w)).map fun i => val (x i) * val (y i)).sum
       let exact : Int := (SMap.get r.acc d).toInt + (if f.fn.toNat % 2 = 0 then sum else -sum)
       Retires (.mac c f) s c 4 { r with acc := SMap.set r.acc d (BitVec.ofInt 272 exact) } ∧
       Retires (.macs c f) s c 4
         { r with acc := SMap.set r.acc d (BitVec.ofInt 272 (max (-(2 ^ 255)) (min exact (2 ^ 255 - 1)))) }) ∧
     (w < 128 → f.s2 = 0 → f.fn = 6 → slots (.dvinitU c f) fun j => (x (2 * j), 0)) ∧
     (w < 128 → f.s2 = 0 → f.fn = 7 → slots (.dvinitS c f) fun j => ((toInt w (x (2 * j))).natAbs, 0)) ∧
     (w < 128 → f.fn.toNat < 2 → slots (.divs c f) fun j =>
       let v := if f.fn = 0 then y (2 * j) else (toInt w (y (2 * j))).natAbs
       let (q, rem) := (x (2 * j), x (2 * j + 1))
       let rem' := rem * 2 + q / 2 ^ (w - 1)
       let q' := q * 2 % 2 ^ w
       if v ≤ rem' then (q' + 1, (rem' - v) % 2 ^ w) else (q', rem' % 2 ^ w)) ∧
     (w < 128 → f.fn.toNat / 2 % 2 = 0 → f.fn.toNat / 4 ≠ d →
       let signed := f.fn.toNat % 2 = 1
       let res (j : Nat) : Nat × Nat × Nat :=
         let (q, rem, a, b) := (st (2 * j), st (2 * j + 1), x (2 * j), y (2 * j))
         if b = 0 then (a, a, 1)
         else if signed ∧ toInt w a = -(2 ^ (w - 1)) ∧ toInt w b = -1 then (a, 0, 1)
         else if signed then
           (if (toInt w a < 0) = (toInt w b < 0) then q else (2 ^ w - q) % 2 ^ w,
            if toInt w a < 0 then (2 ^ w - rem) % 2 ^ w else rem, 0)
         else (q, rem, 0)
       Retires (.dive c f) s c 4
         ((r.setD d (ofSlots w fun j => ((res j).1, (res j).2.1))).setD (f.fn.toNat / 4) (ofSlots w fun j => ((res j).2.2, 0))))) ∧
  (∀ w x v : Nat, 0 < w → x < 2 ^ w → 0 < v → v < 2 ^ w →
     (List.range w).foldl (fun st _ => divStep w st.1 st.2 v) (x, 0) = (x / v, x % v))

/-- R170 to R174: the packed-decimal instructions write result and validity register; a signed sum or difference of
magnitude below 10^31 carries the sign nibble of R174, and any failure writes 0 to both registers. -/
def Obligations.DecimalResults : Prop :=
  ∀ (s : State) (c : CtxId) (f : Rrr), ready s.dg c 4 = true → f.w = 4 → f.fn.toNat / 4 ≠ f.d.toNat →
    let r := regsOf s.dg c
    let p := r.getD f.s1.toNat
    let q := r.getD f.s2.toNat
    let bothF := p.toNat % 16 = 15 ∧ q.toNat % 16 = 15
    let gives (i : Instr) (o : Option Quad) : Prop :=
      Retires i s c 4 ((r.setD f.d.toNat (o.getD 0)).setD (f.fn.toNat / 4) (if o.isSome then 1 else 0))
    let sum (i : Instr) (op : Int → Int → Int) : Prop :=
      (∀ a b : Int, decVal p = some a → decVal q = some b → (op a b).natAbs < 10 ^ 31 →
        gives i (some (decPack (decide bothF) (op a b)))) ∧
      (∀ a b : Int, decVal p = some a → decVal q = some b → 10 ^ 31 ≤ (op a b).natAbs → gives i none) ∧
      (decVal p = none ∨ decVal q = none → gives i none)
    (f.fn.toNat % 4 = 0 → sum (.dadd c f) (· + ·)) ∧
    (f.fn.toNat % 4 = 1 → sum (.dsub c f) (· - ·)) ∧
    (f.fn.toNat % 4 = 2 → f.s2 = 0 → gives (.dtob c f) ((decVal p).map fun a => BitVec.ofInt 128 a)) ∧
    (f.fn.toNat % 4 = 3 → f.s2 = 0 →
      gives (.btod c f) (if p.toInt.natAbs < 10 ^ 31 then some (decPack false p.toInt) else none))

/-! ### Floating point (spec/03 R175 to R195) -/

/-- R184 to R190, R181: a floating-point instruction of a ready application context, with legal codes and raising no
enabled exception, writes to each element of Dd the value of its operation and joins the flags of all elements to FPSR. -/
def Obligations.FloatingPointResults : Prop :=
  ∀ (s : State) (c : CtxId) (f : Rrr), ready s.dg c 4 = true → c ≠ supCtx →
    let r := regsOf s.dg c
    let fn := f.fn.toNat
    let enabled := r.fpcr.toNat / 16 % 32
    let gives (i : Instr) (w : Nat) (n : Nat) (g : Nat → Nat × Nat) : Prop :=
      (∀ k, k < n → (g k).2 &&& enabled = 0) →
      Retires i s c 4 { r.setD f.d.toNat (ofElems w fun k => if k < n then (g k).1 else 0) with
        fpsr := r.fpsr ||| BitVec.ofNat 64 ((List.range n).foldl (fun a k => a ||| (g k).2) 0) }
    (∀ w, fpWidth f.w = some w →
      let fmt := fmtOf w
      let x (k : Nat) : Nat := elem w (r.getD f.s1.toNat) k
      let y (k : Nat) : Nat := elem w (r.getD f.s2.toNat) k
      let dx (k : Nat) : Fp := Fp.decode fmt (x k)
      let dy (k : Nat) : Fp := Fp.decode fmt (y k)
      let dz (k : Nat) : Fp := Fp.decode fmt (elem w (r.getD f.d.toNat) k)
      let all (i : Instr) (g : Nat → Nat × Nat) : Prop := gives i w (128 / w) g
      (∀ rm, roundOf r fn = some rm →
        (fn < 8 →
          (all (.fadd c f) fun k => fpAdd fmt rm (ufe r) (dx k) (dy k)) ∧
          (all (.fsub c f) fun k => fpAdd fmt rm (ufe r) (dx k) (dy k).neg) ∧
          (all (.fmul c f) fun k => fpMul fmt rm (ufe r) (dx k) (dy k)) ∧
          (all (.fdiv c f) fun k => fpDiv fmt rm (ufe r) (dx k) (dy k)) ∧
          (f.s2 = 0 → all (.fsqrt c f) fun k => fpSqrt fmt rm (ufe r) (dx k))) ∧
        (fn / 8 = 0 → all (.fma c f) fun k => fpFma fmt rm (ufe r) (dx k) (dy k) (dz k)) ∧
        (fn / 8 = 1 → all (.fma c f) fun k => fpFma fmt rm (ufe r) (dx k).neg (dy k) (dz k)) ∧
        (fn / 8 = 2 → all (.fma c f) fun k => fpFma fmt rm (ufe r) (dx k) (dy k) (dz k).neg) ∧
        (fn / 8 = 3 → all (.fma c f) fun k => fpFma fmt rm (ufe r) (dx k).neg (dy k) (dz k).neg) ∧
        (fn / 8 = 5 → f.s2 = 0 → all (.fcvt c f) fun k => fpRint fmt rm false (dx k)) ∧
        (fn / 8 = 6 → f.s2 = 0 → all (.fcvt c f) fun k => fpRint fmt rm true (dx k)) ∧
        (∀ sw, f.s2.toNat < 8 → fpWidth (BitVec.ofNat 3 f.s2.toNat) = some sw → fn / 8 = 0 →
          gives (.fcvt c f) w (min (128 / w) (128 / sw)) fun k =>
            fpToFp fmt rm (ufe r) (Fp.decode (fmtOf sw) (elem sw (r.getD f.s1.toNat) k))) ∧
        (∀ sw, f.s2.toNat < 8 → intWidth (BitVec.ofNat 3 f.s2.toNat) = some sw →
          let src (k : Nat) : Nat := elem sw (r.getD f.s1.toNat) k
          let of (v : Int) : Nat × Nat := fpToFp fmt rm (ufe r) (.fin (v < 0) v.natAbs 0)
          (fn / 8 = 1 → gives (.fcvt c f) w (min (128 / w) (128 / sw)) fun k => of (toInt sw (src k))) ∧
          (fn / 8 = 2 → gives (.fcvt c f) w (min (128 / w) (128 / sw)) fun k => of (src k)))) ∧
      (fn < 2 → (all (.fmin c f) fun k => fpMinMax fmt false (fn == 1) (x k) (y k)) ∧
        (all (.fmax c f) fun k => fpMinMax fmt true (fn == 1) (x k) (y k))) ∧
      (fn < 7 → all (.fcmp c f) fun k => fpCmp fmt fn (x k) (y k)) ∧
      (fn = 0 → f.s2 = 0 → all (.fclass c f) fun k => (fpClass fmt (x k), 0)) ∧
      (fn < 3 → all (.fsgn c f) fun k => (fpSgn fmt fn (x k) (y k), 0))) ∧
    (∀ w sw rm, intWidth f.w = some w → f.s2.toNat < 8 → fpWidth (BitVec.ofNat 3 f.s2.toNat) = some sw →
      roundOf r fn = some rm →
      let src (k : Nat) : Fp := Fp.decode (fmtOf sw) (elem sw (r.getD f.s1.toNat) k)
      (fn / 8 = 3 → gives (.fcvt c f) w (min (128 / w) (128 / sw)) fun k => fpToInt w true rm (src k)) ∧
      (fn / 8 = 4 → gives (.fcvt c f) w (min (128 / w) (128 / sw)) fun k => fpToInt w false rm (src k)))

/-- R177, R178, R185 to R188, R193: what the operations deliver for NaNs, infinities, zeros and divisions by zero, and how
FCMP, FCLASS and FSGN treat them, in every format and rounding mode. -/
def Obligations.FloatingPointSpecialOperands : Prop :=
  ∀ (f : FpFmt) (rm : Nat) (u : Bool),
    let nv (l : List Fp) : Nat := if Fp.nan true ∈ l then 1 else 0
    (∀ x y : Fp, (x.isNan = true ∨ y.isNan = true) →
      fpAdd f rm u x y = (f.nan, nv [x, y]) ∧ fpMul f rm u x y = (f.nan, nv [x, y]) ∧
      fpDiv f rm u x y = (f.nan, nv [x, y])) ∧
    (∀ sg, fpSqrt f rm u (.nan sg) = (f.nan, nv [.nan sg]) ∧ fpToFp f rm u (.nan sg) = (f.nan, nv [.nan sg])) ∧
    (∀ a b m e g, m ≠ 0 → fpDiv f rm u (.fin a m e) (.fin b 0 g) = (infEnc f (a != b), 2)) ∧
    (∀ a b e g, fpDiv f rm u (.fin a 0 e) (.fin b 0 g) = (f.nan, 1)) ∧
    (∀ a b, fpDiv f rm u (.inf a) (.inf b) = (f.nan, 1) ∧ fpAdd f rm u (.inf a) (.inf (!a)) = (f.nan, 1)) ∧
    (∀ a b e, fpMul f rm u (.fin a 0 e) (.inf b) = (f.nan, 1) ∧ fpMul f rm u (.inf b) (.fin a 0 e) = (f.nan, 1)) ∧
    (∀ a b e z, fpFma f rm u (.inf a) (.fin b 0 e) z = (f.nan, 1) ∧ fpFma f rm u (.fin b 0 e) (.inf a) z = (f.nan, 1)) ∧
    (∀ m e, m ≠ 0 → fpSqrt f rm u (.fin true m e) = (f.nan, 1)) ∧ fpSqrt f rm u (.inf true) = (f.nan, 1) ∧
    (∀ e, fpSqrt f rm u (.fin true 0 e) = (zeroEnc f true, 0)) ∧
    (∀ a m e, m ≠ 0 → fpAdd f rm u (.fin a m e) (.fin (!a) m e) = (zeroEnc f (rm == 3), 0)) ∧
    (∀ a e g, fpAdd f rm u (.fin a 0 e) (.fin a 0 g) = (zeroEnc f a, 0)) ∧
    (∀ w sg, fpToInt w sg rm (.nan true) = (0, 1) ∧ fpToInt w sg rm (.nan false) = (0, 1)) ∧
    (∀ a b : Nat, (Fp.decode f a).isNan = true ∨ (Fp.decode f b).isNan = true →
      let q := nv [Fp.decode f a, Fp.decode f b]
      fpCmp f 0 a b = (0, q) ∧ fpCmp f 1 a b = (1, q) ∧ fpCmp f 2 a b = (0, 1) ∧ fpCmp f 3 a b = (0, 1) ∧
      fpCmp f 4 a b = (1, q) ∧ fpCmp f 5 a b = (0, q) ∧ fpCmp f 6 a b = (0, q) ∧
      (fpMinMax f false false a b).1 = f.nan ∧ (fpMinMax f true false a b).1 = f.nan) ∧
    (∀ a fn b : Nat, (Fp.decode f a).isNan = true → fpSgn f fn a b = f.nan) ∧
    (∀ a : Nat, ∃ k, k < 10 ∧ fpClass f a = 2 ^ k)

/-- R191: an instruction of the add, subtract, multiply and divide group that raises an enabled exception in some element
takes FP_TRAP with every flag raised in DETAIL and the lowest such element in FPTI, and retires nothing. -/
def Obligations.FloatingPointTraps : Prop :=
  ∀ (s : State) (c : CtxId) (f : Rrr) (w rm : Nat), quiet s.dg c 4 = true → c ≠ supCtx → fpWidth f.w = some w →
    f.fn.toNat < 8 → roundOf (regsOf s.dg c) f.fn.toNat = some rm →
    let r := regsOf s.dg c
    let dx (k : Nat) : Fp := Fp.decode (fmtOf w) (elem w (r.getD f.s1.toNat) k)
    let dy (k : Nat) : Fp := Fp.decode (fmtOf w) (elem w (r.getD f.s2.toNat) k)
    let traps (i : Instr) (op : Nat) (g : Nat → Nat × Nat) : Prop :=
      ∀ k, k < 128 / w → (g k).2 &&& (r.fpcr.toNat / 16 % 32) ≠ 0 →
        (∀ j, j < k → (g j).2 &&& (r.fpcr.toNat / 16 % 32) = 0) →
        Traps i s c 4 { vec := 10, detail := (List.range (128 / w)).foldl (fun a j => a ||| (g j).2) 0, addr := none,
                        after := false, fpti := some (BitVec.ofNat 64 (k % 16 + op * 256 + f.w.toNat * 65536)) }
    (traps (.fadd c f) 0x30 fun k => fpAdd (fmtOf w) rm (ufe r) (dx k) (dy k)) ∧
    (traps (.fsub c f) 0x31 fun k => fpAdd (fmtOf w) rm (ufe r) (dx k) (dy k).neg) ∧
    (traps (.fmul c f) 0x32 fun k => fpMul (fmtOf w) rm (ufe r) (dx k) (dy k)) ∧
    (traps (.fdiv c f) 0x33 fun k => fpDiv (fmtOf w) rm (ufe r) (dx k) (dy k))

/-! ### Loads, stores and bit variables (spec/02 R82, R93 to R106, R131 to R134; spec/04 R210 to R216) -/

/-- R82, R93, R96, R100, R102: a load of a ready context whose access completes leaves its value outstanding, to be seen
by every instruction but its shadow, and updates its base as the mode says; a register of the register space is read by
a 64-bit load; a load of the PCIe window waits for its response with no register written. R325: an access to a bank that
wakes waits: nothing but the fetch takes place. -/
def Obligations.LoadResults : Prop :=
  ∀ (s : State) (c : CtxId) (op n d a : Nat) (upd : Option (Nat × Word)) (ext : Nat → Quad),
    let isA := op = 0x2E
    let r := regsOf s.dg c
    let sx (k v : Nat) : Quad := BitVec.ofNat 128 (sext k 128 v)
    (op = 0x20 ∧ n = 1 ∧ ext = sx 8 ∨ op = 0x21 ∧ n = 1 ∧ ext = BitVec.ofNat 128 ∨
     op = 0x22 ∧ n = 2 ∧ ext = sx 16 ∨ op = 0x23 ∧ n = 2 ∧ ext = BitVec.ofNat 128 ∨
     op = 0x24 ∧ n = 4 ∧ ext = sx 32 ∨ op = 0x25 ∧ n = 4 ∧ ext = BitVec.ofNat 128 ∨
     op = 0x26 ∧ n = 8 ∧ ext = sx 64 ∨ op = 0x27 ∧ n = 16 ∧ ext = BitVec.ofNat 128 ∨
     op = 0x2E ∧ n = 8 ∧ ext = BitVec.ofNat 128) →
    (isA → d < 16) →
    let loads (i : Instr) (len : Nat) : Prop :=
      let m := fetched s.dg c len
      let next := r.pc + BitVec.ofNat 48 len
      let based := match upd with
        | some (b, v) => r.setA b v
        | none => r
      (regsMisfit m c a n = false → waits m a n = true → exec i s = .next { s with dg := m }) ∧
      (∀ m' v, regsMisfit m c a n = false → waits m a n = false → regionOf m (isSup c) a ≠ .regs →
        regionOf m (isSup c) a ≠ .pcie → loadMem m c a n = (m', .ok v) → watchHit m' c a n 1 = false →
        exec i s = .next { s with dg := ranOn m' c based next (some ⟨isA, d, ext v, [], r, none⟩) }) ∧
      (∀ v, n = 8 → a % 8 = 0 → waits m a n = false → regionOf m (isSup c) a = .regs → regRead m c a = some v →
        regDark m a = false → watchHit m c a 8 1 = false →
        exec i s = .next { s with dg := ranOn m c based next (some ⟨isA, d, ext v, [], r, none⟩) }) ∧
      (regsMisfit m c a n = false → waits m a n = false → regionOf m (isSup c) a = .pcie → checkAccess m c 0 a n = (m, none) →
        exec i s = .next { s with dg := updCtx m c fun x => { x with pcie := some ⟨op, d, a, upd, next, [], []⟩ } })
    (ready s.dg c 4 = true → ∀ f : Sys2Proof.Mem, f.d.toNat = d → eaMem r f = .ok a upd →
      (op = 0x20 → loads (.ldB c f) 4) ∧ (op = 0x21 → loads (.ldBu c f) 4) ∧ (op = 0x22 → loads (.ldH c f) 4) ∧
      (op = 0x23 → loads (.ldHu c f) 4) ∧ (op = 0x24 → loads (.ldW c f) 4) ∧ (op = 0x25 → loads (.ldWu c f) 4) ∧
      (op = 0x26 → loads (.ldD c f) 4) ∧ (op = 0x27 → loads (.ldQ c f) 4) ∧ (op = 0x2E → loads (.lda c f) 4)) ∧
    (ready s.dg c 8 = true → ∀ (sub : BitVec 4) (f : Long), 0x20 + sub.toNat = op → f.x.toNat / 2048 = d →
      (f.x.toNat % 8 ≤ 4 → eaIndexed r f = .ok a upd → loads (.indexedAccess c sub f) 8) ∧
      (f.x.toNat % 2048 = 0 → eaPc r f = .ok a upd → loads (.pcRelativeAccess c sub f) 8))

/-- R93, R96, R210, R212: a store of a ready context whose access completes puts its bytes into the store buffer, both
halves at once, or, behind the older stores of the context (R211), writes the register or leaves through the PCIe root port;
it updates its base as the mode says. A store to a bank that wakes waits, and so does one that must follow an older store to
such a bank (R325, R211). LEA writes the effective address. -/
def Obligations.StoreAndLeaResults : Prop :=
  ∀ (s : State) (c : CtxId) (op n d a : Nat) (upd : Option (Nat × Word)),
    let r := regsOf s.dg c
    (op = 0x28 ∧ n = 1 ∨ op = 0x29 ∧ n = 2 ∨ op = 0x2A ∧ n = 4 ∨ op = 0x2B ∧ n = 8 ∨ op = 0x2C ∧ n = 16 ∨
     op = 0x2D ∧ n = 8 ∧ d < 16 ∨ op = 0x2F ∧ d < 16) →
    let v := if op = 0x2D then (r.getA d).toNat else (r.getD d).toNat % 2 ^ (8 * n)
    let based := match upd with
      | some (b, w) => r.setA b w
      | none => r
    let stores (i : Instr) (len : Nat) : Prop :=
      let m := fetched s.dg c len
      let next := r.pc + BitVec.ofNat 48 len
      let after (m' : Dg) : Prop := watchHit m' c a n 2 = false →
        exec i s = .next { s with dg := ranOn m' c based next none }
      let held : Prop := waits m a n = true ∨ drainWaits m c = true ∧
        (regionOf m (isSup c) a = .regs ∨ regionOf m (isSup c) a = .pcie ∨ 20 ≤ (getCtx m c).sb.length)
      (regsMisfit m c a n = false → held → exec i s = .next { s with dg := m }) ∧
      (∀ m', regsMisfit m c a n = false → ¬ held → regionOf m (isSup c) a ≠ .regs →
        regionOf m (isSup c) a ≠ .pcie → storeMem m c a n v = (m', none) → after m') ∧
      (∀ m', n = 8 → a % 8 = 0 → ¬ held → regionOf m (isSup c) a = .regs →
        regStore (drainAll m c) c a 8 v = (m', none) → calm m' c = true → after m') ∧
      (regsMisfit m c a n = false → ¬ held → regionOf m (isSup c) a = .pcie → checkAccess m c 1 a n = (m, none) →
        after (pcieWrote (drainAll m c)
          ((halves a n).map fun h => (h.1 - pcieBase, leBytes h.2 (v / 2 ^ (8 * (h.1 - a)))))))
    let leas (i : Instr) (len : Nat) : Prop :=
      (∀ b w, upd = some (b, w) → b = d → w = BitVec.ofNat 64 a) → Retires i s c len (based.setA d (BitVec.ofNat 64 a))
    (ready s.dg c 4 = true → ∀ f : Sys2Proof.Mem, f.d.toNat = d → eaMem r f = .ok a upd →
      (op = 0x28 → stores (.stB c f) 4) ∧ (op = 0x29 → stores (.stH c f) 4) ∧ (op = 0x2A → stores (.stW c f) 4) ∧
      (op = 0x2B → stores (.stD c f) 4) ∧ (op = 0x2C → stores (.stQ c f) 4) ∧ (op = 0x2D → stores (.sta c f) 4) ∧
      (op = 0x2F → leas (.lea c f) 4)) ∧
    (ready s.dg c 8 = true → ∀ (sub : BitVec 4) (f : Long), 0x20 + sub.toNat = op → f.x.toNat / 2048 = d →
      (f.x.toNat % 8 ≤ 4 → eaIndexed r f = .ok a upd →
        (op ≠ 0x2F → stores (.indexedAccess c sub f) 8) ∧ (op = 0x2F → leas (.indexedAccess c sub f) 8)) ∧
      (f.x.toNat % 2048 = 0 → eaPc r f = .ok a upd →
        (op ≠ 0x2F → stores (.pcRelativeAccess c sub f) 8) ∧ (op = 0x2F → leas (.pcRelativeAccess c sub f) 8)))

/-- R94: outside banked short mode an effective address with a bit above 47 set raises ADDRESS with EA[47:0] in EADDR, and
nothing else happens; banked short mode never does (R95). -/
def Obligations.EffectiveAddressRange : Prop :=
  (∀ (s : State) (c : CtxId) (f : Sys2Proof.Mem), quiet s.dg c 4 = true → f.m ≠ 3 → f.d.toNat < 16 →
    let an := (regsOf s.dg c).getA f.base.toNat
    let ea := if f.m = 1 then an else an + f.disp.signExtend 64
    2 ^ 48 ≤ ea.toNat →
    ∀ i ∈ [Instr.ldB c f, .ldBu c f, .ldH c f, .ldHu c f, .ldW c f, .ldWu c f, .ldD c f, .ldQ c f, .stB c f, .stH c f,
           .stW c f, .stD c f, .stQ c f, .sta c f, .lda c f, .lea c f],
      Traps i s c 4 { vec := 6, detail := 0, addr := some (ea.toNat % 2 ^ 48), after := false, fpti := none }) ∧
  (∀ (r : Regs) (f : Sys2Proof.Mem), f.m = 3 → ∃ a, a < 2 ^ 48 ∧ eaMem r f = .ok a none ∧
    a / 2 ^ 32 = (SMap.get r.bk (f.disp.toNat / 4096)).toNat ∧
    a % 2 ^ 32 = ((r.getA f.base.toNat).toNat + ((f.disp.setWidth 12).signExtend 64 : Word).toNat) % 2 ^ 32)

/-- R131 to R134: in STR mode a bit variable of Canvas RAM is loaded, set, cleared or inverted in its word, behind the
older stores of the context, and one of a register is loaded or written with no other bit enabled; outside STR mode the four
instructions are ILLEGAL with detail 5, and outside the two ranges the access is DATA_ACCESS with detail 2. A change waits
while an older store must (R325, R211); the word reaches memory, and the context's own caches hold it. -/
def Obligations.BitVariables : Prop :=
  ∀ (s : State) (c : CtxId) (f : BitF),
    let r := regsOf s.dg c
    let m := fetched s.dg c 4
    let n := (r.getA f.an.toNat + f.disp.signExtend 64).toNat
    let a := n / 8
    let traps (vec d : Nat) (addr : Option Nat) : Prop := ∀ i ∈ [Instr.btst c f, .bset c f, .bclr c f, .binv c f],
      Traps i s c 4 { vec := vec, detail := d, addr := addr, after := false, fpti := none }
    (quiet s.dg c 4 = true → r.mode ≠ .str → traps 1 5 none) ∧
    (quiet s.dg c 4 = true → r.mode = .str → n < 2 ^ 51 → regionOf m (isSup c) a ≠ .canvas → regionOf m (isSup c) a ≠ .regs →
      traps 4 2 (some a)) ∧
    (ready s.dg c 4 = true → r.mode = .str → n < 2 ^ 51 →
      let ld (b : Bool) : PendLoad := ⟨false, f.d.toNat, BitVec.ofNat 128 (b2n b), [], r, none⟩
      (regionOf m (isSup c) a = .canvas → waits m a 1 = false →
        (∀ m' v, loadMem m c a 1 = (m', .ok v) → watchHit m' c a 1 1 = false →
          exec (.btst c f) s = .next { s with dg := ranOn m' c r (r.pc + 4) (some (ld (bit v (n % 8)))) }) ∧
        (drainWaits m c = true → ∀ i ∈ [Instr.bset c f, .bclr c f, .binv c f], exec i s = .next { s with dg := m }) ∧
        (∀ m' w, drainWaits m c = false → checkSpan m c 1 [(a, 1)] = (m, none) →
          readWord (writeBack (drainAll m c) c (a / 16)) (viaCtx c) a = (m', some w) →
          let k := a % 16 * 8 + n % 8
          let sets (i : Instr) (b : Bool) : Prop :=
            let w' := setBits w k 1 (b2n b)
            let t := cacheStore (writeWord m' (viaCtx c) a (BitVec.allOnes 16) w').1 c
              ⟨wordOf a, BitVec.allOnes 16, BitVec.ofNat 128 w'⟩
            watchHit t c a 1 2 = false → exec i s = .next { s with dg := ranOn t c r (r.pc + 4) none }
          sets (.bset c f) true ∧ sets (.bclr c f) false ∧ sets (.binv c f) (!bit w k))) ∧
      (regionOf m (isSup c) a = .regs →
        let g := a / 8 * 8
        let k := a % 8 * 8 + n % 8
        ∀ v, regRead m c g = some v → regDark m g = false →
          (watchHit m c (g + k / 8) 1 1 = false →
            exec (.btst c f) s = .next { s with dg := ranOn m c r (r.pc + 4) (some (ld (bit v k))) }) ∧
          (drainWaits m c = false →
           let sets (i : Instr) (b : Bool) : Prop :=
            ∀ m', regStore (drainAll m c) c g 8 (setBits 0 k 1 (b2n b)) = (m', none) →
              let t := if bitInert g k then drainAll m c else m'
              calm t c = true → watchHit t c (g + k / 8) 1 2 = false → exec i s = .next { s with dg := ranOn t c r (r.pc + 4) none }
           sets (.bset c f) true ∧ sets (.bclr c f) false ∧
           (regRead (drainAll m c) c g = some v → sets (.binv c f) (!bit v k)))))

/-! ### Control flow (spec/02 R107 to R126, R139, R140) -/

/-- R112, R139, R140, R198: where a branch or a jump of a ready context goes; it changes no register but the pc, and the branch
predictor takes note of it. A target that is not 4-byte aligned raises ALIGN with detail 3.
R107 to R110: a call whose checks pass stores A14, the mask and the selected registers in its frame, and sets A15, A14
and the pc; a return whose frame holds its mask, read first, restores the registers, then A14, and frees the frame. -/
def Obligations.BranchesCallsReturns : Prop :=
  (∀ (s : State) (c : CtxId), ready s.dg c 4 = true →
     let r := regsOf s.dg c
     let goes (i : Instr) (len : Nat) (kind : BrKind) (target : Option Addr) : Prop :=
       exec i s = .next { s with dg := branched (fetched s.dg c len) c len r kind target }
     let words (d : Word) : Addr := r.pc + (d * 4).setWidth 48
     let jumps (i : Instr) (len : Nat) (kind : BrKind) (target : Addr) : Prop :=
       (target.toNat % 4 = 0 → goes i len kind (some target)) ∧
       (target.toNat % 4 ≠ 0 → Traps i s c len { vec := 5, detail := 3, addr := none, after := false, fpti := none })
     (∀ f : Br,
       (r.getD f.t.toNat = 0 → jumps (.bz c f) 4 .bz (words (f.disp.signExtend 64)) ∧ goes (.bnz c f) 4 .bnz none) ∧
       (r.getD f.t.toNat ≠ 0 → jumps (.bnz c f) 4 .bnz (words (f.disp.signExtend 64)) ∧ goes (.bz c f) 4 .bz none)) ∧
     (∀ d : BitVec 25, jumps (.j c d) 4 .j (words (d.signExtend 64))) ∧
     (∀ f : Jr, f.rsvHi = 0 → f.rsvLo = 0 → jumps (.jr c f) 4 .jr ((r.getA f.an.toNat).setWidth 48)) ∧
     (ready s.dg c 8 = true → ∀ f : Long, f.x = 0 → jumps (.jl c f) 8 .jl (words (f.imm.signExtend 64)))) ∧
  (∀ (s : State) (c : CtxId) (mask : BitVec 16),
     let r := regsOf s.dg c
     let saved := (List.range 16).filter fun i => mask.getLsbD i
     let size := 16 + 16 * saved.length
     let a15 := (r.getA 15).toNat
     let sp := a15 - size
     let limit := if r.mode = .user then r.slimu.toNat else r.slims.toNat
     let calls (i : Instr) (len : Nat) (kind : BrKind) (target : Addr) : Prop :=
       let m := fetched s.dg c len
       ∀ m', a15 % 16 = 0 → size ≤ a15 → sp < 2 ^ 48 → limit ≤ sp → target.toNat % 4 = 0 → regionOf m (isSup c) sp ≠ .regs →
         (drainWaits m c = false ∨ regionOf m (isSup c) sp ≠ .pcie ∧ (getCtx m c).sb.length < 20) →
         storeQuads m c sp (((r.getA 14).toNat + mask.toNat * 2 ^ 64) :: saved.map fun k => (r.getD (16 + k)).toNat) = (m', none) →
         let r' := (r.setA 15 (BitVec.ofNat 64 sp)).setA 14 ((r.pc + BitVec.ofNat 48 len).setWidth 64)
         exec i s = .next { s with dg := branched m' c len r' kind (some target) }
     (ready s.dg c 8 = true → ∀ f : Long, f.x = mask →
       calls (.call c f) 8 .call (r.pc + ((f.imm.signExtend 64 : Word) * 4).setWidth 48)) ∧
     (ready s.dg c 4 = true → ∀ f : CallR, f.mask = mask → f.rsv = 0 →
       let m := fetched s.dg c 4
       calls (.callr c f) 4 .callr ((r.getA f.an.toNat).setWidth 48) ∧
       (f.an = 0 → a15 + 8 < 2 ^ 48 → regionOf m (isSup c) (a15 + 8) ≠ .regs → (r.getA 14).toNat % 4 = 0 →
         waits m (a15 + 8) 8 = false → waits m (a15 + size - 16) 16 = false →
         (∀ (word w0 : Nat) (vs : Nat → Nat) (ms : Nat → Dg) (m' : Dg), loadPart m c (a15 + 8) 8 = (ms 0, .ok word) →
           word = mask.toNat →
           (∀ k, k < saved.length → loadPart (ms k) c (a15 + 16 + 16 * k) 16 = (ms (k + 1), .ok (vs k))) →
           loadPart (ms saved.length) c a15 8 = (m', .ok w0) →
           ∃ r', exec (.ret c f) s =
               .next { s with dg := branched m' c 4 r' .ret (some ((r.getA 14).setWidth 48)) } ∧
             (∀ k i, saved[k]? = some i → r'.getD (16 + i) = BitVec.ofNat 128 (vs k)) ∧
             (∀ j, j < 16 ∨ mask.getLsbD (j - 16) = false ∨ 32 ≤ j → r'.getD j = r.getD j) ∧
             r'.getA 14 = BitVec.ofNat 64 w0 ∧ r'.getA 15 = BitVec.ofNat 64 (a15 + size) ∧
             (∀ j, j < 14 → r'.getA j = r.getA j) ∧
             { r with d := r'.d, a := r'.a, a15s := r'.a15s, a15u := r'.a15u } = r') ∧
         (∀ (word : Nat) (m' : Dg), loadPart m c (a15 + 8) 8 = (m', .ok word) → word ≠ mask.toNat →
           exec (.ret c f) s =
             .next { s with dg := takeExn m' c { vec := 8, detail := 0, addr := none, after := false, fpti := none } }))))

/-- R114, R117, R118, R122: what LOOPI, LOOP, LBREAK and REP set, with the counts of 0 that open no loop and run no
iteration, and the three exceptions of nesting. The end of an enclosing body is evaluated at the same retirement. -/
def Obligations.LoopsAndRepeats : Prop :=
  ∀ (s : State) (c : CtxId),
    let r := regsOf s.dg c
    let k := r.ldepth
    let leads (i : Instr) (len : Nat) (r' : Regs) (target : Addr) : Prop :=
      let e := endLoops r.pc 4 r' target
      exec i s = .next { s with dg := ranTo s.dg c len e.1 e.2 none }
    let loopTrap (i : Instr) (len d : Nat) : Prop :=
      Traps i s c len { vec := 9, detail := d, addr := none, after := false, fpti := none }
    let opens (i : Instr) (len words count : Nat) : Prop :=
      let ls := r.pc + BitVec.ofNat 48 len
      let le := ls + BitVec.ofNat 48 (4 * words)
      let inside (x : Addr) : Prop := SMap.get r.ls (k - 1) ≤ x ∧ x ≤ SMap.get r.le (k - 1)
      (4 ≤ k → loopTrap i len 1) ∧
      (0 < k → k < 4 → ¬ (inside ls ∧ inside le) → loopTrap i len 2) ∧
      (k < 4 → (k = 0 ∨ inside ls ∧ inside le) → count = 0 → leads i len r le) ∧
      (k < 4 → (k = 0 ∨ inside ls ∧ inside le) → count ≠ 0 →
        let r' := { r with ls := SMap.set r.ls k ls, le := SMap.set r.le k le, lc := SMap.set r.lc k (BitVec.ofNat 32 count),
                           ldepth := k + 1 }
        exec i s = .next { s with dg := ranTo s.dg c len r' ls none })
    (quiet s.dg c 4 = true →
      (∀ f : LoopI, f.len ≠ 0 → f.rsv = 0 → opens (.loopi c f) 4 f.len.toNat f.count.toNat) ∧
      (k = 0 → loopTrap (.lbreak c 0) 4 3) ∧
      (0 < k → leads (.lbreak c 0) 4 { r with ldepth := k - 1 } (SMap.get r.le (k - 1))) ∧
      (∀ f : RepF, f.rsv = 0 → repRefused f.next = none → (f.s = true → f.count = 0) →
        let n : BitVec 16 := if f.s then r.repcnt else f.count.setWidth 16
        (n = 0 → leads (.rep c f) 4 { r with repcnt := 0 } (r.pc + 8)) ∧
        (n ≠ 0 → leads (.rep c f) 4 { r with repcnt := n, rep := some r.pc } (r.pc + 4)))) ∧
    (quiet s.dg c 8 = true → ∀ f : Long, f.x.toNat % 2048 = 0 → f.imm.toNat ≠ 0 → f.imm.toNat < 2 ^ 24 →
      opens (.loop c f) 8 f.imm.toNat ((r.getD (f.x.toNat / 2048)).toNat % 2 ^ 32))

/-- R115, R116: an instruction inside the innermost loop body whose next pc is the exit counts LC down; the loop goes on
at its start, or ends, and with it every enclosing loop whose exit coincides.
R122, R125: an iteration of a repeated instruction counts REPCNT down and stays at the instruction until the last,
behind which the context goes on. -/
def Obligations.LoopAndRepeatIterations : Prop :=
  (∀ (pcI : Addr) (r : Regs) (n : Nat), 0 < r.ldepth → r.ldepth ≤ n →
     let k := r.ldepth - 1
     let exit := SMap.get r.le k
     let count := SMap.get r.lc k - 1
     let inBody := SMap.get r.ls k ≤ pcI ∧ pcI < exit
     let counted := { r with lc := SMap.set r.lc k count }
     (inBody → count ≠ 0 → endLoops pcI n r exit = (counted, SMap.get r.ls k)) ∧
     (inBody → count = 0 → k = 0 → endLoops pcI n r exit = ({ counted with ldepth := 0 }, exit)) ∧
     (inBody → count = 0 → endLoops pcI n r exit = endLoops pcI (n - 1) { counted with ldepth := k } exit) ∧
     (∀ next, ¬ (inBody ∧ next = exit) → endLoops pcI n r next = (r, next))) ∧
  (∀ (s : State) (c : CtxId) (f : Rrr) (w : Nat) (p : Addr),
     let r := regsOf s.dg c
     runnable s.dg c = true → irqDue (getCtx s.dg c) = false → breakHit s.dg c r.pc.toNat = false → awake s.dg c 4 = true →
     (fetches s.dg c 4).2 = true → calm s.dg c = true → r.pmctl = 0 → r.ldepth = 0 → r.rep = some p → r.repcnt ≠ 0 →
     intWidth f.w = some w → f.fn = 0 →
     let v := ofElems w fun i => (elem w (r.getD f.s1.toNat) i + elem w (r.getD f.s2.toNat) i) % 2 ^ w
     let r' := { r.setD f.d.toNat v with repcnt := r.repcnt - 1 }
     (r.repcnt ≠ 1 → exec (.add c f) s = .next { s with dg := ranTo s.dg c 4 r' r.pc none }) ∧
     (r.repcnt = 1 → exec (.add c f) s =
       .next { s with dg := ranTo s.dg c 4 { r' with rep := none, repact := false } (r.pc + 4) none }))

/-! ### Exceptions, control registers and interrupts (spec/02 R88 to R92, R142 to R148; spec/04 R216 to R241) -/

/-- R146, Table 02.26: a frame that can be stored adds its eleven words to the store buffer, D0 to D7 lowest, then A0 to
A3, then the stacked pc and STATUS, and changes nothing else.
R148: where the supervisor stack pointer is not aligned, or the frame would lie below its limit, a SYSCALL writes its cause
and address (R228) and stops the context: nothing of it runs on. -/
def Obligations.ExceptionEntries : Prop :=
  ((∀ (r : Regs) (pc : Addr) (status : Word),
     let l := frameWords r pc status
     l.length = 11 ∧ (∀ i, i < 8 → l[i]? = some (r.getD i).toNat) ∧
     l[8]? = some ((SMap.get r.a 0).toNat + (SMap.get r.a 1).toNat * 2 ^ 64) ∧
     l[9]? = some ((SMap.get r.a 2).toNat + (SMap.get r.a 3).toNat * 2 ^ 64) ∧
     l[10]? = some (pc.toNat + status.toNat * 2 ^ 64)) ∧
   (∀ (m m' : Dg) (c : CtxId) (a : Nat) (l : List Nat), storeFrame m c a l = (m', true) →
     getCtx m' c = { getCtx m c with
       sb := (getCtx m c).sb ++ (List.range l.length).map fun i => ⟨a + 16 * i, BitVec.allOnes 16, BitVec.ofNat 128 (l.getD i 0)⟩ } ∧
     { m' with ctx := m.ctx } = m)) ∧
  (∀ (s : State) (c : CtxId) (f : Sys), quiet s.dg c 4 = true → f.rsv = 0 → c < 56 →
     isShadowCtx s.dg c = false → underLive s.dg = false →
     let r := regsOf s.dg c
     (r.a15s.toNat % 16 ≠ 0 ∨ r.a15s.toNat < 176 ∨ r.a15s.toNat - 176 < r.slims.toNat) →
     ∃ t, exec (.syscall c f) s = .next t ∧ (getCtx t.dg c).stopped = true ∧ runnable t.dg c = false ∧
       regsOf t.dg c = { r with ecause := 11, eaddr := BitVec.ofNat 64 f.arg.toNat } ∧
       ∃ msg, (SMap.get t.dg.srcs (ctxSrc c)).fifo.getLast? = some msg)

/-- R72, R139, R140, R143: a SYSCALL, a BKPT without a session and a word that spells no instruction take their exceptions, in
every context that is quiet: the vector, the detail and the address the rules give, the next instruction stacked by the first
two; a word that spells an instruction is no such occurrence; BKPT in a context that a session is attached to, Labazor-S
included (R398), halts it behind the instruction.
R137 to R140, R267, Tables 02.22 to 02.24: words of every format, written out field by field, and what they spell. -/
def Obligations.SystemInstructionsComplete : Prop :=
  (∀ (s : State) (c : CtxId) (f : Sys), quiet s.dg c 4 = true → f.rsv = 0 →
     Traps (.syscall c f) s c 4 { vec := 11, detail := 0, addr := some f.arg.toNat, after := true, fpti := none } ∧
     (f.arg = 0 → easelAttached s.dg c = false →
       Traps (.bkpt c f) s c 4 { vec := 12, detail := 0, addr := none, after := true, fpti := none }) ∧
     (f.arg = 0 → easelAttached s.dg c = true → ready s.dg c 4 = true →
       exec (.bkpt c f) s =
         .next { s with dg := ranOn (haltAt (fetched s.dg c 4) c) c (regsOf s.dg c) ((regsOf s.dg c).pc + 4) none })) ∧
  (∀ (s : State) (c : CtxId) (w : BitVec 32) (len : Nat), len = (if opcodeOf w = 0x7F then 8 else 4) →
     (∀ d, decodeInstr c w 0 0 = .error d → quiet s.dg c len = true →
       Traps (.undefinedOpcode c w) s c len { vec := 1, detail := d, addr := none, after := false, fpti := none }) ∧
     (∀ i, decodeInstr c w 0 0 = .ok i → exec (.undefinedOpcode c w) s = .next s)) ∧
  (∀ (c : CtxId) (n p : BitVec 32),
     decodeInstr c (0x01#7 ++ 3#5 ++ 1#5 ++ 2#5 ++ 3#3 ++ 0#7) n p = .ok (.add c ⟨3, 1, 2, 3, 0⟩) ∧
     decodeInstr c (0x42#7 ++ 9#5 ++ 8#5 ++ 7#5 ++ 6#5 ++ 2#3 ++ 0#2) n p = .ok (.sel c ⟨9, 8, 7, 6, 2, 0⟩) ∧
     decodeInstr c (0x10#7 ++ 5#5 ++ 4#5 ++ 2#3 ++ 0xFFF#12) n p = .ok (.addi c ⟨5, 4, 2, 0xFFF⟩) ∧
     decodeInstr c (0x24#7 ++ 11#5 ++ 14#4 ++ 2#2 ++ 0x2008#14) n p = .ok (.ldW c ⟨11, 14, 2, 0x2008⟩) ∧
     decodeInstr c (0x50#7 ++ 1#5 ++ 0xFFFFE#20) n p = .ok (.bz c ⟨1, 0xFFFFE⟩) ∧
     decodeInstr c (0x52#7 ++ 0x00FF#16 ++ 7#4 ++ 0#5) n p = .ok (.callr c ⟨0x00FF, 7, 0⟩) ∧
     decodeInstr c (0x56#7 ++ 100#12 ++ 9#11 ++ 0#2) n p = .ok (.loopi c ⟨100, 9, 0⟩) ∧
     decodeInstr c (0x59#7 ++ 2#5 ++ 0x123#12 ++ 1#3 ++ 0#5) n p = .ok (.deqRel c ⟨2, 0x123, 1, 0⟩) ∧
     decodeInstr c (0x5D#7 ++ 6#5 ++ 0x003#12 ++ 0#8) n p = .ok (.csrw c ⟨6, 0x003, 0⟩) ∧
     decodeInstr c (0x5E#7 ++ 0x0042#16 ++ 0#2 ++ 0#7) n p = .ok (.syscall c ⟨0x0042, 0⟩) ∧
     decodeInstr c (0x61#7 ++ 17#5 ++ 3#4 ++ 0x8000#16) n p = .ok (.bset c ⟨17, 3, 0x8000⟩) ∧
     decodeInstr c (0x7E#7 ++ 0#1 ++ 16#12 ++ 0#12) n p = .ok (.rep c ⟨false, 16, 0, n⟩) ∧
     decodeInstr c (0x7F#7 ++ 0x003#9 ++ (4#5 ++ 1#1 ++ 0#10)) n p = .ok (.li c ⟨4#5 ++ 1#1 ++ 0#10, n⟩) ∧
     decodeInstr c (0x5E#7 ++ 0#16 ++ 0#2 ++ 6#7) n p = .error 2 ∧
     decodeInstr c (0x7F#7 ++ 0x030#9 ++ 0#16) n p = .error 1 ∧
     decodeInstr c 0 n p = .error 1)

/-- R143, R146, R147, R148: SYSCALL, BKPT without a session and a word that spells no instruction enter their handlers with
the cause, the address, the stacked pc and the mode the rules give, and the handler's line is requested (R228), whenever the
frame and the vector can be reached; otherwise the entry fails.
Tables 02.25, 02.26: a SYSCALL of a group or QM core in deterministic mode, with an aligned supervisor stack in a writable
access window over lit Canvas RAM and a handler address in a readable one, starts its handler: cause, argument and mode as
the rules say, the pc at the handler, the frame in the store buffer, no byte of memory and no other context changed. -/
def Obligations.SystemEntries : Prop :=
  (∀ (s : State) (c : CtxId) (len : Nat), quiet s.dg c len = true →
     let r := regsOf s.dg c
     let enters (i : Instr) (vec detail : Nat) (addr : Option Nat) (pc : Addr) : Prop :=
       let cause : Word := BitVec.ofNat 64 (vec + detail * 65536)
       let r1 := { r with ecause := cause, eaddr := (addr.map (BitVec.ofNat 64)).getD r.eaddr }
       let m0 := updCtx (fetched s.dg c len) c fun x => { x with r := r1, load := none }
       (frameAndHandler m0 c r vec pc (statusWord r) = none → exec i s = .next { s with dg := entryFail m0 c }) ∧
       (∀ m h, frameAndHandler m0 c r vec pc (statusWord r) = some (m, h) →
         exec i s = .next { s with dg := handlerAt m c (handlerRegs r cause addr h) })
     (len = 4 → ∀ f : Sys, f.rsv = 0 →
       enters (.syscall c f) 11 0 (some f.arg.toNat) (r.pc + 4) ∧
       (f.arg = 0 → easelAttached s.dg c = false → enters (.bkpt c f) 12 0 none (r.pc + 4))) ∧
     (∀ (w : BitVec 32) (d : Nat), decodeInstr c w 0 0 = .error d → len = (if opcodeOf w = 0x7F then 8 else 4) →
       enters (.undefinedOpcode c w) 1 d none r.pc)) ∧
  (∀ (s : State) (c : CtxId) (f : Sys), quiet s.dg c 4 = true → f.rsv = 0 → c < 56 →
     let r := regsOf s.dg c
     let m := fetched s.dg c 4
     let x := getCtx m c
     let sp := r.a15s.toNat
     let va := (r.evbase.toNat + 88) % 2 ^ 48
     let word := va / 16 * 16
     let h := ofLe (peeks m va 8)
     r.det = true → sp % 16 = 0 → 0x20000000 + 176 ≤ sp → sp ≤ 0x24000000 → r.slims.toNat ≤ sp - 176 → x.sb.length ≤ 21 →
     (∃ w ∈ x.windows, w.write = true ∧ w.base ≤ sp - 176 ∧ sp ≤ w.base + w.size) →
     (∀ i, i < 11 → bankDark m (sp - 176 + 16 * i) = false ∧ ringAt m (sp - 176 + 16 * i) 16 = none) →
     va % 8 = 0 → 0x20000000 ≤ va → va < 0x24000000 → bankDark m va = false → ringAt m va 8 = none → getErr m word 0 = 0 →
     (∃ w ∈ x.windows, w.read = true ∧ w.base ≤ va ∧ va + 8 ≤ w.base + w.size) →
     (∀ e ∈ x.sb, e.addr ≠ word) → (word + 16 ≤ sp - 176 ∨ sp ≤ word) → h % 4 = 0 → h < 2 ^ 48 →
     ∃ t, exec (.syscall c f) s = .next t ∧
       regsOf t.dg c = handlerRegs r 11 (some f.arg.toNat) (BitVec.ofNat 48 h) ∧
       (getCtx t.dg c).sb = x.sb ++ (List.range 11).map (fun i =>
         ⟨sp - 176 + 16 * i, BitVec.allOnes 16, BitVec.ofNat 128 ((frameWords r (r.pc + 4) (statusWord r)).getD i 0)⟩) ∧
       t.dg.mem = m.mem ∧ (∀ d, d ≠ c → getCtx t.dg d = getCtx m d))

/-- R147: ERET restores D0 to D7, A0 to A3, the pc and STATUS from the frame at the supervisor A15, and frees the frame;
with REPACT set and a REP prefix at the frame's pc it resumes the repetition while iterations remain (R125).
R144: the word of the frame that holds STATUS is read first; a frame that names a reserved mode or depth, or STR from outside
STR, is refused before any other word is read, and a word that cannot be read raises its exception. ERET waits for a bank
that wakes (R325). -/
def Obligations.ExceptionReturn : Prop :=
  ∀ (s : State) (c : CtxId) (f : Sys) (word : BitVec 32) (m1 : Dg), quiet s.dg c 4 = true → f.rsv = 0 → f.arg = 0 →
    let r := regsOf s.dg c
    let m := fetched s.dg c 4
    (r.mode = .user → Traps (.eret c f word) s c 4 { vec := 2, detail := 0, addr := none, after := false, fpti := none }) ∧
    (let reads : Prop := r.mode ≠ .user ∧ r.a15s.toNat < 2 ^ 48 ∧ regionOf m (isSup c) r.a15s.toNat ≠ .regs
     (reads → waits m r.a15s.toNat 16 = true ∨ waits m (r.a15s.toNat + 160) 16 = true →
        exec (.eret c f word) s = .next { s with dg := m }) ∧
     (reads → waits m r.a15s.toNat 16 = false → waits m (r.a15s.toNat + 160) 16 = false →
      (∀ e, loadStatus m c r.a15s.toNat = (m1, .error e) → e.vec < 32 →
        exec (.eret c f word) s = .next { s with dg := takeExn m1 c e }) ∧
      ∀ w, loadStatus m c r.a15s.toNat = (m1, .ok w) →
      let st := w / 2 ^ 64
      let pc : Addr := BitVec.ofNat 48 (w % 2 ^ 64)
      let isRep := word.toNat / 2 ^ 25 = 0x7E
      let traps (v d : Nat) : Prop := exec (.eret c f word) s =
        .next { s with dg := takeExn m1 c { vec := v, detail := d, addr := none, after := false, fpti := none } }
      (st % 4 = 3 ∨ 4 < st / 2 ^ 8 % 8 ∨ st / 2 ^ 11 % 2 = 1 ∧ ¬ isRep → traps 1 0x0A) ∧
      (r.mode = .supervisor → st % 4 = 2 → st / 2 ^ 8 % 8 ≤ 4 → (st / 2 ^ 11 % 2 = 1 → isRep) → traps 2 0) ∧
      (st % 4 ≠ 3 → (st % 4 = 2 → r.mode = .str) → st / 2 ^ 8 % 8 = 0 → (st / 2 ^ 11 % 2 = 1 → isRep) →
        w % 4 = 0 → ∀ l m', loadFrame m1 c r.a15s.toNat 10 = (m', .ok l) →
        ∃ q : Regs, exec (.eret c f word) s = .next { s with dg := ranOn m' c q q.pc none } ∧
          (∀ i, q.getD i = if i < 8 then BitVec.ofNat 128 (l.getD i 0) else r.getD i) ∧
          (∀ i, SMap.get q.a i =
            if i < 4 then BitVec.ofNat 64 (l.getD (8 + i / 2) 0 / 2 ^ (64 * (i % 2))) else SMap.get r.a i) ∧
          q.a15s = r.a15s + 176 ∧ modeCode q.mode = st % 4 ∧ q.ie = (st / 4 % 2 == 1) ∧ q.ipl = st / 16 % 16 ∧ q.ldepth = 0 ∧
          (if st / 2 ^ 11 % 2 = 0 then q.repact = false ∧ q.rep = none ∧ q.pc = pc
           else if r.repcnt = 0 then q.repact = false ∧ q.rep = none ∧ q.pc = pc + 8
           else q.repact = true ∧ q.rep = some pc ∧ q.pc = pc + 4) ∧
          { r with d := q.d, a := q.a, a15s := q.a15s, mode := q.mode, ie := q.ie, ipl := q.ipl, ldepth := 0,
                   repact := q.repact, pc := q.pc, rep := q.rep } = q)))

/-- R16, R17, R88, R92: a control register that exists is read whole; a legal write changes its writable bits and no other
register; a value with a reserved code changes nothing; an undefined number or a write to a read-only register is
ILLEGAL with detail 8, and User mode has no access to registers 0x001 to 0x006. -/
def Obligations.ControlRegisters : Prop :=
  ∀ (s : State) (c : CtxId) (f : CsrF), ready s.dg c 4 = true → f.rsv = 0 →
    let r := regsOf s.dg c
    let n := f.csr.toNat
    let v : Word := (r.getD f.d.toNat).setWidth 64
    let low (i k : Nat) : Prop := n = i + k ∧ k < 4
    let takes (r' : Regs) : Prop := Retires (.csrw c f) s c 4 r'
    let traps (i : Instr) (vec d : Nat) : Prop := Traps i s c 4 { vec := vec, detail := d, addr := none, after := false, fpti := none }
    (csrExists (isSup c) n = true → csrPrivileged r n false = false →
      Retires (.csrr c f) s c 4 (r.setD f.d.toNat ((csrRead s.dg.part (isSup c) r n).setWidth 128))) ∧
    (csrExists (isSup c) n = false → traps (.csrr c f) 1 8 ∧ traps (.csrw c f) 1 8) ∧
    (n = 1 ∨ n = 2 ∨ n = 0x42 ∨ 0xF00 ≤ n → traps (.csrw c f) 1 8) ∧
    (r.mode = .user → n ∈ [3, 4, 5, 6] → traps (.csrr c f) 2 0 ∧ traps (.csrw c f) 2 0) ∧
    (r.mode = .user → n = 0 → traps (.csrw c f) 2 0 ∧ traps (.statusWrite c f) 2 0) ∧
    (r.mode = .supervisor → n = 0 → v.toNat % 4 = 2 → traps (.statusWrite c f) 2 0) ∧
    (r.mode ≠ .user → n = 0 → v.toNat % 4 ≠ 3 → (v.toNat % 4 = 2 → r.mode = .str) → v.toNat / 2 ^ 8 % 8 = 0 →
      ∃ r', Retires (.statusWrite c f) s c 4 r' ∧ modeCode r'.mode = v.toNat % 4 ∧ r'.ie = (v.toNat / 4 % 2 == 1) ∧
        r'.ipl = v.toNat / 16 % 16 ∧ r'.repact = (v.toNat / 2 ^ 11 % 2 == 1) ∧
        { r with mode := r'.mode, ie := r'.ie, ipl := r'.ipl, ldepth := 0, repact := r'.repact } = r') ∧
    (r.mode ≠ .user → (n = 3 → takes { r with evbase := v &&& 0xFFFFFFFFE000 }) ∧
      (n = 4 → takes { r with slimu := v &&& 0xFFFFFFFFFFF0 }) ∧ (n = 5 → takes { r with slims := v &&& 0xFFFFFFFFFFF0 }) ∧
      (n = 6 → takes { r with a15u := v })) ∧
    (∀ k, (low 0x10 k → takes { r with bk := SMap.set r.bk k (v.setWidth 16) }) ∧
      (low 0x20 k → takes { r with ls := SMap.set r.ls k ((v &&& 0xFFFFFFFFFFFC).setWidth 48) }) ∧
      (low 0x24 k → takes { r with le := SMap.set r.le k ((v &&& 0xFFFFFFFFFFFC).setWidth 48) }) ∧
      (low 0x28 k → takes { r with lc := SMap.set r.lc k (v.setWidth 32) })) ∧
    (n = 0x2C → takes { r with repcnt := v.setWidth 16 }) ∧
    (n = 0x30 → v.toNat % 8 < 4 ∨ v.toNat % 8 = 4 ∧ 7 ≤ v.toNat / 16 % 64 → takes { r with crcpoly := v &&& 0x3FF }) ∧
    (n = 0x31 → takes { r with crcpolyv := v }) ∧
    (isSup c = false → (n = 0x40 → 1 ≤ v.toNat % 8 → v.toNat % 8 ≤ 5 → takes { r with fpcr := v &&& 0x1F7 }) ∧
      (n = 0x41 → takes { r with fpsr := v &&& 0x1F })) ∧
    (n = 0x30 → 5 ≤ v.toNat % 8 ∨ v.toNat % 8 = 4 ∧ v.toNat / 16 % 64 < 7 →
      exec (.csrw c f) s =
        .next { s with dg := ranOn (ctxReport (fetched s.dg c 4) c kRegReserved) c r (r.pc + 4) none }) ∧
    (∀ hw : BitVec 8, isSup c = false → r.mode ≠ .user → n = 0x101 →
      Retires (.pmovfWrite c f hw) s c 4 { r with pmovf := BitVec.ofNat 64 (pmovfClear r.pmovf.toNat v.toNat 0) })

/-- R210, R214: after all stores of a context have drained its store buffer is empty, unless one waits for a bank that wakes
(R325), and the context is otherwise as it was but for words that its own caches hold and interrupts that a refused store
raises; once the words of its caches are written back, none of them is newer than memory.
R218: a flushed line is held nowhere, and no branch of it is known.
R213, R214, R218, R227: FENCE makes every older store visible, IFLUSH drains them, writes back the named line and drops it from
the line buffers, the requests, the L1 and the branch target buffer, and WAIT stops the context until WAIT_WAKE, in the modes
that may run it; nothing else is changed. FENCE and IFLUSH wait while an older store must. -/
def Obligations.FencesAndStoreBuffer : Prop :=
  (∀ (m : Dg) (c : CtxId),
     let x := getCtx m c
     let y := getCtx (drainAll m c) c
     (drainWaits m c = false → y.sb = []) ∧ y.sb <:+ x.sb ∧
     y = { x with sb := y.sb, dcache := y.dcache, dirty := y.dirty, irqPend := y.irqPend } ∧
     (drainAll m c).easel = m.easel ∧ (drainAll m c).stu = m.stu ∧ (drainAll m c).now = m.now ∧
     (∀ k, SMap.wf y.dirty = true → SMap.get (getCtx (showStores m c) c).dirty k = false)) ∧
  (∀ (x : Ctx) (l : Nat), SMap.wf x.btb = true →
     let y := x.flushLine l
     l ∉ y.lines ∧ l ∉ y.lineReq ∧ l ∉ y.l1i ∧
     (∀ i b, b ∈ SMap.get y.btb i → (b.tag * 2 ^ 12 + i * 4) / 128 ≠ l) ∧
     (∀ k, k ≠ l → (k ∈ y.lines ↔ k ∈ x.lines) ∧ (k ∈ y.lineReq ↔ k ∈ x.lineReq) ∧ (k ∈ y.l1i ↔ k ∈ x.l1i)) ∧
     { y with lines := x.lines, lineReq := x.lineReq, l1i := x.l1i, btb := x.btb } = x) ∧
  (∀ (s : State) (c : CtxId) (f : Sys), ready s.dg c 4 = true → f.rsv = 0 →
     let r := regsOf s.dg c
     let m := fetched s.dg c 4
     let after (i : Instr) (m' : Dg) : Prop := exec i s = .next { s with dg := ranOn m' c r (r.pc + 4) none }
     (f.arg = 0 → (drainWaits m c = true → exec (.fence c f) s = .next { s with dg := m }) ∧
       (drainWaits m c = false → after (.fence c f) (showStores m c))) ∧
     (f.arg.toNat % 2 ^ 12 = 0 →
       let l := (r.getA (f.arg.toNat / 2 ^ 12)).toNat % 2 ^ 48 / 128
       (drainWaits m c = true → exec (.iflush c f) s = .next { s with dg := m }) ∧
       (drainWaits m c = false →
         after (.iflush c f) (updCtx (writeBackLine (drainAll m c) c l) c fun x => x.flushLine l))) ∧
     (f.arg = 0 → r.mode ≠ .user → after (.waitt c f) (updCtx m c fun x => { x with waiting := true })) ∧
     (f.arg = 0 → r.mode = .user →
       Traps (.waitt c f) s c 4 { vec := 2, detail := 0, addr := none, after := false, fpti := none }))

/-- R210, R309, R341: draining the store buffer takes its oldest entry, and in a lit Canvas bank, in DRAM that is up, or in the
lane SRAM, with no error marks on the word and no ring guard that refuses it, writes exactly its masked bytes where the word is
not a cached one: every other byte reads as before, and no other context changes; with no entry, or with one for a bank that
wakes (R325), nothing happens. Of a word that the L1 of its context holds (R218), the L1 takes the bytes: it is newer than
memory, or memory has taken the word too, and no other byte of memory changes.
R311, R312: a collision at a Canvas word is counted and reported; it does not disturb a store of a group or QM core, and that of
Labazor-S is discarded with DATA_ACCESS, detail 4. -/
def Obligations.StoreBufferDrains : Prop :=
  ∀ (s : State) (c : CtxId) (wcoll : Bool),
    let m := s.dg
    let x := getCtx m c
    (x.sb = [] → exec (.storeBufferDrain c wcoll) s = .next s) ∧
    (∀ (e : SbEntry) (rest : List SbEntry), x.sb = e :: rest → waits m e.addr 16 = true →
      exec (.storeBufferDrain c wcoll) s = .next s) ∧
    (∀ (e : SbEntry) (rest : List SbEntry), x.sb = e :: rest → e.addr % 16 = 0 → waits m e.addr 16 = false →
      let canvas := regionOf m true e.addr = .canvas ∧ bankDark m e.addr = false
      (c ≠ supCtx ∨ wcoll = false ∨ ¬ canvas) → (∀ k, k < 4 → getErr m e.addr k = 0) →
      (canvas ∨ regionOf m true e.addr = .dram ∧ m.drc.up = true ∨ regionOf m true e.addr = .sram) →
      (∀ q, c ≠ supCtx → ringAt m e.addr 16 = some q → guardOk m q x.pid true e.addr 16 = true) →
      (∀ q, cached m c e.addr 16 = true → SMap.get x.dcache (e.addr / 16) = some q →
        ∃ t, exec (.storeBufferDrain c wcoll) s = .next t ∧
          let y := getCtx t.dg c
          let w := mergeWord q.toNat e.data.toNat e.mask
          y = { x with sb := rest, dcache := y.dcache, dirty := y.dirty } ∧
          SMap.get y.dcache (e.addr / 16) = some (BitVec.ofNat 128 w) ∧
          (SMap.get y.dirty (e.addr / 16) = true ∧ t.dg.mem = m.mem ∨
           SMap.get y.dirty (e.addr / 16) = false ∧
             ∀ a, peek t.dg a = if a / 16 = e.addr / 16 then BitVec.ofNat 8 (w / 2 ^ (8 * (a % 16))) else peek m a)) ∧
      (cached m c e.addr 16 = false →
      ∃ t, exec (.storeBufferDrain c wcoll) s = .next t ∧
        getCtx t.dg c = { x with sb := rest, dcache := (getCtx t.dg c).dcache } ∧
        (∀ k, SMap.get (getCtx t.dg c).dcache k =
          if k = e.addr / 16 then (SMap.get x.dcache k).map fun q => BitVec.ofNat 128 (mergeWord q.toNat e.data.toNat e.mask)
          else SMap.get x.dcache k) ∧
        (∀ d, d ≠ c → getCtx t.dg d = getCtx m d) ∧
        (∀ a, peek t.dg a =
          if e.addr ≤ a ∧ a < e.addr + 16 ∧ e.mask.getLsbD (a - e.addr) = true
          then BitVec.ofNat 8 (e.data.toNat / 2 ^ (8 * (a - e.addr))) else peek m a) ∧
        (wcoll = true → canvas → t.dg.srcs = (collide m e.addr).srcs ∧ t.dg.cnv = (collide m e.addr).cnv) ∧
        (wcoll = false → t.dg.srcs = m.srcs ∧ t.dg.cnv = m.cnv))) ∧
    (∀ (e : SbEntry) (rest : List SbEntry), x.sb = e :: rest → c = supCtx → wcoll = true → waits m e.addr 16 = false →
      regionOf m true e.addr = .canvas → bankDark m e.addr = false →
      let m' := collide (setCtx m c { x with sb := rest }) e.addr
      let ex : Exn := { vec := 4, detail := 4, addr := some (e.addr % 2 ^ 48), after := false, fpti := none }
      exec (.storeBufferDrain c wcoll) s = .next { s with dg := takeExn m' c ex })

/-- R216, R104: a response marks its half of an outstanding load; the last response of a load from the PCIe window
completes it, an error response raises DATA_ACCESS with detail 4; while the context is halted its counters stand still (R239).
R197, R200, R201, R306, R343: the line at the head of the requests of a context, read without error, becomes the most recently
used of its line buffers, of which a request that stays outstanding takes one; a line that cannot be read, or is another
address's, is held nowhere and requested no longer. A line of a bank that wakes is awaited (R325). -/
def Obligations.LoadAndLineResponses : Prop :=
  (∀ (s : State) (c : CtxId) (data : BitVec 128),
     let x := getCtx s.dg c
     (∀ (l : PendLoad) (half : Nat) (err : Bool), x.pcie = none → x.load = some l →
       exec (.loadResponse c half data err) s =
         .next { s with dg := setCtx s.dg c { x with load := some { l with wait := l.wait.filter (· != half) } } }) ∧
     (∀ p : PcieLoad, x.pcie = some p → calm s.dg c = true → x.r.rep = none → x.r.ldepth = 0 →
       p.got = [] → p.errs = [] → p.addr % 16 + memSize p.op ≤ 16 → watchHit s.dg c p.addr (memSize p.op) 1 = false →
       let m := setCtx s.dg c { x with pcie := none }
       let v := data.toNat % 2 ^ (8 * memSize p.op)
       let r := match p.base with
         | some (i, b) => x.r.setA i b
         | none => x.r
       let value := if p.op = 0x2E then BitVec.ofNat 128 v else extendLoad p.op v
       let ran := ranOn m c r p.next (some ⟨p.op == 0x2E, p.reg, value, [], x.r, none⟩)
       (halted s.dg c = false → x.r.pmctl = 0 → exec (.loadResponse c 0 data false) s = .next { s with dg := ran }) ∧
       (halted s.dg c = true → ∃ t, exec (.loadResponse c 0 data false) s = .next t ∧ regsOf t.dg c = regsOf ran c ∧
         (getCtx t.dg c).load.map (·.value) = some value ∧ ∀ d, d ≠ c → getCtx t.dg d = getCtx s.dg d) ∧
       (halted s.dg c = false → exec (.loadResponse c 0 data true) s =
         .next { s with dg := takeExn m c { vec := 4, detail := 4, addr := some (p.addr % 2 ^ 48), after := false, fpti := none } }))) ∧
  (∀ (s : State) (c : CtxId) (u : Upset) (l : Nat) (rest : List Nat),
     let x := getCtx s.dg c
     let a := busAddr s.dg c (l * 128)
     let m := setErr s.dg a 0 (getErr s.dg a 0 ^^^ u.bits)
     let dropped (y : Ctx) : Ctx := { y with lineReq := y.lineReq.filter (· != l) }
     x.lineReq = l :: rest →
     (waits s.dg (l * 128) 1 = true → exec (.lineFetchComplete c u) s = .next s) ∧
     (waits s.dg (l * 128) 1 = false → lineOk s.dg c l = false →
       exec (.lineFetchComplete c u) s = .next { s with dg := updCtx s.dg c fun y => { y with lineReq := rest } }) ∧
     (waits s.dg (l * 128) 1 = false → lineOk s.dg c l = true →
     (u.wrongAddr = false → ∀ m' bs, readSpan m (viaCtx c) a 128 = (m', some bs) →
       exec (.lineFetchComplete c u) s = .next { s with dg := updCtx m' c fun y => y.hold l }) ∧
     (u.wrongAddr = false → ∀ m', readSpan m (viaCtx c) a 128 = (m', none) →
       exec (.lineFetchComplete c u) s = .next { s with dg := updCtx m' c dropped }) ∧
     (u.wrongAddr = true → ∃ t, exec (.lineFetchComplete c u) s = .next t ∧ getCtx t.dg c = { x with lineReq := rest } ∧
       ∀ d, d ≠ c → getCtx t.dg d = getCtx s.dg d))) ∧
  (∀ (x : Ctx) (l : Nat),
     let y := x.hold l
     let others := x.lineReq.filter (· != l)
     y.lineReq = others ∧ y.lines.head? = some l ∧ y.lines.length ≤ 4 ∧
     (x.r.det = true → others ≠ [] → y.lines.length ≤ 3) ∧
     y.lines <+: l :: x.lines.filter (· != l) ∧
     (x.r.det = true → y.l1i = x.l1i) ∧ (x.r.det = false → l ∈ y.l1i ∧ y.l1i.length ≤ 512) ∧
     { y with lines := x.lines, lineReq := x.lineReq, l1i := x.l1i } = x)

/-- R221, R223, R224 to R227, R144, R145, R239, R240: an event of an enabled routed source becomes pending, and no other; the
eligible interrupt of highest level, or an NMI, enters its handler with the level and the mask the rules give, and waits where
its vector lies in a bank that wakes; an eligible interrupt ends WAIT; a counter that counts and wraps sets its flag, and no
other wraps. -/
def Obligations.InterruptsAndCounters : Prop :=
  (∀ (s : State) (c : CtxId),
     let x := getCtx s.dg c
     let r := x.r
     (∀ src, 8 ≤ src → src < 512 → (SMap.get x.irqCfg src).enabled = true →
       exec (.interruptSourceEvent c src) s =
         .next { s with dg := setCtx s.dg c { x with irqPend := SMap.set x.irqPend src true } }) ∧
     (∀ src, src < 8 ∨ 512 ≤ src ∨ (SMap.get x.irqCfg src).enabled = false →
       exec (.interruptSourceEvent c src) s = .next s) ∧
     (x.waiting = true → (x.nmi = true ∨ (bestIrq x).isSome = true) →
       exec (.waitWake c) s = .next { s with dg := setCtx s.dg c { x with waiting := false } }) ∧
     (x.waiting = false ∨ (x.nmi = false ∧ bestIrq x = none) → exec (.waitWake c) s = .next s) ∧
     (let enters (m : Dg) (vec : Nat) (ie : Bool) (ipl : Nat) : Prop :=
         let m0 := updCtx m c fun x => { x with r := { r with ecause := BitVec.ofNat 64 vec }, load := none }
         let o := frameAndHandler m0 c r vec (r.rep.getD r.pc) (statusWord { r with repact := r.rep.isSome || r.repact })
         (o = none → exec (.interruptTaken c) s = .next { s with dg := entryFail m0 c }) ∧
         ∀ m' h, o = some (m', h) → exec (.interruptTaken c) s =
           .next { s with dg := handlerAt m' c { handlerRegs r (BitVec.ofNat 64 vec) none h with ie := ie, ipl := ipl } }
      runnable s.dg c = true → stepping s.dg c = false → x.load = none → r.pmctl = 0 →
       (x.nmi = true → entryWaits s.dg c 31 = true → exec (.interruptTaken c) s = .next s) ∧
       (x.nmi = true → entryWaits s.dg c 31 = false → enters (setCtx s.dg c { x with nmi := false }) 31 false 15) ∧
       (∀ i, x.nmi = false → bestIrq x = some i → i < 512 → r.ie = true → r.holdoff = 0 →
         (entryWaits s.dg c (32 + i) = true → exec (.interruptTaken c) s = .next s) ∧
         (entryWaits s.dg c (32 + i) = false → enters (setCtx s.dg c { x with irqPend := SMap.set x.irqPend i false }) (32 + i) true (SMap.get x.irqCfg i).level)) ∧
       (x.nmi = false → r.ie = false ∨ r.holdoff ≠ 0 ∨ bestIrq x = none → exec (.interruptTaken c) s = .next s)) ∧
     (∀ n, n < 8 →
       let last := eventOf r n ≠ 0 ∧
         (countsTime r n = true ∨ countsOverrun r n = true ∨ SMap.get r.pmc n = BitVec.allOnes 64)
       (countsNow s.dg c n = true → last → ∃ t, exec (.pmcWrap c n) s = .next t ∧
         SMap.get (regsOf t.dg c).pmc n = 0 ∧ (bit r.pmctl.toNat 9 = true → bits (regsOf t.dg c).pmctl.toNat 0 8 = 0) ∧
         (bit r.pmovf.toNat n = false → bit (regsOf t.dg c).pmovf.toNat n = true)) ∧
       (countsNow s.dg c n = false ∨ ¬ last → exec (.pmcWrap c n) s = .next s))) ∧
  (∀ (p v hw n : Nat), n < 8 →
     let q := pmovfClear p v hw
     let ovr (x : Nat) : Nat := x / 2 ^ (16 + 4 * n) % 16
     bit q n = (bit hw n || (bit p n && !bit v n)) ∧
     ovr q = if bit hw n = true then (if bit p n = true then min (ovr p + 1) 15 else ovr p)
             else if bit v n = true then 0 else ovr p)

/-! ### Queue instructions (spec/05 R252 to R274) -/

/-- R268 to R272: the queue instructions of a ready context on a handle that resolves: ENQ and DOORBELL publish behind
every older store once all of them are visible, and wait while one must (R325), DEQ claims the oldest visible message and releases those claimed before, and QSTAT changes nothing.
A handle that does not resolve, and an operation that the queue refuses, raises QUEUE with the code of Table 05.10.
R213, R270: the dequeue of a load takes effect with the retirement of its shadow: REL takes the value of RD, and RD moves over
the slot claimed, if a message is visible. -/
def Obligations.QueueInstructionsAndDequeues : Prop :=
  (∀ (s : State) (c : CtxId) (f : QueF), ready s.dg c 4 = true → f.rsv = 0 →
     let r := regsOf s.dg c
     let h := f.h.toNat
     let m := fetched s.dg c 4
     let drained := showStores m c
     let pid := (getCtx drained c).pid
     let next := r.pc + 4
     let traps (m : Dg) (i : Instr) (code : Nat) : Prop :=
       let e : Exn := ⟨13, code, some ((handleOf m c h).q + h * 2 ^ 18), false, none⟩
       ((handleOf m c h).q < 2 ^ 18) → exec i s = .next { s with dg := takeExn (refuseReport m c h code) c e }
     (f.fn = 0 → drainWaits m c = true → ∀ i ∈ [Instr.enq c f, .doorbell c f], exec i s = .next { s with dg := m }) ∧
     (f.fn = 0 → drainWaits m c = false → ∀ q div, resolveQ drained c h 1 = .ok (q, div) →
       let publishes (i : Instr) (n : Nat) (done : Dg → Regs) : Prop :=
         (∀ code, publishRefusal drained (getQ drained q) n = some code → traps drained i code) ∧
         (publishRefusal drained (getQ drained q) n = none →
           let m' := publish drained q n pid h
           exec i s = .next { s with dg := ranOn m' c (done m') next none })
       publishes (.enq c f) 1 (fun m' => r.setD f.d.toNat (prodStatus (getQ m' q) div)) ∧
       publishes (.doorbell c f) ((r.getD f.d.toNat).toNat % 2 ^ 16) (fun _ => r)) ∧
     (f.fn = 0 → drainWaits m c = false → ∀ code, resolveQ drained c h 1 = .error code → traps drained (.enq c f) code ∧ traps drained (.doorbell c f) code) ∧
     (∀ q div, resolveQ m c h 2 = .ok (q, div) →
       let x := getQ m q
       let gives (i : Instr) (claim : Nat) : Prop :=
         let st := consStatus m x (if claim = 1 then some x.rd else none) (x.count - claim)
         let deq : DeqDefer := ⟨q, claim, (getCtx m c).pid, h⟩
         exec i s = .next { s with dg := ranTo s.dg c 4 r next (some ⟨false, f.d.toNat, st, [], r, some deq⟩) }
       (f.fn.toNat < 2 → queueUsable m x = false → traps m (.deq c f) 5 ∧ traps m (.deqRel c f) 5) ∧
       (f.fn = 0 → queueUsable m x = true → gives (.deq c f) (if 0 < x.count then 1 else 0)) ∧
       (f.fn = 1 → queueUsable m x = true → gives (.deqRel c f) 0 ∧
         Retires (.qstatConsumer c f) s c 4
           (r.setD f.d.toNat (consStatus m x (if 0 < x.count then some x.rd else none) x.count)))) ∧
     (f.fn.toNat < 2 → ∀ code, resolveQ m c h 2 = .error code → traps m (.deq c f) code ∧ traps m (.deqRel c f) code) ∧
     (f.fn = 0 → ∀ q div, resolveQ m c h 1 = .ok (q, div) → queueUsable m (getQ m q) = true →
       Retires (.qstatProducer c f) s c 4 (r.setD f.d.toNat (prodStatus (getQ m q) div)))) ∧
  (∀ (s : State) (c : CtxId) (f : Rrr) (w : Nat) (l : PendLoad) (d : DeqDefer),
     let r := regsOf s.dg c
     let x := getQ s.dg d.q
     runnable s.dg c = true → breakHit s.dg c r.pc.toNat = false → awake s.dg c 4 = true → (fetches s.dg c 4).2 = true →
     (getCtx s.dg c).load = some l → l.deq = some d → l.isA = false → r.rep = none → r.pmctl = 0 → r.ldepth = 0 →
     stepping s.dg c = false → (SMap.get s.dg.easel.trace c).enable = false →
     intWidth f.w = some w → f.fn = 0 → f.d.toNat ≠ l.reg →
     ∃ t, exec (.add c f) s = .next t ∧
       (getQ t.dg d.q).rel = x.rd ∧
       (getQ t.dg d.q).rd = (if d.claim = 0 ∨ x.count = 0 then x.rd else idxAdd x.rd 1) ∧
       (∀ k, k ≠ d.q → getQ t.dg k = getQ s.dg k) ∧
       (getCtx t.dg c).load = none ∧ (regsOf t.dg c).getD l.reg = l.value ∧
       (regsOf t.dg c).getD f.d.toNat =
         ofElems w fun i => (elem w (r.getD f.s1.toNat) i + elem w (r.getD f.s2.toNat) i) % 2 ^ w)

/-! ### The voting core complex (spec/01) -/

/-- R29, R36, R39 to R42, R55, Table 01.2: a comparison of agreeing lanes changes nothing; the minority of a full triad,
the lane of the digests before that of the requests, is fenced, reported, and its re-seat begins with the READY spare of
oldest PASS, or the triad goes on degraded where none is READY; with no majority, or a difference between two lanes, the
group is lost: its cores go to test, and none of its buffered stores or outstanding requests goes out. A corrected error and a
deviating voter slice are only reported. That the core of a fenced lane is EXCLUDED at once is the model's choice (log 105).
R44, R70: the restart of a lost group that waits is made on READY spares of its studio, in lane order, and the partition
starts from its entry point; while too few are READY nothing changes; the core of a lost QM partition is tested first. -/
def Obligations.VoterComparisonsAndLosses : Prop :=
  (∀ (s : State) (g : Nat), g < 16 →
     let m := s.dg
     let x := getGrp m g
     let st := getStudio m (g / 4)
     (compares m g = true →
       exec (.laneDisagreement g .agree .agree) s = .next s ∧
       (∀ slice, slice < 3 → exec (.voterSlice g slice) s =
         .next { s with dg := report m (voterSrc g) kVoterSlice (openDetail m (voterSrc g) kVoterSlice % 16 + g * 16 + 3 * 256) 0 (voterSrc g) })) ∧
     (∀ core, (getCore m core).role = .active ∨ (getCore m core).role = .shadow ∨ (getCore m core).role = .qm →
       exec (.laneCorrected core) s = .next { s with dg := reportOpen m core kLaneCorrected 0 }) ∧
     (x.shadow = false → underBusy m = false → reseatsOf m g = [] →
       (∀ l core req, x.state = .full → st.reseat = none → l < 3 → x.lane l = some core → x.cores.length = 3 →
         (getCore m core).role = .active → req ≠ .noMajority →
         let minority (i : Instr) : Prop := ∃ t, exec i s = .next t ∧
           t.dg.srcs = (let m' := report m (voterSrc g) kLaneMinority (g * 16 + l * 256) 0 core
             if readySpares m (g / 4) = [] then (report m' (voterSrc g) kSpareUnavailable (g * 16 + l * 256) 0 core).srcs
             else m'.srcs) ∧
           { t.dg with stu := m.stu, srcs := m.srcs, ctx := m.ctx } = m ∧
           (∀ h, h ≠ g → getGrp t.dg h = getGrp m h) ∧ (getCore t.dg core).role = .excluded ∧
           (∀ n, olderPass m (readySpares m (g / 4)) = some n →
             (getGrp t.dg g).state = .reseating ∧ (getGrp t.dg g).cores = x.cores ∧ t.dg.ctx = m.ctx ∧
             (getStudio t.dg (g / 4)).reseat = some ⟨g, l, some core, n, 1, true, m.now, none, none⟩) ∧
           (readySpares m (g / 4) = [] →
             (getGrp t.dg g).state = .degraded ∧ (getGrp t.dg g).lane l = none ∧ (getGrp t.dg g).missing = some core)
         minority (.laneDisagreement g (.minority l) req) ∧ minority (.laneDisagreement g .agree (.minority l))) ∧
       (∀ digest request, compares m g = true → st.reseat = none →
         (digest = .noMajority ∨ (∃ l, digest = .minority l) ∧ (lanesCompared m g).length < 3 ∨
          digest = .agree ∧ request = .noMajority) →
         ∃ t, exec (.laneDisagreement g digest request) s = .next t ∧
           (getGrp t.dg g).state = .lost ∧ (getGrp t.dg g).cores = [] ∧ (getPart t.dg x.pid).state = .lost ∧
           (getCtx t.dg g).sb = [] ∧ (getCtx t.dg g).load = none ∧ (getCtx t.dg g).lineReq = [] ∧
           (∀ c, c ∈ x.cores → (getCore m c).role ≠ .excluded → (getCore t.dg c).role = .testing) ∧
           (∀ c, c ∉ x.cores → getCore t.dg c = getCore m c) ∧ (∀ h, h ≠ g → getGrp t.dg h = getGrp m h)))) ∧
  (∀ (s : State) (pid : Nat) (rec : CfgRec),
     let m := s.dg
     let g := recCtx rec
     partRec m pid = some rec → g < 16 → exeshDown m = false → (getGrp m g).state = .lost →
     (getPart m pid).waitRestart = true →
     (formGroup m g pid = none → exec (.lostGroupRestart pid) s = .next s) ∧
     (∀ m', formGroup m g pid = some m' →
       (loadPartition (releaseAll m' pid) pid (bankOfPid (releaseAll m' pid) pid) false).2 = true →
       ∃ t, exec (.lostGroupRestart pid) s = .next t ∧ (getPart t.dg pid).state = .starting ∧
         (getGrp t.dg g).state = .full ∧ (getPart t.dg pid).waitRestart = false ∧ (regsOf t.dg g).mode = .supervisor)) ∧
  (∀ (s : State) (pid core : Nat) (rec : CfgRec),
     let m := s.dg
     partRec m pid = some rec → recCtx rec = 16 + core → exeshDown m = false → (getPart m pid).waitRestart = true →
     ((getPart m pid).state = .lost → (getCore m core).role = .qm → ∃ t, exec (.lostGroupRestart pid) s = .next t ∧
       (getCore t.dg core).role = .testing ∧ (getCore t.dg core).qmPid = pid ∧ (getPart t.dg pid).waitRestart = false ∧
       (∀ k, k ≠ core → getCore t.dg k = getCore m k) ∧ (∀ h, getGrp t.dg h = getGrp m h)) ∧
     ((getPart m pid).state ≠ .lost ∨ (getCore m core).role ≠ .qm → exec (.lostGroupRestart pid) s = .next s))

/-- R47, R49, R54 to R56, R62, Tables 01.3, 01.4, 01.14, 01.15: a planned or held re-seat begins at the boundary of its
group with the READY spare of oldest PASS; the freeze drains the store buffer; step 8 seats the newcomer in the lane, and
counts and records the re-seat; a newcomer that fails is EXCLUDED, and the group goes on degraded after a fault re-seat and
FULL with its lane still seated otherwise. -/
def Obligations.ReseatSequence : Prop :=
  ∀ (s : State) (sd g : Nat), g / 4 = sd → sd < 4 →
    let m := s.dg
    let x := getGrp m g
    let y := getStudio m sd
    (∀ n, y.reseat = none → olderPass m (readySpares m sd) = some n → reseatsOf m g = [] →
      let begins (i : Instr) (r : Reseat) : Prop := ∃ t, exec i s = .next t ∧
        (getStudio t.dg sd).reseat = some { r with new := n, t0 := m.now, frozen := none } ∧
        (getGrp t.dg g).state = .reseating ∧ (getGrp t.dg g).cores = x.cores ∧
        t.dg.srcs = (report m (voterSrc g) kReseatStart (g * 16 + r.lane * 256) 0 (r.old.getD n)).srcs ∧
        { t.dg with stu := m.stu, srcs := m.srcs } = m
      (∀ r, y.planned.find? (fun r => r.slot == g) = some r → r.cause = 2 → r.prefer = none → x.state = .full →
        x.lane r.lane = r.old → r.lane < 3 → r.slot = g → begins (.plannedReseatStart g) r) ∧
      (∀ l, x.state = .degraded → missingLane x = some l →
        begins (.heldReseatStart g) ⟨g, l, none, 0, 1, true, 0, none, none⟩) ∧
      (∀ l cause rest, x.state = .full → x.held = (l, cause) :: rest → l < 3 →
        begins (.heldReseatStart g) ⟨g, l, x.lane l, 0, cause, false, 0, none, none⟩)) ∧
    (∀ r, y.reseat = some r → r.slot = g → r.frozen = none → drainWaits m g = true → exec (.reseatQuiesced sd) s = .next s) ∧
    (∀ r, y.reseat = some r → r.slot = g → r.frozen = none → (getCtx m g).pcie = none → drainWaits m g = false →
      ∃ t, exec (.reseatQuiesced sd) s = .next t ∧ (getCtx t.dg g).sb = [] ∧ (getCtx t.dg g).r = (getCtx m g).r ∧
        (getStudio t.dg sd).reseat = some { r with frozen := some m.now } ∧ (∀ h, getGrp t.dg h = getGrp m h)) ∧
    (∀ r f, y.reseat = some r → r.slot = g → r.frozen = some f → r.lane < 3 → y.waiting = [] → x.haltDefer = false →
      m.boot.under.closing = false → f ≤ m.now →
      (r.old.bind (reseatCmd m) = none → r.old ≠ some r.new →
        ∃ t, exec (.reseatRestart sd) s = .next t ∧
          (getGrp t.dg g).state = .full ∧ (getGrp t.dg g).lane r.lane = some r.new ∧
          (∀ l, l ≠ r.lane → (getGrp t.dg g).lane l = x.lane l) ∧
          (getCore t.dg r.new).role = .active ∧ (getCore t.dg r.new).slot = g ∧ (getCore t.dg r.new).lane = r.lane ∧
          (∀ c, r.old = some c → (getCore t.dg c).role =
            if r.fenced then .excluded
            else if c / 10 ≠ sd ∧ r.cause = 2 ∧ (∀ e ∈ m.fcr.shadows, e.tag = c → e.ends.isSome = true) then .ready
            else .testing) ∧
          (getStudio t.dg sd).reseat = none ∧
          (getGrp t.dg g).lastCause = r.cause ∧ (getGrp t.dg g).lastLane = r.lane ∧ (getGrp t.dg g).lastAborted = false ∧
          (getGrp t.dg g).lastNew = r.new ∧ (getGrp t.dg g).lastTime = m.now ∧
          (getGrp t.dg g).lastPause = min ((m.now - f) * 16) 65535 ∧
          (getGrp t.dg g).cntPlanned = (if r.cause = 2 then satInc 32 x.cntPlanned else x.cntPlanned) ∧
          (getGrp t.dg g).cntFault = (if r.cause = 2 then x.cntFault else satInc 32 x.cntFault) ∧
          bit (getGrp t.dg g).evt.flags 0 = true ∧ t.dg.mem = m.mem ∧ (∀ h, h ≠ g → getGrp t.dg h = getGrp m h) ∧
          (∀ d, regsOf t.dg d = regsOf m d)) ∧
      (∃ t, exec (.newcomerFault sd) s = .next t ∧ (getStudio t.dg sd).reseat = none ∧
        (getCore t.dg r.new).role = .excluded ∧ (getGrp t.dg g).lastAborted = true ∧
        (getGrp t.dg g).cntFault = x.cntFault ∧ (getGrp t.dg g).cntPlanned = x.cntPlanned ∧
        (getGrp t.dg g).lastNew = 0x3F ∧ t.dg.mem = m.mem ∧ (∀ h, h ≠ g → getGrp t.dg h = getGrp m h) ∧
        (∀ d, regsOf t.dg d = regsOf m d) ∧
        (r.fenced = true → (getGrp t.dg g).state = .degraded) ∧
        (r.fenced = false → (x.lane r.lane).isSome = true →
          (getGrp t.dg g).state = .full ∧ (getGrp t.dg g).lane r.lane = x.lane r.lane)))

/-- R58 to R64, R68: a rotation that is due, once per interval, tests an UNTESTED spare before it releases a core; the triples of the two BISTs decide
a tested core's condition: READY with its time of PASS, or EXCLUDED and reported, and an INCOMPLETE test is repeated until
the third. Before its time a rotation has no effect. -/
def Obligations.CoreTests : Prop :=
  ∀ (s : State) (c sd : Nat), c / 10 = sd → sd < 4 →
    let m := s.dg
    let k := getCore m c
    (rotationDue m sd = false → exec (.rotationDue sd) s = .next s) ∧
    ((getStudio m sd).mode ≠ .q → exeshDown m = false → rotationDue m sd = true → suspOf m sd = 0 →
      (∀ d, d ∈ coresOf sd →
        m.now - (if (getCore m d).lastPass = 0 then m.boot.doneAt else (getCore m d).lastPass) ≤ overdueAge m) →
      ((coresOf sd).find? fun d => (getCore m d).role == .untested) = some c →
      ∃ t, exec (.rotationDue sd) s = .next t ∧ (getCore t.dg c).role = .testing ∧
        (getStudio t.dg sd).rotDone = rotDueCount m sd ∧
        (∀ d, d ≠ c → getCore t.dg d = getCore m d) ∧ (∀ g, getGrp t.dg g = getGrp m g)) ∧
    (k.role = .testing → ∀ logic mem, ∃ t, exec (.coreBistComplete c logic mem) s = .next t ∧
      (∀ d, d ≠ c → getCore t.dg d = getCore m d) ∧ (∀ g, getGrp t.dg g = getGrp m g) ∧
      ((getStudio m sd).mode ≠ .q → t.dg.mem = m.mem ∧ t.dg.ctx = m.ctx) ∧
      (logic = SMap.get m.bistExp 0 → mem = SMap.get m.bistExp 1 → (getStudio m sd).mode ≠ .q →
        (getCore t.dg c).role = .ready ∧ (getCore t.dg c).result = .pass ∧ (getCore t.dg c).lastPass = m.now) ∧
      (logic.sig ≠ (SMap.get m.bistExp 0).sig → (getCore t.dg c).role = .excluded ∧ (getCore t.dg c).result = .fail ∧
        t.dg.srcs = (report m (0x100 + sd) kCoreBistFail (openDetail m (0x100 + sd) kCoreBistFail) c c).srcs) ∧
      (logic = SMap.get m.bistExp 0 → mem.sig = (SMap.get m.bistExp 1).sig → mem.count < (SMap.get m.bistExp 1).count →
        k.incomplete < 2 → (getCore t.dg c).role = .testing ∧ (getCore t.dg c).result = .incomplete ∧
        (getCore t.dg c).incomplete = k.incomplete + 1)) ∧
    (k.role ≠ .testing → k.role ≠ .excluded → ∀ logic mem, exec (.coreBistComplete c logic mem) s = .next s)

/-! ### The register space (spec/00 R18, R609; spec/01 R78, R80) -/

/-- R18, R78, R80, R410, R512, R609: a write of 1 by a context that runs clears an event flag and its counter, unless hardware
sets the flag in the same cycle; a write to a register of another partition, to a hidden offset or to a read-only register has
no effect and raises DATA_ACCESS with detail 1 or 3 and the report of R609, and one to a block without power detail 5 (R19);
what hardware sets in the cycle of a refused write, or of one that is not made, is set. The write follows the older stores of
its context (R211): while one of them must wait for a bank that wakes it is not made, and an interrupt that is due comes first
(R144). -/
def Obligations.EventRegisters : Prop :=
  ∀ (s : State) (c : CtxId), c < 56 → isShadowCtx s.dg c = false →
    let m := drainAll s.dg c
    let runs : Prop := runnable s.dg c = true
    let due : Prop := irqDue (getCtx s.dg c) = true ∧ stepping s.dg c = false
    let held : Prop := drainWaits s.dg c = true ∨ entryWaits s.dg c 4 = true
    let acts : Prop := runs ∧ ¬ due ∧ ¬ held
    let pid := (getCtx s.dg c).pid
    let later (i : Instr) (set : Dg) : Prop :=
      (¬ runs ∨ ¬ due ∧ held → exec i s = .next { s with dg := set }) ∧
      (runs → due → exec i s = .next { s with dg := takeIrq set c })
    let refused (i : Instr) (m : Dg) (addr detail : Nat) : Prop :=
      let m' := report m (0x06A + studioOf c) kAccessDenied (pid + 256) addr (0x400 + pid)
      exec i s = .next { s with dg := takeExn m' c ⟨4, detail, some addr, false, none⟩ }
    (∀ (n : Nat) (v : Word) (hw : BitVec 3), n < 16 →
      later (.stuGrpnEvt c n v hw) (grpSets n hw.toNat s.dg) ∧
      (acts → ownsSlot m c n = true → ∃ t, exec (.stuGrpnEvt c n v hw) s = .next t ∧
        W1cOutcome 8 3 (getGrp m n).evt (getGrp t.dg n).evt v.toNat hw.toNat ∧
        (∀ h, h ≠ n → getGrp t.dg h = getGrp m h) ∧ { t.dg with stu := m.stu, ctx := m.ctx } = m ∧
        (∀ d, regsOf t.dg d = regsOf m d)) ∧
      (acts → ownsSlot m c n = false →
        refused (.stuGrpnEvt c n v hw) (grpSets n hw.toNat m) (0x40000128 + 0x40 * n) 1)) ∧
    (∀ (a : Nat) (v : Word), 0x40000000 ≤ a → a < 0x50000000 → a % 8 = 0 → regOwn s.dg c a v.toNat = none →
      later (.registerWriteDenied c a v) s.dg ∧ (acts →
      ((regRead m c a).isSome = true → regDark m a = false → refused (.registerWriteDenied c a v) m a 3) ∧
      ((regRead m c a).isSome = true → regDark m a = true →
        exec (.registerWriteDenied c a v) s = .next { s with dg := takeExn m c ⟨4, 5, some a, false, none⟩ }) ∧
      (regRead m c a = none → refused (.registerWriteDenied c a v) m a 1))) ∧
    (∀ (v : Word) (hw : BitVec 3), later (.mbxMyEvt c v hw) (mbxSets pid hw.toNat s.dg)) ∧
    (∀ (v : Word) (hw : List FcrHw), later (.fcrMyEvt c v hw) (fcrSets pid hw s.dg)) ∧
    (∀ (v : Word) (hw : List FabHw), (∀ e ∈ hw, e.flag < 4) → later (.fabMyEvt c v hw) (fabSets pid hw s.dg)) ∧
    (acts → ∀ (v : Word) (hw : BitVec 3), ∃ t, exec (.mbxMyEvt c v hw) s = .next t ∧
      W1cOutcome 8 3 (SMap.get m.mbx.my pid) (SMap.get t.dg.mbx.my pid) v.toNat hw.toNat ∧
      (∀ p, p ≠ pid → SMap.get t.dg.mbx.my p = SMap.get m.mbx.my p) ∧
      { t.dg with mbx := { t.dg.mbx with my := m.mbx.my }, ctx := m.ctx } = m) ∧
    (acts → ∀ (v : Word) (hw : List FcrHw), hw.length ≤ 1 → ∃ t, exec (.fcrMyEvt c v hw) s = .next t ∧
      W1cOutcome 8 2 (SMap.get m.fcr.my pid).evt (SMap.get t.dg.fcr.my pid).evt v.toNat
        (hw.foldl (fun a e => a + if e.nmi then 2 else 1) 0) ∧
      (∀ e, e ∈ hw → (SMap.get t.dg.fcr.my pid).last0 = e.lo.toNat ∧ (SMap.get t.dg.fcr.my pid).last1 = e.hi.toNat) ∧
      (hw = [] → (SMap.get t.dg.fcr.my pid).last0 = (SMap.get m.fcr.my pid).last0) ∧
      (∀ p, p ≠ pid → SMap.get t.dg.fcr.my p = SMap.get m.fcr.my p) ∧
      { t.dg with fcr := { t.dg.fcr with my := m.fcr.my } } = m) ∧
    (acts → regDark m 0x41000100 = false →
      ∀ (v : Word) (hw : List FabHw), hw.length ≤ 1 → (∀ e, e ∈ hw → e.flag < 4) →
      ∃ t, exec (.fabMyEvt c v hw) s = .next t ∧
        W1cOutcome 8 4 (SMap.get m.fab.my pid).evt (SMap.get t.dg.fab.my pid).evt v.toNat
          (hw.foldl (fun a e => a + 2 ^ e.flag) 0) ∧
        (∀ e, e ∈ hw → (SMap.get t.dg.fab.my pid).lastTime = m.now ∧
          bits (SMap.get t.dg.fab.my pid).lastErr 0 18 = e.qid % 2 ^ 18 ∧
          bits (SMap.get t.dg.fab.my pid).lastErr 32 3 = e.flag) ∧
        (hw = [] → (SMap.get t.dg.fab.my pid).lastErr = (SMap.get m.fab.my pid).lastErr) ∧
        (∀ p, p ≠ pid → SMap.get t.dg.fab.my p = SMap.get m.fab.my p) ∧
        { t.dg with fab := { t.dg.fab with my := m.fab.my }, ctx := m.ctx } = m)

/-! ### The queue fabric (spec/05) -/

/-- R263, R264, R266, R277, R288, Tables 05.6 and 05.15: the check of the oldest publication makes it visible, valid or
void with the code of its first failing check; a void message is counted and reported under the checker of its memory. -/
def Obligations.PublicationChecks : Prop :=
  ∀ (s : State) (q : Nat) (p : Pub) (rest : List Pub) (bs : List Byte),
    let m := s.dg
    let x := getQ m q
    let hd := ofLe (bs.take 16)
    let msg := bs.take (min (bits hd 0 15) x.slotSize)
    let code := checkMsg x q p hd msg
    x.pubs = p :: rest → x.linkmode = 0 → x.twin = false → x.digest = false →
    readSpan m viaFabric (x.slotAddr x.vis) x.slotSize = (m, some bs) →
    ∃ t, exec (.publicationCheck q) s = .next t ∧
      (getQ t.dg q).vis = idxAdd x.vis 1 ∧ (getQ t.dg q).pubs = rest ∧ SMap.get (getQ t.dg q).voids x.vis = code ∧
      (getQ t.dg q).crcErr = (if code = 1 then satInc 8 x.crcErr else x.crcErr) ∧
      (getQ t.dg q).seqErr = (if code = 2 then satInc 8 x.seqErr else x.seqErr) ∧
      (getQ t.dg q).otherErr = (if 3 ≤ code then satInc 8 x.otherErr else x.otherErr) ∧
      (getQ t.dg q).wr = x.wr ∧ (getQ t.dg q).rd = x.rd ∧ (getQ t.dg q).rel = x.rel ∧ (getQ t.dg q).seq = x.seq ∧
      t.dg.srcs = (if code = 0 then m.srcs else (report m (checkerSrc x) (0x46 + code) p.ep q (endpointTag p.ep)).srcs) ∧
      (code ≠ 0 → p.ep < 0x40 → bit (SMap.get t.dg.fab.my p.ep).evt.flags 0 = true) ∧
      (∀ k, k ≠ q → getQ t.dg k = getQ m k) ∧
      { t.dg with fab := m.fab, srcs := m.srcs, ctx := m.ctx } = m

/-- R248, R249, R254, R281, R290 to R294, R296, Table 05.13: the events of the fabric: a credit of the bucket, when it is due and
up to BUDGET; a boundary of a flip group that has come latches and restarts its digests, and applies a flip accepted at least
10 µs before it; wires, links, router slices and Palette words are counted, spared, disabled or outvoted and reported. -/
def Obligations.FabricEvents : Prop :=
  ∀ (s : State),
    let m := s.dg
    (∀ q, (getQ m q).valid = true → (getQ m q).cls = 0 →
      let x := getQ m q
      let due := 1000 * winUs x.budgetWin * (x.refills + 1) ≤ 16 * (m.now - x.filledAt) * x.budget
      (due → exec (.budgetRefill q) s =
        .next { s with dg := setQ m q { x with credits := min (x.credits + 1) x.budget, refills := x.refills + 1 } }) ∧
      (¬ due → exec (.budgetRefill q) s = .next s)) ∧
    (∀ g, 1 ≤ g → g < 64 →
      let f := SMap.get m.fab.flip g
      let n := f.boundaries m.now
      (n ≤ f.taken → exec (.flipGroupBoundary g) s = .next s) ∧
      (f.taken < n → groupQueues m g = [] → ∃ t, exec (.flipGroupBoundary g) s = .next t ∧
        (∀ t0, f.pending = some t0 → 16 * t0 + 10000 ≤ 1000 * (f.phase + (n - 1) * f.period) →
          SMap.get t.dg.fab.flip g = { f with gen := !f.gen, pending := none, taken := n }) ∧
        (∀ t0, f.pending = some t0 → 1000 * (f.phase + (n - 1) * f.period) < 16 * t0 + 10000 →
          SMap.get t.dg.fab.flip g = { f with taken := n }) ∧
        (f.pending = none → SMap.get t.dg.fab.flip g = { f with taken := n }) ∧
        (∀ h, h ≠ g → SMap.get t.dg.fab.flip h = SMap.get m.fab.flip h)) ∧
      (∀ q, f.taken < n → groupQueues m g = [q] → (getQ m q).linkmode = 0 →
        (f.pending = none → (getQ m q).digest = true → (getQ m q).digidx ≠ 0 →
          ∃ t, exec (.flipGroupBoundary g) s = .next t ∧
            (let d := SMap.get m.fab.digest (getQ m q).digidx
             SMap.get t.dg.fab.digest (getQ m q).digidx =
               { d with acc := 2 ^ 64 - 1, count := 0, latAcc := d.acc, latCount := d.count }) ∧
            (∀ i, i ≠ (getQ m q).digidx → SMap.get t.dg.fab.digest i = SMap.get m.fab.digest i) ∧
            { t.dg with fab := { t.dg.fab with digest := m.fab.digest, flip := m.fab.flip } } = m) ∧
        ((getQ m q).digest = false → (∀ e ∈ m.ctx, ∀ l d, e.2.load = some l → l.deq = some d → d.q ≠ q) →
          f.due m.now = true → ∃ t, exec (.flipGroupBoundary g) s = .next t ∧
            SMap.get t.dg.fab.flip g = { f with gen := !f.gen, pending := none, taken := n } ∧
            getQ t.dg q = { getQ m q with rel := (getQ m q).rd } ∧ (∀ k, k ≠ q → getQ t.dg k = getQ m k) ∧
            { t.dg with fab := { t.dg.fab with q := m.fab.q, flip := m.fab.flip } } = m))) ∧
    (∀ (l : Link) (wire : Nat), linkExists l = true → (SMap.get m.fab.links (lkey l)).failed = false →
      let x := SMap.get m.fab.links (lkey l)
      let tells (m : Dg) (kind : Nat) : Dg := reportOpen m (meshSrc l.x l.y) kind (lkey l)
      let off (m : Dg) (l : Link) : Dg := updLink m (lkey l) fun x => { x with failed := true }
      let disabled := tells (off (off m l) (linkBack l)) kLinkFail
      let times := SMap.get x.corr wire
      (∃ t, exec (.flitCorrected l wire) s = .next t ∧
        SMap.get (SMap.get t.dg.fab.links (lkey l)).corr wire = (m.now :: times).take 16 ∧
        t.dg.srcs = (tells m kFlitCorrected).srcs ∧
        { t.dg with srcs := m.srcs, fab := { t.dg.fab with links := m.fab.links } } = m) ∧
      exec (.linkRetry l) s = .next { s with dg := tells m kLinkRetry } ∧
      exec (.linkFail l) s = .next { s with dg := disabled } ∧
      (∀ a b, times[0]? = some a → times[15]? = some b →
        (a < b + 62500 → x.spared.length < 2 →
          let m' := updLink m (lkey l) fun x => { x with spared := x.spared ++ [wire], corr := SMap.set x.corr wire [] }
          exec (.laneSpared l wire) s = .next { s with dg := tells m' kLaneSpared }) ∧
        (a < b + 62500 → 2 ≤ x.spared.length → exec (.laneSpared l wire) s = .next { s with dg := disabled }) ∧
        (b + 62500 ≤ a → exec (.laneSpared l wire) s = .next s)) ∧
      (times.length < 16 → exec (.laneSpared l wire) s = .next s)) ∧
    (∀ x y slice, x < 6 → y < 6 → slice < 3 → exec (.routerSlice x y slice) s =
      .next { s with dg := reportOpen m (meshSrc x y) kRouterSlice (6 * y + x) }) ∧
    (∀ q word, q < 0x40000 → word < 2 →
      let x := getQ m q
      let ends := [x.prod0, x.cons0, x.prod1, x.cons1]
      exec (.paletteScrub q word .clean) s = .next s ∧
      (∃ ep ∈ ends, exec (.paletteScrub q word .corrected) s =
        .next { s with dg := report m 0x064 kPaletteCorrected ep q (endpointTag ep) }) ∧
      (∃ ep ∈ ends, exec (.paletteScrub q word .uncorrectable) s =
        .next { s with dg := report (setQ m q { x with broken := true }) 0x064 kPaletteUncorrectable ep q (endpointTag ep) }))

/-! ### The memories (spec/06) -/

/-- R317, R318, R321, R322, R326 to R328: a migration that is due takes the bank of oldest PASS, copies line by line and remaps the
bank with the last; while the free bank is on; the triple of the vacated bank's BIST makes it the free bank, fails it, or repeats the test; a waking
bank keeps its contents or is cleared before it is ON, and no more than four wake at a time; a lost retention supply marks every bank
in RETAIN, and the wake reports it once. -/
def Obligations.CanvasTestAndPower : Prop :=
  ∀ (s : State) (qd : Nat), qd < 4 →
    let m := s.dg
    let x := getQuad m qd
    let quad (i : Instr) (y : Quadrant) : Prop := exec i s = .next { s with dg := updQuad m qd fun _ => y }
    (migrationDue m qd = false → exec (.migrationStart qd) s = .next s) ∧
    (x.phase = 0 → x.free < 33 → x.freePower = .on → migrationDue m qd = true → ∀ b, migChoice m qd = some b →
      ∃ t, exec (.migrationStart qd) s = .next t ∧
        getQuad t.dg qd = { x with migDone := migDueCount m qd, phase := 1, migBank := b, migLine := 0 } ∧
        (∀ k, k ≠ qd → getQuad t.dg k = getQuad m k) ∧ { t.dg with cnv := { t.dg.cnv with quad := m.cnv.quad } } = m) ∧
    (x.phase = 1 → x.migLine < 4095 → quad (.migrationLineCopy qd) { x with migLine := x.migLine + 1 }) ∧
    (x.phase = 1 → x.migLine = 4095 →
      quad (.migrationLineCopy qd)
        { x with migLine := 4096, remap := SMap.set x.remap x.migBank x.free, free := 0x3F, migBank := 0x3F, phase := 2,
                 testing := some (SMap.get x.remap x.migBank), incomplete := 0 }) ∧
    (∀ (p : Nat) (tr : Triple), x.testing = some p → p < 33 → ∃ t, exec (.bankBistComplete qd tr) s = .next t ∧
      (let y := getQuad t.dg qd
       let exp := SMap.get m.bistExp 2
       (tr = exp → y.free = p ∧ y.phase = 0 ∧ y.testing = none ∧ (SMap.get y.phys p).test = 1 ∧
         (SMap.get y.phys p).lastPass = some m.now ∧ t.dg.srcs = m.srcs) ∧
       (tr.sig ≠ exp.sig → y.free = 0x3F ∧ y.phase = 3 ∧ y.testing = none ∧ bit y.failed p = true ∧
         (SMap.get y.phys p).test = 2 ∧ y.remap = x.remap ∧
         (x.noFreeReported = false → t.dg.srcs =
           (let m1 := report m (0x074 + qd) kCanvasBankFail p 0 (0x074 + qd)
            report m1 (0x074 + qd) kCanvasNoFreeBank (openDetail m1 (0x074 + qd) kCanvasNoFreeBank % 128) 0 (0x074 + qd)).srcs)) ∧
       (tr.sig = exp.sig → tr.marker ≠ exp.marker → x.incomplete < 2 →
         y.testing = some p ∧ y.incomplete = x.incomplete + 1 ∧ (SMap.get y.phys p).test = 3 ∧ y.phase = x.phase ∧
         t.dg.srcs = (report m (0x074 + qd) kCanvasBankIncomplete p 0 (0x074 + qd)).srcs)) ∧
      { t.dg with cnv := { t.dg.cnv with quad := m.cnv.quad }, srcs := m.srcs } = m ∧
      (∀ k, k ≠ qd → getQuad t.dg k = getQuad m k)) ∧
    (∀ b, b < 32 → (getBank m qd b).power = .waking →
      let k := 32 * qd + b
      let base := 0x20000000 + k * 0x80000
      let goes (f : Bank → Bank) : Prop :=
        let m' := updBank m k f
        let told := if (getBank m qd b).lostDue = true then
            updBank (report m' (0x070 + qd) kCanvasRetLost (SMap.get x.remap b) base (0x070 + qd)) k fun y => { y with lostDue := false }
          else m'
        exec (.bankWake qd b) s = .next { s with dg := wakeNext told qd }
      ((getBank m qd b).woken = true → exec (.bankWake qd b) s = .next s) ∧
      ((getBank m qd b).woken = false →
        ((getBank m qd b).keeps = true → (getBank m qd b).retLost = false → goes fun y => { y with power := .on }) ∧
        ((getBank m qd b).keeps = false ∨ (getBank m qd b).retLost = true → goes fun y => { y with woken := true, keeps := false })) ∧
      ((getBank m qd b).woken = true → ∃ t, exec (.bankClearDone qd b) s = .next t ∧
        getBank t.dg qd b = { getBank m qd b with power := .on, woken := false } ∧
        (∀ a, peek t.dg a = if base ≤ a ∧ a < base + 0x80000 then 0 else peek m a) ∧
        (∀ a, base ≤ a → a < base + 0x80000 → getErr t.dg a 0 = 0) ∧
        { t.dg with mem := m.mem, errs := m.errs, cnv := m.cnv } = m)) ∧
    (let y := wakeNext m qd
     ((wakingBanks m qd).length ≤ 4 → (wakingBanks y qd).length ≤ 4) ∧
     (∀ b, b < 32 → getBank y qd b = getBank m qd b ∨
       ((getBank m qd b).power = .retain ∨ (getBank m qd b).power = .off ∧ (getBank m qd b).onSel = true) ∧
       getBank y qd b = { getBank m qd b with power := .waking, woken := false, keeps := (getBank m qd b).power == .retain }) ∧
     { y with cnv := { y.cnv with bank := m.cnv.bank } } = m) ∧
    (∃ t, exec (.retentionSupplyLoss qd) s = .next t ∧
      (∀ b, b < 32 → getBank t.dg qd b =
        if (getBank m qd b).power = .retain then { getBank m qd b with retLost := true, lostDue := true } else getBank m qd b) ∧
      (∀ q b, q ≠ qd → b < 32 → getBank t.dg q b = getBank m q b) ∧ { t.dg with cnv := { t.dg.cnv with bank := m.cnv.bank } } = m)

/-- R306 to R308, R314, R330, R334, R336, R341, R342: a scrub read corrects a single wrong bit, leaves and reports a word
beyond correction, and of a triplicated word repairs the copy that two others outvote; refreshes are counted; a code-store
line is written whole, or the write is refused and reported. -/
def Obligations.ScrubsAndLineWrites : Prop :=
  ∀ (s : State), s.dg.ftest.words = [] →
    let m := s.dg
    (∀ (qd p : Nat) (u : Upset), qd < 4 → unpowered m = false → scrubAt m qd = some p → p < 32 * bankWords → u.wrongAddr = false →
      (∀ e, eccOf u.bits ≠ .wrong e) →
      let wa := 0x20000000 + (32 * qd + p / bankWords) * 0x80000 + p % bankWords * 16
      let tells (kind : Nat) : Dg := report m (0x070 + qd) kind (physOf m wa + 64) wa (0x070 + qd)
      getErr m wa 0 = 0 → ∃ t, exec (.canvasScrubRead qd u) s = .next t ∧
        (getQuad t.dg qd).scrubPos = (p + 1) % (33 * bankWords) ∧ t.dg.mem = m.mem ∧
        { t.dg with cnv := m.cnv, srcs := m.srcs, errs := m.errs } = m ∧
        (u.bits = 0 → t.dg.srcs = m.srcs ∧ ∀ k, getErr t.dg k 0 = getErr m k 0) ∧
        (eccOf u.bits = .corrected → getErr t.dg wa 0 = 0 ∧ t.dg.srcs = (tells kCanvasCorrected).srcs) ∧
        (eccOf u.bits = .uncorrectable → getErr t.dg wa 0 = u.bits ∧ t.dg.srcs = (tells kCanvasUncorrectable).srcs)) ∧
    (∀ ch, ch < 4 → m.drc.up = true → ∃ t, exec (.dramRefresh ch) s = .next t ∧
      SMap.get t.dg.drc.refresh ch = SMap.get m.drc.refresh ch + 1 ∧
      { t.dg with drc := { t.dg.drc with refresh := m.drc.refresh } } = m) ∧
    (∀ (copy : Nat) (u : Upset), m.drc.up = true → copy < 3 → u.wrongAddr = false →
      (∀ e, eccOf u.bits ≠ .wrong e) →
      let wa := 0x1000000000 + patrolAt m * 16
      (∀ k, k < 3 → getErr m wa k = 0) →
      ∃ t, exec (.dramPatrolScrub copy u) s = .next t ∧ t.dg.mem = m.mem ∧
        { t.dg with drc := m.drc, srcs := m.srcs, errs := m.errs } = m ∧
        (bit m.drc.tmrFirst (dramSeg wa) = false → eccOf u.bits = .corrected →
          (∀ k, k < 3 → getErr t.dg wa k = 0) ∧ t.dg.drc.corr = satInc 32 m.drc.corr ∧
          t.dg.srcs = (report m (0x080 + dramChannel m wa 0) kDramCorrected (dramChannel m wa 0) wa (0x080 + dramChannel m wa 0)).srcs) ∧
        (bit m.drc.tmrFirst (dramSeg wa) = false → eccOf u.bits = .uncorrectable →
          getErr t.dg wa 0 = u.bits ∧ t.dg.drc.uncorr = satInc 16 m.drc.uncorr ∧
          t.dg.srcs = (report m (0x080 + dramChannel m wa 0) kDramUncorrectable (dramChannel m wa 0) wa (0x080 + dramChannel m wa 0)).srcs) ∧
        (bit m.drc.tmrFirst (dramSeg wa) = true → eccOf u.bits = .uncorrectable →
          (∀ k, k < 3 → getErr t.dg wa k = 0) ∧ t.dg.drc.tmrRepair = satInc 16 m.drc.tmrRepair ∧
          t.dg.srcs = (report m 0x084 kDramTmrMinority (dramChannel m wa copy) wa 0x084).srcs)) ∧
    (∀ (w : Writer) (addr : Nat) (data : BitVec 1024), 0x60000000 ≤ addr → addr < 0x78000000 →
      let a := addr / 128 * 128
      (storeAllowed m w a = true → ∃ t, exec (.codeStoreLineWrite w addr data) s = .next t ∧
        (∀ x, peek t.dg x =
          if a ≤ x ∧ x < a + 128 then BitVec.ofNat 8 (data.toNat / 2 ^ (8 * (x - a))) else peek m x) ∧
        (∀ x, a ≤ x → x < a + 128 → getErr t.dg x 0 = 0) ∧ { t.dg with mem := m.mem, errs := m.errs } = m) ∧
      (storeAllowed m w a = false →
        exec (.codeStoreLineWrite w addr data) s = .next { s with dg := reportOpen m 0x08C kCstWriteProtect a }))

/-- R312, R344 to R347: a DMA request is claimed and queued behind the jobs of its queue, for which one with FENCE waits, or
completes as INVALID, or as REACH with its report; a turn of a fill moves 4 KiB of its pattern and nothing else; a second collision on a word ends the
job with WCOLL. -/
def Obligations.DmaJobs : Prop :=
  ∀ (s : State) (agent slot : Nat) (r : CfgRec), dmaRec s.dg agent slot = some r →
    let m := s.dg
    let cq := getQ m (r.f 8 4)
    let pid := r.f 2 1
    (∀ (msg : List Byte) (m' : Dg), queueUsable m cq = true → 0 < cq.free →
      hwPeek m (0x60 + agent) (r.f 4 4) = some (msg, 0) → hwTake m (0x60 + agent) (r.f 4 4) = (m', some (msg, 0)) →
      let j := jobOf msg
      let earlier := SMap.get (getAgent m agent).jobs slot
      let claims (i : Instr) : Prop :=
        (j.fence = true → earlier ≠ [] → exec i s = .next s) ∧
        (j.fence = false ∨ earlier = [] →
          (jobInvalid msg j = true → exec i s = .next { s with dg := dmaDone m' r j.tag 2 0 0 }) ∧
          (jobInvalid msg j = false →
            let refused (a : Nat) : Prop := exec i s = .next { s with
              dg := dmaDone (report m' 0x085 kDmaRefused agent (a / 16 * 16 % 2 ^ 48) (tagPid pid)) r j.tag 1 0 0 }
            let src := if j.op = 2 then none else outOfReach m' pid false j.src j.len
            let dst := if j.op = 3 then none else outOfReach m' pid true j.dst j.len
            (src = none → dst = none → exec i s =
              .next { s with dg := updAgent m' agent fun x => { x with jobs := SMap.upd x.jobs slot fun l => l ++ [j] } }) ∧
            (∀ b, src = some b → refused b) ∧ (∀ b, src = none → dst = some b → refused b)))
      (j.op ≠ 2 → j.op ≠ 3 → claims (.dmaCopy agent slot)) ∧ (j.op = 2 → claims (.dmaFill agent slot)) ∧
      (j.op = 3 → claims (.dmaCrc agent slot))) ∧
    (∀ (j : DmaJob) (rest : List DmaJob), nextSlot (getAgent m agent) = some slot →
      SMap.get (getAgent m agent).jobs slot = j :: rest → 0 < cq.free → j.op = 2 →
      (j.done = 0 → 4096 < j.len → j.dst % 4096 = 0 → 0x20000000 ≤ j.dst → j.dst < 0x24000000 → bankDark m j.dst = false →
        wakingAt m j.dst = false → ∃ t, exec (.dmaStep agent 0) s = .next t ∧
          (∀ a, peek t.dg a = if j.dst ≤ a ∧ a < j.dst + 4096 then BitVec.ofNat 8 (j.pattern / 2 ^ (8 * ((a - j.dst) % 16)))
            else peek m a) ∧
          SMap.get (getAgent t.dg agent).jobs slot = { j with done := 4096 } :: rest ∧
          (getAgent t.dg agent).next = (slot + 1) % 16 ∧
          (∀ b, b ≠ agent → getAgent t.dg b = getAgent m b)) ∧
      (j.done < j.len → 0x20000000 ≤ j.dst + j.done → j.dst + j.done < 0x24000000 → wakingAt m (j.dst + j.done) = false →
        let a := j.dst + j.done
        let m' := updAgent (collide (collide m a) a) agent fun x =>
          { x with jobs := SMap.set x.jobs slot rest, next := (slot + 1) % 16 }
        exec (.dmaStep agent 2) s = .next { s with dg := dmaDone m' r j.tag 4 0 j.done }))

/-! ### The mailboxes (spec/07) -/

/-- R354, R362, R365 to R369, R385: a claimed request becomes outstanding behind those before it; a void one is dropped; a
malformed one and a tag in use are answered and have no other effect. One with an undefined opcode is answered; as a claimed
request it ends the idle time of its session (R382), as an accepted one does.
R366: another pair's turn is not this one's. R369: a long command is answered PENDING first, with an estimate that is a free value
(log 28), where a slot beyond the reservation is free.
R367, R369: the final response of a command: it is outstanding no longer, and one message of Exesh with the request's
tag, the status and the payload is published in the response queue of its pair. The command here is IDENTITY_GET, R517. -/
def Obligations.RequestsAndResponses : Prop :=
  (∀ (s : State) (pair : Nat), turnOf s.dg ≠ some pair → exec (.requestClaim pair) s = .next s) ∧
  (∀ (s : State) (pair : Nat) (m1 : Dg) (msg : List Byte) (code : Nat), turnOf s.dg = some pair →
     hwTake { s.dg with mbx := { s.dg.mbx with turn := (pair + 1) % 32 } } 0x00 (reqQ pair) = (m1, some (msg, code)) →
     let ep := requesterOf s.dg pair
     let c : Cmd := ⟨pair, leAt msg 16 2, leAt msg 18 2, leAt msg 20 4, ep, msg.drop 32, .claimed⟩
     let goes (m : Dg) : Prop := exec (.requestClaim pair) s = .next { s with dg := m }
     let answered (m : Dg) (st d : Nat) : Prop := goes (sendResp m pair c.tag st d 1 c.op [])
     (code ≠ 0 → goes m1) ∧
     (code = 0 →
       (∀ off, headerFault msg = some off → 20 ≤ msg.length →
         answered (report m1 0x053 kMbxMalformed pair (reqQ pair) (exeshTag ep)) stInvalid off) ∧
       (headerFault msg = none →
         ((findCmd m1 pair c.tag).isSome = true → answered m1 stTagInUse 0) ∧
         (findCmd m1 pair c.tag = none → accessOf c.op = none → answered (touchSession m1 c) stNotSupported 0) ∧
         (claimRefusal m1 c = none →
           let m2 := atClaim (touchSession { m1 with mbx := { m1.mbx with out := m1.mbx.out ++ [c] } } c) c
           (isLong c = false → goes m2 ∧ m2.mbx.out = m1.mbx.out ++ [c] ∧
             (∀ x, x ∈ m2.mbx.sessions → x.handle = c.session → x.pair = pair → x.ep = ep → x.lastTime = m1.now) ∧
             { m2 with mbx := { m2.mbx with out := m1.mbx.out, sessions := m1.mbx.sessions } } = m1) ∧
           (isLong c = true → pairOut m2 pair < (getQ m2 (respQ pair)).free →
             goes (sendResp { m2 with freeCount := m2.freeCount + 1 } pair c.tag stPending 0 0 c.op
               (leBytes 4 (Config.freeValue m2.freeCount)))))))) ∧
  (∀ (s : State) (pair tag : Nat) (c : Cmd), TurnOf s.dg pair tag 0x0010 c → c.payload = [] → pair < 32 →
     let m := s.dg
     let q := respQ pair
     let x := getQ m q
     tag < 2 ^ 16 → queueUsable m x = true → x.prod (genOf m x) = 0 → 0 < x.free → x.cls = 1 → x.slotLog = 6 →
     bankDark m (x.slotAddr x.wr) = false → 0x20000000 ≤ x.slotAddr x.wr → x.slotAddr x.wr + 4096 ≤ 0x24000000 → x.slotAddr x.wr % 4096 = 0 →
     ∃ t, exec (.identityGet pair tag) s = .next t ∧ findCmd t.dg pair tag = none ∧
       (getQ t.dg q).wr = idxAdd x.wr 1 ∧ (getQ t.dg q).seq = (x.seq + 1) % 2 ^ 16 ∧
       (getQ t.dg q).pubs = x.pubs ++ [⟨x.seq % 2 ^ 16, 0, 0⟩] ∧
       peeks t.dg (x.slotAddr x.wr) 96 = mkMsg q 1 0 x.seq
         (leBytes 16 (tag + 2 ^ 48 + 64 * 2 ^ 64 + 0x10 * 2 ^ 96) ++ deviceId ++
          leBytes 8 (featWord m.part false 0) ++ leBytes 8 (featWord m.part false 7)) ∧
       (∀ k, k ≠ q → getQ t.dg k = getQ m k))

/-- R375 to R383, Table 07.9: sessions: opened with a fresh handle and a challenge, locked out, proved or closed by a failed
proof that is counted, closed by command, by their 30 s without a proof and by their idle time. -/
def Obligations.Sessions : Prop :=
  ∀ (s : State) (pair tag : Nat) (c : Cmd),
    let m := s.dg
    (TurnOf m pair tag 0x0001 c → c.payload.length = 8 → ∀ role card, c.f 0 1 = role → c.f 1 1 = card → 1 ≤ role → role ≤ 6 →
      (if role = 6 then card = 1 ∨ card = 2 else card = 0) → c.f 2 2 = 0 →
      let idle := if c.f 4 4 = 0 then roleIdle m role else min (c.f 4 4) (roleIdle m role)
      (m.now < SMap.get m.mbx.lockUntil (8 * pair + role) →
        Refuses (.sessionOpen pair tag) s c stLockedOut
          (min ((SMap.get m.mbx.lockUntil (8 * pair + role) - m.now + 62499999) / 62500000) 65535)) ∧
      (SMap.get m.mbx.lockUntil (8 * pair + role) ≤ m.now →
        (32 ≤ m.mbx.sessions.length → Refuses (.sessionOpen pair tag) s c stLimit 1) ∧
        (m.mbx.sessions.length < 32 → m.sec.trngOk = true → ∃ h, h ≠ 0 ∧ sessionOf m h = none ∧ h < 2 ^ 32 ∧
          let ch := Config.freeValue (m.freeCount + 1)
          let ss : Session := ⟨h, role, pair, c.ep, card, ch % 2 ^ 384, false, m.now, m.now, idle, none⟩
          Answers (.sessionOpen pair tag) s c
            { m with freeCount := m.freeCount + 2, mbx := { m.mbx with sessions := m.mbx.sessions ++ [ss] } }
            (leBytes 4 h ++ leBytes 48 ch)))) ∧
    (∀ ss method idx, TurnOf m pair tag 0x0002 c → sessionOf m c.session = some ss → ss.auth = false → ss.role ≠ 6 →
      c.f 0 1 = method → c.f 1 1 = idx → c.f 2 2 = 0 → idx < 4 → 1 ≤ method → method ≤ 3 →
      (method = 3 → ss.role = 4 ∧ isUtf8 (c.payload.drop 8) = true) →
      proofLenOk method (c.f 4 4) = true → c.payload.length = 8 + c.f 4 4 →
      (proofVerifies m ss method idx (c.payload.drop 8) = true →
        Answers (.sessionAuth pair tag) s c (proofOk m ss (if method = 3 then none else some idx)) (authPayload ss)) ∧
      (proofVerifies m ss method idx (c.payload.drop 8) = false →
        let k := 8 * ss.pair + ss.role
        let n := SMap.get m.mbx.fails k + 1
        ∃ t, exec (.sessionAuth pair tag) s = .next t ∧ sessionOf t.dg c.session = none ∧ SMap.get t.dg.mbx.fails k = n ∧
          (4 ≤ n → SMap.get t.dg.mbx.lockUntil k = m.now + min (60 * 2 ^ (n - 4)) 3600 * 62500000) ∧
          (n < 4 → t.dg.mbx.lockUntil = m.mbx.lockUntil))) ∧
    (∀ ss, TurnOf m pair tag 0x0003 c → sessionOf m c.session = some ss → c.payload = [] →
      ∃ t, exec (.sessionClose pair tag) s = .next t ∧ sessionOf t.dg c.session = none ∧ findCmd t.dg pair tag = none ∧
        ∀ h, h ≠ c.session → sessionOf t.dg h = sessionOf m h) ∧
    (∀ ss, TurnOf m pair tag 0x0004 c → sessionOf m c.session = some ss → c.payload = [] →
      Answers (.sessionQuery pair tag) s c m
        (leBytes 1 ss.role ++ leBytes 1 (if ss.auth then 2 else 1) ++ leBytes 2 (sessionOut m ss.handle) ++
         leBytes 4 (ss.idleS - (m.now - ss.lastTime) / 62500000))) ∧
    (∀ h ss, sessionOf m h = some ss → ss.auth = false → (∀ d, d ∈ m.mbx.out → d.session ≠ h) →
      (ss.openTime + 30 * 62500000 ≤ m.now → ∃ t, exec (.challengeTimeout h) s = .next t ∧ sessionOf t.dg h = none ∧
        t.dg.mbx.out = m.mbx.out) ∧
      (m.now < ss.openTime + 30 * 62500000 → exec (.challengeTimeout h) s = .next s)) ∧
    (∀ h ss, sessionOf m h = some ss → ss.auth = true → (∀ d, d ∈ m.mbx.out → d.session ≠ h) →
      (ss.lastTime + ss.idleS * 62500000 ≤ m.now → ∃ t, exec (.sessionIdleTimeout h) s = .next t ∧
        sessionOf t.dg h = none ∧ t.dg.mbx.out = m.mbx.out) ∧
      (m.now < ss.lastTime + ss.idleS * 62500000 → exec (.sessionIdleTimeout h) s = .next s))

/-- R378, R384, R517, R518, R523, Tables 07.8 to 07.10: keys are set and revoked by the sessions that may, counted and
measured; the last Owner key stays; the passphrase is kept as its salted hash; versions, identity keys and the report with
its two signatures answer their commands. -/
def Obligations.KeysAndIdentity : Prop :=
  ∀ (s : State) (pair tag : Nat) (c : Cmd),
    let m := s.dg
    (∀ role idx alg, TurnOf m pair tag 0x0005 c → c.f 0 1 = role → c.f 1 1 = idx → c.f 2 1 = alg → c.f 3 1 = 0 →
      1 ≤ role → role ≤ 5 → idx < 4 → (alg = 1 ∧ c.f 4 4 = 1952 ∨ alg = 2 ∧ c.f 4 4 = 97) →
      c.payload.length = 8 + c.f 4 4 →
      (maySetKey m (c.role m) role = true → ∃ m', Answers (.roleKeySet pair tag) s c m' [] ∧
        roleKey m' role idx = ⟨alg, c.payload.drop 8⟩ ∧
        (let key := c.payload.drop 8
         let iv := leBytes 12 (Config.freeValue m.freeCount)
         let sealedRec := iv ++ gcmEncrypt storageKey iv []
           ([role, idx, alg, 0].map (BitVec.ofNat 8) ++ leBytes 4 key.length ++ key)
         peeks m' (keyAddr (4 * role + idx)) sealedRec.length = sealedRec) ∧ (∀ k, k ≠ 4 * role + idx → SMap.get m'.mbx.keys k = SMap.get m.mbx.keys k) ∧
        SMap.get m'.boot.meas 7 = ofLe (sha384Of (leBytes 48 (SMap.get m.boot.meas 7) ++
          ([1, role, idx, alg].map (BitVec.ofNat 8) ++ sha384Of (c.payload.drop 8)))) ∧
        (∀ v, 2 ≤ ctrAgree m 5 v → ctrValue m' 5 = (v + 1) % 2 ^ 64)) ∧
      (maySetKey m (c.role m) role = false → Refuses (.roleKeySet pair tag) s c stDenied 1)) ∧
    (∀ role idx alg, findCmd m pair tag = some c → c.op = 0x0005 → c.phase = .claimed → exeshDown m = false →
      earlier m c .claimed = false → c.role m = 1 → m.part.factory = false →
      c.f 0 1 = role → c.f 1 1 = idx → c.f 2 1 = alg → c.f 3 1 = 0 → 1 ≤ role → role ≤ 5 → idx < 4 →
      (alg = 1 ∧ c.f 4 4 = 1952 ∨ alg = 2 ∧ c.f 4 4 = 97) → c.payload.length = 8 + c.f 4 4 →
      Refuses (.roleKeySet pair tag) s c stDenied 6) ∧
    (∀ role idx, TurnOf m pair tag 0x0006 c → c.payload.length = 2 → c.f 0 1 = role → c.f 1 1 = idx → 1 ≤ role → role ≤ 5 →
      idx < 4 → (roleKey m role idx).alg ≠ 0 → maySetKey m (c.role m) role = true →
      (role = 2 → keysOf m 2 = 1 → exec (.roleKeyRevoke pair tag) s = .next { s with
        dg := finish (if m.boot.due = none then exeshReport m kResourceConflict c.pair 0 c.ep else m) c stConflict 0 [] }) ∧
      ((role = 2 → 2 ≤ keysOf m 2) → (∀ x, x ∈ m.mbx.sessions → x.role = role → x.key ≠ some idx) →
        ∃ m', Answers (.roleKeyRevoke pair tag) s c m' [] ∧ (roleKey m' role idx).alg = 0 ∧
          ∀ v, 2 ≤ ctrAgree m 5 v → ctrValue m' 5 = (v + 1) % 2 ^ 64)) ∧
    (TurnOf m pair tag 0x0007 c → 16 ≤ c.f 0 4 → c.f 0 4 ≤ 64 → c.payload.length = 4 + c.f 0 4 →
      (isUtf8 (c.payload.drop 4) = false → Refuses (.passphraseSet pair tag) s c stInvalid 36) ∧
      (isUtf8 (c.payload.drop 4) = true → m.sec.trngOk = true →
        let salt := Config.freeValue m.freeCount % 2 ^ 128
        ∃ m', Answers (.passphraseSet pair tag) s c m' [] ∧
          m'.mbx.pass = some (salt, ofLe (pbkdf2 (c.payload.drop 4) (leBytes 16 salt) 200000)))) ∧
    (TurnOf m pair tag 0x0011 c → c.payload = [] → ∃ rest, Answers (.versionGet pair tag) s c m
      (leBytes 8 m.mbx.ver ++ leBytes 8 (heldVersion m (1 - m.mbx.bank)) ++ leBytes 8 m.mbx.bank ++
       leBytes 8 (heldVersion m 2) ++ leBytes 8 (heldVersion m 3) ++ rest)) ∧
    (TurnOf m pair tag 0x0013 c → c.payload = [] →
      Answers (.identityKeysGet pair tag) s c m (dsaPublic idMlSeed ++ ecPublic idEcScalar)) ∧
    (TurnOf m pair tag 0x0012 c → 16 ≤ c.f 0 4 → c.f 0 4 ≤ 64 → c.payload.length = 4 + c.f 0 4 →
      GoesOn (.attest pair tag) s c m) ∧
    (c.op = 0x0012 → c.pair = pair → c.tag = tag →
      let settled := (List.range 6).foldl ctrSettle m
      ∃ rest, (atClaim m c).sec.attest = rest ++ [((pair, tag), attestBody settled (c.payload.drop 4))] ∧
        ∀ e, e ∈ rest → e.1 ≠ (pair, tag)) ∧
    (∀ body rest, m.sec.attest = ((pair, tag), body) :: rest → (∀ e, e ∈ rest → e.1 ≠ (pair, tag)) →
      findCmd m pair tag = some c →
      let m' := { m with sec := { m.sec with attest := rest } }
      (c.phase = .claimed → exec (.attestationComplete pair tag) s = .next s) ∧
      (c.phase = .running → signersUp m = false →
        exec (.attestationComplete pair tag) s = .next { s with dg := finish m' c stFailed 0 [] }) ∧
      (c.phase = .running → signersUp m = true →
        Answers (.attestationComplete pair tag) s c { m' with freeCount := m.freeCount + 2 }
          (body ++ dsaSign idMlSeed "DG9-ATTEST" body (leBytes 32 (Config.freeValue m.freeCount)) ++
           ecdsaSign idEcScalar body (nonces (Config.freeValue (m.freeCount + 1))))))

/-- R256, R278 to R281, R388, R389, R610, Table 07.11: the queue commands: creation with nothing bound and a full bucket,
binding and unbinding of generation 0, reset, destruction and query, and their refusals. -/
def Obligations.QueueCommands : Prop :=
  ∀ (s : State) (pair tag : Nat) (c : Cmd) (q : Nat), c.f 0 4 = q → q < 0x3FF00 →
    let m := s.dg
    let x := getQ m q
    (TurnOf m pair tag 0x0020 c → c.payload.length = 32 → c.f 4 4 = 0 → c.f 27 5 = 0 →
      let y := newQueue (c.f 8 16) (c.f 24 2) (c.f 26 1)
      (∀ off, createFault m (c.f 8 16) (c.f 24 2) (c.f 26 1) = some off →
        Refuses (.queueCreate pair tag) s c stInvalid (32 + off)) ∧
      (createFault m (c.f 8 16) (c.f 24 2) (c.f 26 1) = none →
        (admits m q y 0x7F 0x7F = false → Refuses (.queueCreate pair tag) s c stDenied 5) ∧
        (admits m q y 0x7F 0x7F = true →
          (x.valid = true ∨ ringOverlap m y = true → m.boot.due ≠ none → Refuses (.queueCreate pair tag) s c stConflict 0) ∧
          (x.valid = true ∨ ringOverlap m y = true → m.boot.due = none →
            exec (.queueCreate pair tag) s =
              .next { s with dg := finish (exeshReport m kResourceConflict c.pair 0 c.ep) c stConflict 0 [] }) ∧
          (x.valid = false → ringOverlap m y = false → ∃ m', Answers (.queueCreate pair tag) s c m' [] ∧
            getQ m' q = { y with credits := y.budget, filledAt := m.now, refills := 0 } ∧
            y.prod0 = 0x7F ∧ y.cons0 = 0x7F ∧ y.prod1 = 0x7F ∧ y.cons1 = 0x7F ∧ y.credits = c.f 24 2 ∧ y.wr = 0 ∧ y.seq = 0 ∧
            (∀ k, k ≠ q → getQ m' k = getQ m k) ∧ { m' with fab := m.fab } = m)))) ∧
    (TurnOf m pair tag 0x0021 c → c.payload.length = 4 →
      (x.valid = false → Refuses (.queueDestroy pair tag) s c stInvalid 32) ∧
      (x.valid = true → x.bound = true → Refuses (.queueDestroy pair tag) s c stBusy 5) ∧
      (x.valid = true → x.bound = false →
        Answers (.queueDestroy pair tag) s c (setQ m q { x with valid := false }) [])) ∧
    (∀ dir ep h irq, TurnOf m pair tag 0x0022 c → c.payload.length = 12 → x.valid = true → c.f 4 1 = 0 → c.f 5 1 = dir →
      c.f 6 1 = ep → c.f 7 1 = 0 → c.f 8 2 = h → c.f 10 2 = irq → dir = 1 ∨ dir = 2 → 1 ≤ ep → ep ≤ 0x34 → h < 4096 →
      irq = 0 ∨ 8 ≤ irq ∧ irq < 512 →
      (pidDefined m ep = false → Refuses (.queueBind pair tag) s c stInvalid 38) ∧
      (pidDefined m ep = true → x.cls ≠ 0 → (if dir = 1 then x.prod0 else x.cons0) = 0x7F →
        (SMap.get m.fab.handles (4096 * ep + h)).dir = 0 →
        ∃ m', Answers (.queueBind pair tag) s c m' [] ∧
          getQ m' q = (if dir = 1 then { x with prod0 := ep } else { x with cons0 := ep }) ∧
          SMap.get m'.fab.handles (4096 * ep + h) = ⟨q, dir, irq⟩ ∧ (∀ k, k ≠ q → getQ m' k = getQ m k) ∧
          { m' with fab := m.fab } = m)) ∧
    (∀ dir, TurnOf m pair tag 0x0023 c → c.payload.length = 6 → x.valid = true → c.f 4 1 = 0 → c.f 5 1 = dir →
      dir = 1 ∨ dir = 2 →
      let ep := if dir = 1 then x.prod0 else x.cons0
      (ep = 0x7F → Refuses (.queueUnbind pair tag) s c stInvalid 37) ∧
      (ep ≠ 0x7F → ∃ m', Answers (.queueUnbind pair tag) s c m' [] ∧
        getQ m' q = (if dir = 1 then { x with prod0 := 0x7F } else { x with cons0 := 0x7F }) ∧
        (∀ k e, (k, e) ∈ m'.fab.handles → ¬ (k / 4096 = ep ∧ e.q = q ∧ e.dir = dir)) ∧
        (∀ k, k ≠ q → getQ m' k = getQ m k) ∧ { m' with fab := m.fab } = m)) ∧
    (TurnOf m pair tag 0x0024 c → c.payload.length = 4 → x.valid = true →
      let busy := epRuns m (x.prod (genOf m x)) || epRuns m (x.cons (genOf m x))
      (busy = true → Refuses (.queueReset pair tag) s c stBusy 5) ∧
      (busy = false → ∃ m', Answers (.queueReset pair tag) s c m' [] ∧
        (let y := getQ m' q
         y.wr = 0 ∧ y.vis = 0 ∧ y.rd = 0 ∧ y.rel = 0 ∧ y.seq = 0 ∧ y.crcErr = 0 ∧ y.seqErr = 0 ∧ y.otherErr = 0 ∧
         y.pubs = [] ∧ y.credits = x.budget ∧ y.base = x.base ∧ y.prod0 = x.prod0 ∧ y.cons0 = x.cons0) ∧
        (∀ k, k ≠ q → getQ m' k = getQ m k) ∧ { m' with fab := m.fab } = m)) ∧
    (TurnOf m pair tag 0x0025 c → c.payload.length = 4 → c.session ≠ 0 →
      (x.valid = false → Refuses (.queueQuery pair tag) s c stInvalid 32) ∧
      (x.valid = true → Answers (.queueQuery pair tag) s c m (leBytes 16 x.word0 ++ leBytes 16 x.word1)))

/-- R43, R44, R47, R357, R391, R392, R471, R483, Table 07.12: the partition commands: query, stop with its protection, start
and restart on the slot's own group, RUNNING with fresh watchdog windows, and the commanded re-seat of an active core. -/
def Obligations.PartitionCommands : Prop :=
  ∀ (s : State) (pair tag : Nat) (c : Cmd) (pid : Nat), c.payload.length = 1 → c.f 0 1 = pid →
    let m := s.dg
    (∀ r, partRec m pid = some r →
    let g := recCtx r
    (TurnOf m pair tag 0x0030 c → ∃ bs, bs.length = 16 ∧ Answers (.partitionQuery pair tag) s c m bs ∧
      leAt bs 0 1 = pstateCode m pid ∧ leAt bs 1 1 = r.f 1 1 ∧ leAt bs 4 1 = liveBank m pid % 256 ∧
      leAt bs 8 4 = (getPart m pid).restarts % 2 ^ 32 ∧ leAt bs 12 4 = r.f 8 4) ∧
    (TurnOf m pair tag 0x0031 c →
      (protectedNow m pid = true → Refuses (.partitionStop pair tag) s c stDenied 3) ∧
      (protectedNow m pid = false → inWindowOfGlaze m pid = false → underLive m = false →
        ∃ m', Answers (.partitionStop pair tag) s c m' [] ∧ (getPart m' pid).state = .stopped ∧
          (∀ k, k ≠ pid → getPart m' k = getPart m k) ∧ (∀ k, getGrp m' k = getGrp m k))) ∧
    (kindFits m r = true → g < 16 → underLive m = false →
      let runs (i : Instr) (restart : Bool) : Prop :=
        let m0 := releaseAll (if restart then abortJobs m pid else m) pid
        (loadPartition m0 pid (bankOfPid m0 pid) false).2 = true →
          ∃ m', GoesOn i s c m' ∧ (getPart m' pid).state = .starting ∧
            (getPart m' pid).restarts = (if restart then satInc 32 (getPart m pid).restarts else (getPart m pid).restarts) ∧
            (regsOf m' g).mode = .supervisor ∧ (regsOf m' g).pc = BitVec.ofNat 48 (sideAddr m pid false (r.f 24 8))
      ((getGrp m g).state = .full → (getPart m pid).state = .stopped → TurnOf m pair tag 0x0032 c →
        runs (.partitionStart pair tag) false) ∧
      ((getGrp m g).state = .full → protectedNow m pid = false → inWindowOfGlaze m pid = false →
        TurnOf m pair tag 0x0033 c → runs (.partitionRestart pair tag) true) ∧
      ((getGrp m g).state = .lost → (getPart m pid).state = .lost → formGroup m g pid = none →
        TurnOf m pair tag 0x0032 c → Refuses (.partitionStart pair tag) s c stBusy 5)) ∧
    (TurnOf m pair tag 0x0033 c → protectedNow m pid = true → Refuses (.partitionRestart pair tag) s c stDenied 3) ∧
    ((getPart m pid).state = .starting → ∃ t, exec (.partitionRunning pid) s = .next t ∧ (getPart t.dg pid).state = .running ∧
      (∀ n, (getWdg m n).configured = true → (getWdg m n).owner = pid →
        (getWdg t.dg n).run = ⟨0, if (ctxOfPid m pid).any (halted m) then none else some m.now, true, 0, 0xACE1, 0⟩) ∧
      (∀ d, d ∈ t.dg.mbx.out → ¬ ((d.op = 0x0032 ∨ d.op = 0x0033) ∧ d.phase = .running ∧ d.f 0 1 = pid)) ∧
      (∀ k, k ≠ pid → getPart t.dg k = getPart m k))) ∧
    (partRec m pid = none →
      (TurnOf m pair tag 0x0030 c → Refuses (.partitionQuery pair tag) s c stInvalid 32) ∧
      (TurnOf m pair tag 0x0031 c → Refuses (.partitionStop pair tag) s c stInvalid 32) ∧
      (TurnOf m pair tag 0x0032 c → Refuses (.partitionStart pair tag) s c stInvalid 32) ∧
      (TurnOf m pair tag 0x0033 c → Refuses (.partitionRestart pair tag) s c stInvalid 32)) ∧
    (TurnOf m pair tag 0x0036 c → pid < 40 →
      let k := getCore m pid
      ((k.role ≠ .active ∨ (getGrp m k.slot).state = .reseating ∨ (getGrp m k.slot).state = .degraded ∨
        readySpares m (pid / 10) = []) → Refuses (.coreReseat pair tag) s c stBusy 5) ∧
      (k.role = .active → (getGrp m k.slot).state = .full → readySpares m (pid / 10) ≠ [] →
        GoesOn (.coreReseat pair tag) s c (planReseat m ⟨k.slot, k.lane, some pid, 0, 3, false, 0, none, none⟩)))

/-! ### Underpainting, glaze and revert (spec/08 R432 to R443; spec/05 R286, R287) -/

/-- R286, R287, R289, R393, R432 to R438, Tables 07.13, 08.7, 08.8: a mirror copy reaches its target or is dropped and ends
the run; SHADOW_START seats the pair from the READY spares of both studios; the pair starts at its entry point, at a boundary
that lies far enough behind the set-up; each boundary after the warm-up is compared once, and the probation passes or the run
ends in MISMATCH; SHADOW_ABORT returns the cores that are not EXCLUDED. MISMATCH_PERIOD counts as log 38 says. -/
def Obligations.Underpainting : Prop :=
  ∀ (s : State) (pair tag : Nat) (c : Cmd),
    let m := s.dg
    let u := m.boot.under
    (∀ q it rest, (getQ m q).mirror = it :: rest → (getQ m q).linkmode = 1 → (getQ m q).link ≠ q → (getQ m q).notify = false →
      let m0 := updQ m q fun x => { x with mirror := rest }
      let l := (getQ m q).link
      let y := getQ m l
      (0 < y.free → ∃ t, exec (.mirrorCopy q) s = .next t ∧ (getQ t.dg l).wr = idxAdd y.wr 1 ∧
        (getQ t.dg l).vis = idxAdd y.vis 1 ∧ SMap.get (getQ t.dg l).voids y.wr = it.code ∧ (getQ t.dg q).mirror = rest ∧
        t.dg.mem = (writeSpan m0 viaFabric (y.slotAddr y.wr) it.bytes).1.mem) ∧
      (y.free = 0 → underLive m = true → exeshDown m = false → ∃ t, exec (.mirrorCopy q) s = .next t ∧ t.dg.boot.under.st = .aborted ∧
        t.dg.boot.under.cause = 4)) ∧
    (∀ pid bank slot p a k, TurnOf m pair tag 0x0042 c → c.payload.length = 8 → c.f 0 1 = pid → c.f 1 1 = bank →
      c.f 2 1 < 2 → c.f 3 1 = 0 → 1 ≤ c.f 4 4 → c.f 4 4 ≤ 1000000 → bank < 2 → (partRec m pid).isSome = true →
      shadowSlot m pid bank = some slot → poolOf m = some p → windowRecs m pid true ≠ [] →
      (readySpares m (slot / 4) = [] ∨ readySpares m (partner (slot / 4)) = [] →
        Refuses (.shadowStart pair tag) s c stBusy (if underBusy m = true then 3 else 5)) ∧
      (olderPass m (readySpares m (slot / 4)) = some a →
        olderPass m (readySpares m (partner (slot / 4))) = some k →
        let al := allocRun m p pid
        let m' := setUpRun m c slot a k al
        (admitsRun m' = false → Refuses (.shadowStart pair tag) s c stDenied 5) ∧
        (admitsRun m' = true → underBusy m = true → Refuses (.shadowStart pair tag) s c stBusy 3) ∧
        (admitsRun m' = true → underBusy m = false → al.fits m p = false → exec (.shadowStart pair tag) s = .next { s with
          dg := finish (if m.boot.due = none then exeshReport m kResourceConflict c.pair 0 c.ep else m) c stConflict 0 [] }) ∧
        (admitsRun m' = true → underBusy m = false → al.fits m p = true →
          (loadPartition m' pid bank true).2 = true → ∃ m2, GoesOn (.shadowStart pair tag) s c m2 ∧
            m2.boot.under.st = .settingUp ∧ m2.boot.under.pid = pid ∧ m2.boot.under.bank = bank ∧ m2.boot.under.slot = slot ∧
            (let g := getGrp m2 (slot / 4 * 4 + 3)
             g.laneA = some a ∧ g.laneB = none ∧ g.laneC = some k ∧ g.shadow = true ∧ g.pair = true ∧ g.pid = pid) ∧
            (getCore m2 a).role = .shadow ∧ (getCore m2 k).role = .shadow))) ∧
    (TurnOf m pair tag 0x0043 c → c.payload = [] → Answers (.shadowStatus pair tag) s c m
      (leBytes 1 (underCode u.st) ++ leBytes 1 u.pid ++ leBytes 1 u.cause ++ leBytes 1 0 ++ leBytes 4 u.compared ++
       leBytes 4 u.probation ++ leBytes 4 u.misQid ++ leBytes 4 u.misPeriod)) ∧
    (TurnOf m pair tag 0x0044 c → c.payload = [] →
      (underLive m = false → Refuses (.shadowAbort pair tag) s c stInvalid 0xFFFF) ∧
      (underLive m = true → ∃ m', Answers (.shadowAbort pair tag) s c m' [] ∧ m'.boot.under.st = .aborted ∧
        m'.boot.under.cause = 3 ∧ (getGrp m' (pairSlot m)).state = .unused ∧
        (∀ k, k ∈ (getGrp m (pairSlot m)).cores → (getCore m k).role ≠ .excluded → (getCore m' k).role = .ready ∧
          (getCore m' k).lastPass = (getCore m k).lastPass))) ∧
    (∀ q, TurnOf m pair tag 0x0045 c → c.payload.length = 40 → c.f 0 4 = q → q < 0x40000 → (getQ m q).valid = true →
      c.f 4 4 = 0 →
      (underQueue m q = true → Refuses (.digestMaskSet pair tag) s c stBusy 3) ∧
      (underQueue m q = false →
        Answers (.digestMaskSet pair tag) s c { m with fab := { m.fab with qmask := SMap.set m.fab.qmask q (c.f 8 32) } } [])) ∧
    (u.st = .settingUp → ({ underFlip m with pending := some u.setAt } : FlipGrp).due m.now = false →
      exec .shadowPairStart s = .next s) ∧
    (∀ r, u.st = .settingUp → ({ underFlip m with pending := some u.setAt } : FlipGrp).due m.now = true →
      partRec m u.pid = some r → ∃ t, exec .shadowPairStart s = .next t ∧ t.dg.boot.under.st = .running ∧ (getGrp t.dg (pairSlot m)).state = .full ∧
      (regsOf t.dg (pairSlot m)).mode = .supervisor ∧
      (regsOf t.dg (pairSlot m)).pc = BitVec.ofNat 48 (sideAddr m u.pid true (r.f 24 8)) ∧
      (getCtx t.dg (pairSlot m)).appWin = if partFlag m u.pid 1 then u.bank + 1 else 0) ∧
    ((underFlip m).taken ≤ u.seen → exec .shadowPeriodCompare s = .next s) ∧
    (u.st = .running ∨ u.st = .passed → exeshDown m = false → u.seen < (underFlip m).taken →
      let under (u : Under) : Prop := exec .shadowPeriodCompare s = .next { s with dg := updUnder m fun _ => u }
      let v := { u with period := u.period + 1, seen := (underFlip m).taken }
      (0 < u.warm → under { v with warm := u.warm - 1 }) ∧
      (u.warm = 0 → unequalPair m = none → u.st = .passed ∨ u.compared + 1 < u.probation →
        under { v with compared := satInc 32 u.compared }) ∧
      (u.warm = 0 → unequalPair m = none → u.st = .running → u.probation ≤ u.compared + 1 → u.auto = false →
        under { v with compared := satInc 32 u.compared, st := .passed }) ∧
      (∀ e, u.warm = 0 → unequalPair m = some e → ∃ t, exec .shadowPeriodCompare s = .next t ∧
        t.dg.boot.under.st = .mismatch ∧ t.dg.boot.under.misQid = e.q ∧ t.dg.boot.under.misPeriod = u.period + 1 ∧
        (getGrp t.dg (pairSlot m)).state = .unused))

/-- R437, R440 to R442, Tables 08.9 and 08.10: GLAZE and REVERT are accepted in their states only; at B0 the pair and the
live triad exchange slots and the flip is made, with the old lane B core as newcomer; the commit makes the bank lasting and
replaces lane C by the lower-numbered old core, unless a fault re-seat of the new triad took an old core; a revert resumes the old triad degraded at its frozen state. -/
def Obligations.GlazeAndRevert : Prop :=
  ∀ (s : State) (pair tag : Nat) (c : Cmd),
    let m := s.dg
    let u := m.boot.under
    let sd := u.slot / 4
    let slot := u.slot
    let other := slot / 4 * 4 + 3
    let sound (k : Nat) : Prop := (getCore m k).role ≠ .excluded
    (TurnOf m pair tag 0x0046 c → c.payload.length = 1 →
      (u.st ≠ .passed ∨ u.pid ≠ c.f 0 1 → Refuses (.glaze pair tag) s c stInvalid 0xFFFF) ∧
      (u.st = .passed → u.pid = c.f 0 1 → u.glazing = false →
        GoesOn (.glaze pair tag) s c (beginGlaze m (some (pair, tag))))) ∧
    (TurnOf m pair tag 0x0047 c → c.payload.length = 1 →
      (u.st ≠ .revertWindow ∨ u.pid ≠ c.f 0 1 ∨ u.released = true → Refuses (.revert pair tag) s c stInvalid 0xFFFF) ∧
      (u.st = .revertWindow → u.pid = c.f 0 1 → u.released = false → u.closing = false → u.revertAt = none →
        (underFlip m).boundaries m.now ≤ u.seen → GoesOn (.revert pair tag) s c
          (commandFlip (updUnder m fun u => { u with revertAt := some m.now, revertCmd := some (pair, tag) }) u.pid))) ∧
    (slot < 16 → slot % 4 < 3 → (getStudio m sd).reseat = none → (getStudio m sd).waiting = [] →
      (flipDue m u.pid = false → exec .glazeSwitch s = .next s ∧ exec .revertExecute s = .next s) ∧
      (∀ b, u.st = .passed → u.glazing = true → flipDue m u.pid = true → (getGrp m slot).laneB = some b → b < 40 → sound b →
        ∃ t, exec .glazeSwitch s = .next t ∧ t.dg.boot.under.st = .revertWindow ∧
          (getGrp t.dg slot).laneA = (getGrp m other).laneA ∧ (getGrp t.dg slot).laneC = (getGrp m other).laneC ∧
          (getGrp t.dg other).laneA = (getGrp m slot).laneA ∧ (getGrp t.dg other).laneC = (getGrp m slot).laneC ∧
          (getGrp t.dg slot).state = .reseating ∧ (getGrp t.dg other).shadow = true ∧
          (getStudio t.dg sd).reseat = some ⟨slot, 1, none, b, 2, false, m.now, none, some b⟩ ∧
          regsOf t.dg slot = regsOf m other ∧ regsOf t.dg other = regsOf m slot ∧
          SMap.get t.dg.boot.winSwap u.pid = !(SMap.get m.boot.winSwap u.pid)) ∧
      (∀ a k, u.st = .revertWindow → u.closing = false → u.released = false → u.revertAt = none → u.revertCmd = none →
        (getGrp m slot).state = .full → (getGrp m other).laneA = some a → (getGrp m other).laneC = some k → u.qs = [] →
        sound a → sound k → exeshDown m = false → u.seen < (underFlip m).boundaries m.now →
        ∃ t, exec .glazeCommit s = .next t ∧ SMap.get t.dg.boot.bind u.pid = u.bank + 1 ∧
          SMap.get t.dg.boot.meas 6 = ofLe (sha384Of (leBytes 48 (SMap.get m.boot.meas 6) ++
            ([BitVec.ofNat 8 u.pid, BitVec.ofNat 8 u.bank] ++ imgDigest m (u.bank + 2)))) ∧
          (getCore t.dg a).role = .ready ∧ (getCore t.dg k).role = .ready ∧
          (u.keepC = true → t.dg.boot.under.st = .idle ∧ (getStudio t.dg sd).reseat = none) ∧
          (u.keepC = false → t.dg.boot.under.closing = true ∧ (getStudio t.dg sd).reseat =
            some ⟨slot, 2, (getGrp m slot).laneC, min a k, 2, false, m.now, none, some (min a k)⟩)) ∧
      (∀ a k, u.st = .revertWindow → u.revertAt ≠ none → u.released = false → u.closing = false → flipDue m u.pid = true →
        (getGrp m other).laneA = some a → (getGrp m other).laneC = some k → u.qs = [] → u.revertCmd = none →
        a ∉ (getGrp m slot).cores → k ∉ (getGrp m slot).cores →
        ∃ t, exec .revertExecute s = .next t ∧ t.dg.boot.under.st = .idle ∧ (getGrp t.dg slot).state = .degraded ∧
          (getGrp t.dg slot).laneA = some a ∧ (getGrp t.dg slot).laneB = none ∧ (getGrp t.dg slot).laneC = some k ∧
          (getGrp t.dg other).state = .unused ∧ regsOf t.dg slot = regsOf m other ∧
          (getPart t.dg u.pid).state = .running ∧
          (∀ d, d ∈ (getGrp m slot).cores → (getCore m d).role = .active → (getCore t.dg d).role = .ready)))

/-! ### Staging, and the restart of Exesh (spec/07 R390 to R408, spec/08 R421 to R430, spec/09 R477, R482) -/

/-- R371, R386, R387, R390, R393, R401, R423, R427, R430, R526, Tables 07.12, 07.13, 08.6: a chunk in order is written behind
those before it, the last one waits for verification; a chunk out of order or of a length that does not fit is INVALID, and one
for a bank that a partition runs from is BUSY; in recovery the request names the Exesh bank; a staged image that verifies is sealed and VERIFIED, one
that does not is FAILED with the code of its check. -/
def Obligations.Staging : Prop :=
  ∀ (s : State) (pair tag : Nat) (c : Cmd),
    let m := s.dg
    let chunk (i : Instr) (bank offPos totPos drefPos : Nat) (busy : Bool) : Prop :=
      let off := c.f offPos 8
      let total := c.f totPos 8
      let len := c.f (drefPos + 4) 4
      let b := getImg m bank
      4096 ≤ total → total ≤ payLimit (bankKind bank) + 4096 →
      (off ≠ 0 → b.st ≠ .staging ∨ b.next ≠ off ∨ b.size ≠ total → Refuses i s c stInvalid (32 + offPos)) ∧
      (off = 0 ∨ b.st = .staging ∧ b.next = off ∧ b.size = total →
        (c.f drefPos 1 < 2 → c.f (drefPos + 1) 3 = 0 → len = 0 ∨ total < off + len → Refuses i s c stInvalid (32 + drefPos + 4)) ∧
        (0 < len → off + len ≤ total → ∀ m1 st d, drefData m c drefPos = (m1, .error (st, d)) →
          exec i s = .next { s with dg := finish m1 c st d [] }) ∧
        (0 < len → off + len ≤ total → ∀ m1 data, drefData m c drefPos = (m1, .ok data) →
          (busy = true → exec i s = .next { s with dg := finish m1 c stBusy 5 [] }) ∧ (busy = false →
          let w := writeSpan m1 viaPort1 (bankBase bank + off) data
          let m2 := w.1
          let last := off + data.length == total
          let st : CodeBank := ⟨.staging, off + data.length, total, none, if last then some (c.pair, c.tag) else none⟩
          let m3 := updImg m2 bank fun _ => st
          (w.2 = false → exec i s =
            .next { s with dg := finish (updImg m2 bank fun _ => { b with st := .failed, cmd := none }) c stFailed 5 [] }) ∧
          (off + data.length < total → w.2 = true → Answers i s c m3 []) ∧
          (off + data.length = total → w.2 = true → GoesOn i s c m3))))
    (TurnOf m pair tag 0x0034 c → 32 ≤ c.payload.length → chunk (.configStage pair tag) (5 - m.boot.cfgActive) 0 8 16 false) ∧
    (TurnOf m pair tag 0x0040 c → 40 ≤ c.payload.length →
      (c.role m ≠ 1 → c.f 0 1 = 0 ∨ 3 < c.f 0 1 → Refuses (.updateStage pair tag) s c stInvalid 32) ∧
      (c.role m = 1 → m.part.factory = true → c.f 0 1 ≠ 1 → Refuses (.updateStage pair tag) s c stDenied 1) ∧
      (c.f 0 1 = 1 → m.mbx.state ≠ 4 → c.f 1 7 = 0 → chunk (.updateStage pair tag) (1 - m.mbx.bank) 8 16 24 false) ∧
      (∀ b, c.f 0 1 = 1 → m.mbx.state = 4 → c.f 1 1 = b → b < 2 → c.f 2 6 = 0 → chunk (.updateStage pair tag) b 8 16 24 false) ∧
      (∀ b, c.f 0 1 = b → b = 2 ∨ b = 3 → c.role m ≠ 1 → c.f 1 7 = 0 →
        chunk (.updateStage pair tag) b 8 16 24 (decide (0 < boundCount m (b - 2))))) ∧
    (TurnOf m pair tag 0x0035 c → c.payload = [] →
      Answers (.configDiscard pair tag) s c (updImg m (5 - m.boot.cfgActive) fun _ => default) []) ∧
    (TurnOf m pair tag 0x0041 c → c.payload = [] → ∃ bs, bs.length = 256 ∧ Answers (.updateStatus pair tag) s c m bs ∧
      ∀ b, b < 4 → leAt bs (64 * b) 1 = bankStCode (shownState m b) ∧
        leAt bs (64 * b + 8) 8 = if imgHeld m b then imgVersion m b else 0) ∧
    (∀ b cmd, b < 6 → (getImg m b).st = .staging → (getImg m b).cmd = some cmd → exeshDown m = false →
      (∀ m1 st d, stageRefusal m b = (m1, some (st, d)) →
        let told := match findCmd m1 cmd.1 cmd.2 with
          | some e => if st = stConflict ∧ m1.boot.due = none then exeshReport m1 kResourceConflict e.pair 0 e.ep else m1
          | none => m1
        let m2 := updImg told b fun x => { x with st := .failed, cmd := none }
        exec (.verificationComplete b) s = .next { s with dg := finishAt m2 (some cmd) st d [] }) ∧
      (formatOk m b = false → stageRefusal m b = (m, some (stFailed, 3))) ∧
      (formatOk m b = true → signerOk m b = false → stageRefusal m b = (m, some (stFailed, 1))) ∧
      (formatOk m b = true → signerOk m b = true → ∀ m1 floor, ctrRead m (bankKind b - 1) = (m1, floor) → imgSvn m1 b < floor →
        stageRefusal m b = (reportOpen m1 0x0D6 kRollbackRefused 0, some (stFailed, 2))) ∧
      (∀ m1, stageRefusal m b = (m1, none) → ∃ t, exec (.verificationComplete b) s = .next t ∧
        (getImg t.dg b).st = .verified ∧ (getImg t.dg b).mac = some (stageMac m1 b) ∧ (getImg t.dg b).cmd = none))

/-- R403 to R408, R410, R419, R477, R482, Table 07.18: a planned restart drains for at most 1 s, resets the supervisor's lanes
and comes back with every command answered and every session closed; with neither bank good it enters recovery, in which no
partition runs; the bridge answers BUSY meanwhile; a lane that disagrees is left out, and the loss of
the majority or of the watchdog's service in its window resets the lanes at once. -/
def Obligations.ExeshRestarts : Prop :=
  ∀ (s : State) (pair tag : Nat) (c : Cmd),
    let m := s.dg
    let restarting (r : Restart) : Dg := updMbx m fun x => { x with restart := some r }
    (TurnOf m pair tag 0x0048 c → c.payload.length = 1 → m.mbx.state ≠ 4 →
      (1 < c.f 0 1 ∨ imgHeld m (c.f 0 1) = false ∨ m.mbx.bank = c.f 0 1 → Refuses (.exeshSwitch pair tag) s c stInvalid 32) ∧
      (c.f 0 1 ≤ 1 → imgHeld m (c.f 0 1) = true → m.mbx.bank ≠ c.f 0 1 →
        (underBusy m = true → Refuses (.exeshSwitch pair tag) s c stBusy 3) ∧
        (underBusy m = false →
          GoesOn (.exeshSwitch pair tag) s c (restarting ⟨.switch, c.f 0 1, some (pair, tag), false, m.now, false⟩)))) ∧
    (m.mbx.lanes ≠ 7 → m.mbx.state = 2 → m.mbx.restart = none → underBusy m = false →
      exec .laneResync s = .next { s with dg := restarting ⟨.resync, m.mbx.bank, none, false, m.now, false⟩ }) ∧
    (∀ r, m.mbx.restart = some r → r.reset = false →
      (m.mbx.out = [] → exec .restartDrainEnd s = .next { s with dg := restarting { r with drained := true } }) ∧
      ((∃ d, d ∈ m.mbx.out ∧ some (d.pair, d.tag) ≠ r.cmd) → m.now < r.t0 + 62500000 →
        exec .restartDrainEnd s = .next s) ∧
      (r.t0 + 62500000 ≤ m.now → ∃ t, exec .restartDrainEnd s = .next t ∧
        t.dg.mbx.restart = some { r with drained := true } ∧
        ∀ d, d ∈ t.dg.mbx.out → d.phase = .running ∧ (lateCommit d.op = false ∨ effectMade m d = true)) ∧
      (r.drained = true → ∃ t, exec .restartLaneReset s = .next t ∧ t.dg.mbx.state = 3 ∧
        t.dg.mbx.restart = some { r with reset := true } ∧ regsOf t.dg 56 = Regs.reset ∧ (getCtx t.dg 56).sb = [] ∧
        t.dg.supWdg = ⟨m.now, true, if m.fcr.clkLost = true then some m.now else none⟩)) ∧
    (∀ r, m.mbx.restart = some r → pair < 32 → 0 < (getQ m (respQ pair)).free →
      ∀ m1 msg, hwTake m 0x00 (reqQ pair) = (m1, some (msg, 0)) → exec (.bridgeBusyResponse pair) s =
        .next { s with dg := sendResp m1 pair (leAt msg 16 2) stBusy 1 3 (leAt msg 18 2) [] }) ∧
    (∀ r okA okB, m.mbx.restart = some r → r.reset = true →
      let bank := restartBank (ctrSettle m 0) r fun b => if b = 0 then okA else okB
      (∀ b, bank = some b → ∃ t, exec (.restartComplete okA okB) s = .next t ∧
        t.dg.mbx.state = (if m.boot.due = none then 2 else 1) ∧ (t.dg.mbx.supervisor = true ↔ m.boot.due = none) ∧
        t.dg.mbx.restart = none ∧ t.dg.mbx.lanes = 7 ∧ t.dg.mbx.sessions = [] ∧ t.dg.mbx.out = [] ∧
        t.dg.mbx.restarts = satInc 16 m.mbx.restarts) ∧
      (bank = none → ∃ t, exec (.restartComplete okA okB) s = .next t ∧
        t.dg.mbx.state = 4 ∧ t.dg.mbx.sessions = [] ∧ t.dg.mbx.out = [] ∧ ∀ pid, (getPart t.dg pid).state = .stopped)) ∧
    (∀ lane, lane < 3 → m.mbx.lanes = 7 →
      let m' := updMbx (reportOpen m (0x050 + lane) kSupLaneMinority 0) fun x => { x with lanes := 7 - 2 ^ lane }
      exec (.supLaneMinority lane) s = .next { s with dg := m' }) ∧
    (m.mbx.state = 2 → unpowered m = false → ∃ t, exec .supNoMajority s = .next t ∧ t.dg.mbx.state = 3 ∧ t.dg.mbx.lanes = 0 ∧
      t.dg.mbx.restart = some ⟨.unplanned, m.mbx.bank, none, true, m.now, true⟩ ∧ regsOf t.dg 56 = Regs.reset ∧ (getCtx t.dg 56).sb = []) ∧
    (supWdgRuns m = true →
      ((m.supWdg.first = true ∨ 500 ≤ supCount m) → supCount m < supClose m →
        exec .supWdgService s = .next { s with dg := { m with supWdg := ⟨m.now, false, none⟩ } } ∧
        exec .supWdgTimeout s = .next s) ∧
      (supClose m ≤ supCount m →
        exec .supWdgTimeout s = .next { s with dg := unplannedRestart (report m 0x0E0 kSupWdgTimeout 0 0 0x050) } ∧
        exec .supWdgService s = exec .supWdgTimeout s) ∧
      (m.supWdg.first = false → supCount m < 500 →
        exec .supWdgService s = .next { s with dg := unplannedRestart (report m 0x0E0 kSupWdgTimeout 0 0 0x050) }))

/-! ### Faults, watchdogs and the safe state (spec/09) -/

/-- R461 to R467, R507, Table 07.14: the fault commands: entries of the log with their status words, LIVE entries marked as
read; a kind cleared unless an entry of it is LIVE; the policy of a source read and set; the summary; a release of the safe
state refused while a cause stands, and taken up otherwise. -/
def Obligations.FaultCommands : Prop :=
  ∀ (s : State) (pair tag : Nat) (c : Cmd),
    let m := s.dg
    let src := c.f 0 2
    (TurnOf m pair tag 0x0050 c → c.payload.length = 4 → m.fcr.logNext < 1024 →
      (1023 < c.f 0 2 → Refuses (.faultLogRead pair tag) s c stInvalid 32) ∧
      (c.f 0 2 ≤ 1023 → c.f 2 2 = 0 ∨ 169 < c.f 2 2 → Refuses (.faultLogRead pair tag) s c stInvalid 34) ∧
      (c.f 0 2 ≤ 1023 → 0 < c.f 2 2 → c.f 2 2 ≤ 169 →
        let n := min (c.f 2 2) (logAvail m.fcr (c.f 0 2))
        ∃ bs m', Answers (.faultLogRead pair tag) s c m' bs ∧ bs.length = 8 + 24 * n ∧ leAt bs 0 2 = m.fcr.logNext ∧
          leAt bs 2 2 = n ∧
          (∀ k, k < n →
            let i := (c.f 0 2 + k) % 1024
            let e := SMap.get m.fcr.log i
            leAt bs (8 + 24 * k) 16 = e.msg.word ∧ leAt bs (24 + 24 * k) 8 = e.status ∧
            (SMap.get m'.fcr.log i).readLive = (e.readLive || e.live)) ∧
          { m' with fcr := { m'.fcr with log := m.fcr.log } } = m)) ∧
    (TurnOf m pair tag 0x0051 c → c.payload.length = 3 →
      let kind := c.f 2 1
      let mine (e : LogEntry) : Bool := e.msg.src == src && e.msg.kind == kind
      (0x10F < src → Refuses (.faultClear pair tag) s c stInvalid 32) ∧
      (src ≤ 0x10F → kind ≠ 0xFF → (m.fcr.log.any fun e => mine e.2 && e.2.live) = true →
        Answers (.faultClear pair tag) s c m (leBytes 2 0)) ∧
      (src ≤ 0x10F → kind ≠ 0xFF → (m.fcr.log.any fun e => mine e.2 && e.2.live) = false →
        ∃ m', Answers (.faultClear pair tag) s c m' (leBytes 2 (m.fcr.log.filter fun e => mine e.2 && !e.2.cleared).length) ∧
          unclearedKind m' src kind = none ∧
          (∀ k, k ≠ 256 * src + kind → SMap.get m'.fcr.uncleared k = SMap.get m.fcr.uncleared k) ∧
          m'.fcr.log = (m.fcr.log.map fun e => if mine e.2 then (e.1, { e.2 with cleared := true }) else e) ∧
          m'.fcr.cls = m.fcr.cls ∧ { m' with fcr := m.fcr } = m) ∧
      (src ≤ 0x10F → kind = 0xFF → (m.fcr.log.any fun e => e.2.msg.src == src && e.2.live) = false →
        ∃ m' n, Answers (.faultClear pair tag) s c m' (leBytes 2 n) ∧ (∀ k, k < 256 → unclearedKind m' src k = none) ∧
          (∀ k, k / 256 ≠ src → SMap.get m'.fcr.uncleared k = SMap.get m.fcr.uncleared k) ∧
          (SMap.get m'.fcr.cls src).severe = false ∧ (SMap.get m'.fcr.cls src).count = 0 ∧ { m' with fcr := m.fcr } = m)) ∧
    (TurnOf m pair tag 0x0052 c → c.payload.length = 2 →
      (0x10F < src → Refuses (.faultPolicyGet pair tag) s c stInvalid 32) ∧
      (src ≤ 0x10F → Answers (.faultPolicyGet pair tag) s c m (policyOf m src).bytes)) ∧
    (TurnOf m pair tag 0x0053 c → c.payload.length = 20 →
      (0x10F < src → Refuses (.faultPolicySet pair tag) s c stInvalid 32) ∧
      (src ≤ 0x10F → c.f 2 2 ≠ 0 → Refuses (.faultPolicySet pair tag) s c stInvalid 34) ∧
      (∀ off, src ≤ 0x10F → c.f 2 2 = 0 → policyFault src (c.payload.drop 4) = some off →
        Refuses (.faultPolicySet pair tag) s c stInvalid off) ∧
      (src ≤ 0x10F → c.f 2 2 = 0 → policyFault src (c.payload.drop 4) = none →
        ∃ m', Answers (.faultPolicySet pair tag) s c m' [] ∧ (policyOf m' src).bytes = c.payload.drop 4 ∧
          SMap.get m'.fcr.cls src = ⟨false, 0, 0⟩ ∧
          (∀ k, k ≠ src → policyOf m' k = policyOf m k ∧ SMap.get m'.fcr.cls k = SMap.get m.fcr.cls k) ∧
          { m' with fcr := { m'.fcr with policy := m.fcr.policy, cls := m.fcr.cls } } = m)) ∧
    (TurnOf m pair tag 0x0054 c → c.payload = [] → ∃ bs, Answers (.faultStatus pair tag) s c m bs ∧ bs.length = 44 ∧
      leAt bs 0 1 = maxSev m % 256 ∧ leAt bs 1 1 = (if errN m then 1 else 0) ∧ leAt bs 2 1 = (if safeN m then 1 else 0) ∧
      leAt bs 3 1 = 0 ∧ leAt bs 4 4 = m.fcr.overwritten % 2 ^ 32 ∧
      (∀ n, n < 0x110 → bit (leAt bs 8 36) n = (unclearedList m).any fun e => e.1 == n)) ∧
    (TurnOf m pair tag 0x0055 c → c.payload = [] →
      (m.fix.engaged = false → Answers (.safestateRelease pair tag) s c m []) ∧
      (m.fix.engaged = true →
        let held := (∃ n x, (n, x) ∈ m.fcr.cls ∧ x.severe = true) ∨ unclearedKind m m.fix.causeSrc m.fix.causeKind ≠ none ∨
          (∃ pid, pid ∈ fixOwners m ∧ (getPart m pid).state ≠ .running) ∨ m.fcr.chipReset ≠ none
        (held → Refuses (.safestateRelease pair tag) s c stBusy 2) ∧
        (¬ held → GoesOn (.safestateRelease pair tag) s c { m with fix := { m.fix with releasing := true } })))

/-- R456 to R458, R461 to R476, R505: FCR accepts the oldest message of a source: it is logged, shadowed or classified by
the algorithm of R468, and the reactions that PIN, INT, NMI, SAFE_STATE and CHIP_RESET name take effect; the ninth counted
reaction in 1 ms is an escalation. A source that has room again tells what it dropped, four failed sends lose a message,
shadows end, a chip reset is made at its time, and FCR's own faults enter the chip-level safe state. -/
def Obligations.FaultsTaken : Prop :=
  ∀ (s : State) (src : Nat), fcrDark s.dg = false →
    let m := s.dg
    let f := SMap.get m.srcs src
    (∀ x rest, f.fifo = x :: rest →
      let m0 : Dg := { m with srcs := SMap.set m.srcs src { f with fifo := rest, fails := 0 } }
      let p := policyOf m x.src
      let c := SMap.get m.fcr.cls x.src
      let counts := p.countSev ≤ x.sev
      let start := counts ∧ (c.count = 0 ∨ 125 * p.windowUs ≤ 2 * (m.now - c.wstart))
      let n := if counts then min ((if start then 0 else c.count) + 1) 255 else c.count
      let became := c.severe = false ∧ (counts ∧ p.threshold ≤ n ∨ x.sev = 3)
      let severe := c.severe = true ∨ became
      let ovr := p.ovrKind ≠ 0 ∧ x.kind = p.ovrKind
      let set := if severe then (if ovr then p.ovrSevere else p.severe) else if ovr then p.ovrNormal else p.normal
      let reacts := p.reactSev ≤ x.sev ∨ became
      let second := 0x0E1 ≤ x.src ∧ x.src < 0x0EF ∧ 0xC1 ≤ x.kind ∧ x.kind ≤ 0xC8 ∧ bit x.detail 9 = true
      (inShadow m x = true → ∃ t, exec (.faultMessageAccept src) s = .next t ∧
        (let e := SMap.get t.dg.fcr.log m.fcr.logNext
         e.msg = x ∧ e.shadowed = true ∧ e.reactions = 0) ∧
        t.dg.fcr.logNext = (m.fcr.logNext + 1) % 1024 ∧ t.dg.fcr.cls = m.fcr.cls ∧ t.dg.fcr.uncleared = m.fcr.uncleared ∧
        { t.dg with fcr := m.fcr } = m0) ∧
      (inShadow m x = false → (second ∨ m.fcr.chipSafe = true ∨ ¬ reacts ∨
          (bit set 1 = true ∨ bit set 2 = true ∨ bit set 3 = true → (recentCounted m).length < 8)) →
        ∃ m1 eff, exec (.faultMessageAccept src) s = .next { s with dg := applySet m1 p x eff } ∧
          (let e := SMap.get m1.fcr.log m.fcr.logNext
           e.msg = x ∧ e.shadowed = false ∧ e.reactions = eff ∧ e.count = n ∧ (e.severe = true ↔ severe) ∧
           e.live = (isCond x.kind && !x.ended) ∧ (e.override = true ↔ ovr) ∧ e.timeHi = m.now / 2 ^ 32 % 2 ^ 28) ∧
          m1.fcr.logNext = (m.fcr.logNext + 1) % 1024 ∧
          (let d := SMap.get m1.fcr.cls x.src
           (d.severe = true ↔ severe) ∧ d.count = n ∧ d.wstart = if start then m.now else c.wstart) ∧
          (unclearedKind m1 x.src x.kind).isSome = true ∧ { m1 with fcr := m.fcr } = m0 ∧
          (second ∨ m.fcr.chipSafe = true ∨ ¬ reacts → eff = 0 ∧ applySet m1 p x eff = m1) ∧
          (¬ (second ∨ m.fcr.chipSafe = true ∨ ¬ reacts) →
            let run := if p.target = 0 then exeshDown m = false else (getPart m p.target).state = .running
            (bit eff 0 = true ↔ bit set 0 = true ∧ run) ∧ (bit eff 1 = true ↔ bit set 1 = true ∧ run) ∧
            (bit eff 2 = true ↔ bit set 2 = true ∧ bit set 4 = false ∧ resettable x.src = true ∧
              m.pwr.loss = false ∧ ¬ (m.fix.engaged = true ∧ 0x090 ≤ x.src ∧ x.src < 0x0B6)) ∧
            (bit eff 3 = true ↔ bit set 3 = true ∧ bit set 4 = false ∧ bit set 2 = false ∧ m.pwr.loss = false ∧ x.src < 0x028) ∧
            bit eff 4 = bit set 4 ∧ bit eff 5 = bit set 5 ∧ bit eff 6 = bit set 6 ∧
            (bit eff 2 = false → bit eff 3 = false →
              let t := applySet m1 p x eff
              (bit eff 5 = true → unclearedKind t x.src x.kind = some true) ∧
              (bit eff 0 = true ∨ bit eff 1 = true →
                (SMap.get t.fcr.my p.target).last0 = x.word % 2 ^ 64 ∧ (SMap.get t.fcr.my p.target).last1 = x.word / 2 ^ 64) ∧
              (bit eff 0 = true → bit (SMap.get t.fcr.my p.target).evt.flags 0 = true) ∧
              (bit eff 1 = true → bit (SMap.get t.fcr.my p.target).evt.flags 1 = true) ∧
              (bit eff 4 = true ∨ bit eff 6 = true → t.fix.engaged = true) ∧
              (bit eff 4 = true → m.fix.engaged = false → t.fcr.chipReset = some true)))) ∧
      (inShadow m x = false → ¬ second → m.fcr.chipSafe = false → reacts → 8 ≤ (recentCounted m).length →
        bit set 1 = true ∨ bit set 2 = true ∨ bit set 3 = true → ∃ t, exec (.faultMessageAccept src) s = .next t ∧
          (let e := SMap.get t.dg.fcr.log m.fcr.logNext
           e.msg = x ∧ e.escalated = true ∧ e.reactions = 0) ∧
          (let e := SMap.get t.dg.fcr.log ((m.fcr.logNext + 1) % 1024)
           e.msg.src = 0x0EF ∧ e.msg.kind = kEscalation) ∧ t.dg.fcr.chipSafe = true ∧ t.dg.fix.engaged = true)) ∧
    (f.dropped ≠ 0 → f.fifo.length < 8 → ∃ t, exec (.faultOverflow src) s = .next t ∧
      (let g := SMap.get t.dg.srcs src
       let k := (f.seq + 1) % 2 ^ 16
       g.fifo = f.fifo ++ [⟨src, kFaultOverflow, 1, f.dropped % 1024, 0, m.now % 2 ^ 32, k, src, false, false⟩] ∧
       g.dropped = 0 ∧ g.seq = k) ∧
      (∀ n, n ≠ src → SMap.get t.dg.srcs n = SMap.get m.srcs n) ∧ { t.dg with srcs := m.srcs } = m) ∧
    (∀ x rest, f.fifo = x :: rest →
      (f.fails + 1 < 4 → exec (.faultnetResend src) s =
        .next { s with dg := { m with srcs := SMap.set m.srcs src { f with fails := f.fails + 1 } } }) ∧
      (4 ≤ f.fails + 1 →
        let k := (f.seq + 1) % 2 ^ 16
        let y : FaultMsg := ⟨src, kFaultnetError, 1, openDetail m src kFaultnetError, 0, m.now % 2 ^ 32, k, src, false, false⟩
        let srcs := SMap.set (SMap.set m.srcs src { f with fifo := rest, fails := 0 }) src { f with seq := k, fifo := rest, fails := 0 }
        exec (.faultnetResend src) s = .next { s with dg := accept { m with srcs := srcs } y })) ∧
    (∀ tag, ∃ t, exec (.resetShadowEnd tag) s = .next t ∧
      (∀ x, x ∈ t.dg.fcr.shadows ↔ x ∈ m.fcr.shadows ∧ ¬ (x.tag = tag ∧ shadowOver m x = true)) ∧
      { t.dg with fcr := { t.dg.fcr with shadows := m.fcr.shadows } } = m) ∧
    (m.fcr.chipReset = some true → m.now < m.fix.engageTime + 1250 → exec .chipResetExecute s = .next s) ∧
    (m.fcr.chipReset = some true ∧ m.fix.engageTime + 1250 ≤ m.now ∨ m.fcr.chipReset = some false ∧ m.fix.rampsDone = true →
      unpowered m = false → ∃ t, exec .chipResetExecute s = .next t ∧ t.dg.boot.due = some 0 ∧ t.dg.boot.meas = [] ∧ t.dg.fcr.chipReset = none ∧
        t.dg.fcr.policyLoaded = false ∧ (∀ n, policyOf t.dg n = Policy.reset ∧ SMap.get t.dg.fcr.cls n = ⟨false, 0, 0⟩) ∧
        t.dg.fcr.logNext = m.fcr.logNext ∧ t.dg.fcr.overwritten = m.fcr.overwritten ∧ t.dg.fcr.uncleared = m.fcr.uncleared ∧
        (m.fix.engaged = true → t.dg.fix = { m.fix with resetDone := true, ch := m.fix.ch.map fun e =>
          (e.1, if e.2.configured = true then { e.2 with hasArmed := false, never := true } else e.2) }) ∧ t.dg.mem = m.mem ∧ t.dg.now = m.now) ∧
    (∀ slice, slice < 3 → exec (.fcrSlice slice) s = .next { s with dg := reportOpen m 0x0EF kFcrSlice slice }) ∧
    (∃ t, exec .fcrSelf s = .next t ∧ t.dg.fix.engaged = true ∧ t.dg.fcr.chipSafe = true ∧
      (let e := (SMap.get t.dg.fcr.log m.fcr.logNext).msg
       e.src = 0x0EF ∧ e.kind = kFcrSelf)) ∧
    (∀ khz, m.fcr.clkLost = false →
      (392000 ≤ khz → khz ≤ 408000 → exec (.clkMainCheck khz) s = .next s) ∧
      (khz < 392000 ∨ 408000 < khz → ∃ t, exec (.clkMainCheck khz) s = .next t ∧ t.dg.fix.engaged = true ∧
        t.dg.fcr.chipSafe = true ∧ t.dg.fcr.clkLost = true ∧
        (let e := SMap.get t.dg.fcr.log m.fcr.logNext
         e.msg.src = 0x0EF ∧ e.msg.kind = kClkMainLoss ∧ e.live = true) ∧
        ∀ n, (getWdg t.dg n).run.since = none))

/-- R513, R514: fault injection has no effect unless the injection registers respond; then an injected message enters its
source's FIFO marked as injected, stored bits are inverted, a stopped core or a corrupted digest puts its lane in the
minority or loses the group, a corrupted flit is reported, and a watchdog's services are suppressed. -/
def Obligations.FaultInjection : Prop :=
  ∀ (s : State),
    let m := s.dg
    (injects m = true ↔ m.part.factory = true ∧ m.ftest.low = true ∧
      ∃ x, x ∈ m.mbx.sessions ∧ x.role = 1 ∧ x.auth = true ∧ x.pair = 31) ∧
    (injects m = false →
      (∀ src kind detail addr subject, exec (.injectMessage src kind detail addr subject) s = .next s) ∧
      (∀ g lane, exec (.injectDigestCorruption g lane) s = .next s) ∧
      (∀ addr copy b1 b2, exec (.injectBitInversion addr copy b1 b2) s = .next s) ∧
      (∀ l wires, exec (.injectFlitCorruption l wires) s = .next s) ∧ (∀ core, exec (.injectClockStop core) s = .next s) ∧
      (∀ n, exec (.injectServiceSuppress n) s = .next s)) ∧
    (injects m = true →
      (∀ src kind detail addr subject,
        let f := SMap.get m.srcs src
        let k := (f.seq + 1) % 2 ^ 16
        f.fifo.length < 8 → ∃ t, exec (.injectMessage src kind detail addr subject) s = .next t ∧
          (SMap.get t.dg.srcs src).fifo = f.fifo ++
            [⟨src, kind, sevOf kind, detail % 1024, addr % 2 ^ 48, m.now % 2 ^ 32, k, subject, true, false⟩] ∧
          (SMap.get t.dg.srcs src).seq = k ∧ (∀ n, n ≠ src → SMap.get t.dg.srcs n = SMap.get m.srcs n) ∧
          { t.dg with srcs := m.srcs } = m) ∧
      (∀ addr b1 b2, 0x20000000 ≤ addr → addr < 0x24000000 → b1 < 144 → b2 < 144 →
        let wa := addr / 16 * 16
        ∃ t, exec (.injectBitInversion addr 0 b1 b2) s = .next t ∧
          (∀ i, i < 144 → (getErr t.dg wa 0).getLsbD i = ((getErr m wa 0).getLsbD i ^^ (i == b1 || i == b2))) ∧
          t.dg.mem = m.mem ∧ { t.dg with errs := m.errs, ftest := m.ftest } = m) ∧
      (∀ (l : Link) wires, linkExists l = true → (SMap.get m.fab.links (lkey l)).failed = false → 0 < wires →
        ∃ t, exec (.injectFlitCorruption l wires) s = .next t ∧ { t.dg with srcs := m.srcs } = m ∧
          let f := SMap.get m.srcs (meshSrc l.x l.y)
          f.fifo.length < 8 → ∃ x, (SMap.get t.dg.srcs (meshSrc l.x l.y)).fifo = f.fifo ++ [x] ∧ x.injected = true ∧
            x.kind = if wires = 1 then kFlitCorrected else kLinkRetry) ∧
      (∀ n, n < 64 → (getWdg m n).configured = true → ∃ t, exec (.injectServiceSuppress n) s = .next t ∧
        getWdg t.dg n = { getWdg m n with suppressed := true } ∧ (∀ k, k ≠ n → getWdg t.dg k = getWdg m k) ∧
        { t.dg with wdg := m.wdg } = m) ∧
      (∀ g lane, compares m g = true → lane ∈ lanesCompared m g →
        ∃ t t', exec (.injectDigestCorruption g lane) s = .next t ∧
          exec (.laneDisagreement g (.minority lane) .agree) s = .next t' ∧
          { t.dg with srcs := m.srcs } = { t'.dg with srcs := m.srcs }) ∧
      (∀ core, core < 40 →
        let k := getCore m core
        ((k.role ≠ .active ∧ k.role ≠ .shadow) ∨ compares m k.slot = false ∨ k.lane ∉ lanesCompared m k.slot →
          ∃ t, exec (.injectClockStop core) s = .next t ∧ getCore t.dg core = { k with clockStopped := true } ∧
            { t.dg with stu := m.stu } = m ∧ ∀ j, j ≠ core → getCore t.dg j = getCore m j) ∧
        (k.role = .active ∨ k.role = .shadow → compares m k.slot = true → k.lane ∈ lanesCompared m k.slot →
          let s1 : State := { s with dg := updCore m core fun k => { k with clockStopped := true } }
          ∃ t t', exec (.injectClockStop core) s = .next t ∧
            exec (.laneDisagreement k.slot (.minority k.lane) .agree) s1 = .next t' ∧
            { t.dg with srcs := m.srcs } = { t'.dg with srcs := m.srcs })))

/-- R495, R497 to R504, R510, Tables 09.11 to 09.15: at engagement every channel latches its hold value; a tick drives each
channel along its profile and queues the frames that are due with the values of the tick; arming messages change the
channels and templates of their owner only, entry by entry, and an invalid or foreign entry is reported. -/
def Obligations.FixativeEvents : Prop :=
  ∀ (s : State),
    let m := s.dg
    let x := m.fix
    (x.engaged = false → fcrDark m = false → m.boot.under.st ≠ .revertWindow → ∃ t, exec .fcrSelf s = .next t ∧
      t.dg.fix.engaged = true ∧ t.dg.fix.chipLvl = true ∧ t.dg.fix.tick = 0 ∧ t.dg.fix.engageTime = m.now ∧
      (∀ p, (getEth t.dg p).egress = ((getEth m p).egress.filter fun f => !f.internal) ∧
        (getEth t.dg p).fixSaks = (getEth m p).saks) ∧
      t.dg.fix.causeSrc = 0x0EF ∧ t.dg.fix.causeKind = kFcrSelf ∧ t.dg.fix.rampsDone = false ∧
      ∀ n, let c := getFixCh m n
        c.configured = true → (getFixCh t.dg n).out = (if c.hasArmed then c.armed else c.safe) ∧
          (getFixCh t.dg n).holdVal = (getFixCh t.dg n).out ∧
          ((getFixCh t.dg n).staleHeld = true ↔ c.hasArmed = true ∧ c.staleMs ≠ 0 ∧ c.staleMs * 62500 < m.now - c.armTime)) ∧
    (x.engaged = false → exec .fixativeTick s = .next s) ∧
    (x.engaged = true → SMap.wf x.fr = true → ∃ t, exec .fixativeTick s = .next t ∧
      (let k := x.tick
       t.dg.fix.tick = k + 1 ∧
       let v (c : FixCh) : Int :=
         let h := if c.staleHeld then 0 else 10 * c.holdMs
         let r := 10 * c.rampMs
         if c.forced then c.safe else if k < h then c.holdVal
           else if k < h + r then c.holdVal + Int.tdiv (((c.safe : Int) - c.holdVal) * ((k : Int) - h)) r else c.safe
       (∀ n,
         let c := getFixCh m n
         (c.configured = false → getFixCh t.dg n = c) ∧
         (c.configured = true → getFixCh t.dg n = { c with out := (v c).toNat } ∧
           (n < 96 → (SMap.get m.net.tmr n).mode = 3 → (SMap.get t.dg.net.tmr n).curDuty = (v c).toNat))) ∧
       (t.dg.fix.rampsDone = true ↔ x.rampsDone = true ∨ ∀ n c, (n, c) ∈ x.ch → c.configured = true → v c = c.safe) ∧
       (∀ n,
         let f := SMap.get x.fr n
         let due := f.configured = true ∧ f.stopped = false ∧ 10 * f.offsetMs ≤ k ∧ f.periodMs ≠ 0 ∧
           (k - 10 * f.offsetMs) % (10 * f.periodMs) = 0
         (¬ due → SMap.get t.dg.fix.fr n = f) ∧
         (due → SMap.get t.dg.fix.fr n =
           { f with queued := some (buildFrame t.dg f (f.txcount + 1)), txerr := f.queued.isSome })) ∧
       { t.dg with fix := m.fix, net := m.net, srcs := m.srcs } = m)) ∧
    (∀ (q : Nat) (msg : List Byte) (code : Nat),
      let m' := (hwTake m 0x70 q).1
      let pid := producerOf m' q
      let first := leAt msg 32 1
      let entries := (List.range (leAt msg 16 2)).map fun i => (msg.drop (32 + 8 * i)).take 8
      hwPeek m 0x70 q = some (msg, code) →
      let takes (i : Instr) : Prop :=
        (x.engaged = true → exec i s = .next { s with dg := m' }) ∧
        (x.engaged = false →
          (msg.length ≠ 32 + 8 * leAt msg 16 2 ∨ (msg.drop 18).take 14 ≠ List.replicate 14 0 →
            exec i s = .next { s with dg := report m' 0x0CF kSsqArmInvalid 0x3FF q (0x400 + pid) }) ∧
          (msg.length = 32 + 8 * leAt msg 16 2 → (msg.drop 18).take 14 = List.replicate 14 0 →
            exec i s = .next { s with dg := entries.foldl (armOne q pid) m' }))
      (code ≠ 0 → exec (.armChannelValue q) s = .next { s with dg := m' }) ∧
      (code = 0 → first ≠ 2 → takes (.armChannelValue q)) ∧ (code = 0 → first = 2 → takes (.armTemplateBytes q))) ∧
    (∀ (q pid : Nat) (e : List Byte), e.length = 8 →
      (leAt e 0 1 = 1 →
        let n := leAt e 2 2
        let c := getFixCh m n
        let foreign := n < 208 ∧ c.configured = true ∧ c.owner ≠ pid
        let good := n < 208 ∧ c.configured = true ∧ c.owner = pid ∧ leAt e 1 1 = 0 ∧ leAt e 6 2 = 0 ∧
          (96 ≤ n → n < 144 → leAt e 4 2 < 4)
        (good → armOne q pid m e =
          updFixCh m n fun c => { c with armed := leAt e 4 2, armTime := m.now, hasArmed := true, never := false }) ∧
        (foreign → armOne q pid m e = report m 0x0CF kResourceConflict (n % 256) q (0x400 + pid)) ∧
        (¬ good → ¬ foreign → armOne q pid m e = report m 0x0CF kSsqArmInvalid (n % 256) q (0x400 + pid))) ∧
      (leAt e 0 1 = 2 →
        let n := leAt e 1 1
        let f := SMap.get x.fr n
        let off := leAt e 2 1
        let len := leAt e 3 1
        let fits := 1 ≤ len ∧ len ≤ 4 ∧ off ≤ 127 ∧ off + len ≤ f.len ∧ leAt e (4 + len) (4 - len) = 0 ∧
          ∀ i, i ∈ f.inserted → i < off ∨ off + len ≤ i
        (f.configured = true → f.owner = pid → fits → armOne q pid m e =
          updFixFr m n fun f => { f with template := overlay (fit f.len f.template) off ((e.drop 4).take len) }) ∧
        (f.configured = true → f.owner ≠ pid →
          armOne q pid m e = report m 0x0CF kResourceConflict (256 + n) q (0x400 + pid)) ∧
        (f.configured = false ∨ f.owner = pid ∧ ¬ fits →
          armOne q pid m e = report m 0x0CF kSsqArmInvalid (256 + n) q (0x400 + pid))) ∧
      (leAt e 0 1 ≠ 1 → leAt e 0 1 ≠ 2 →
        armOne q pid m e = report m 0x0CF kSsqArmInvalid (leAt e 2 2 % 256) q (0x400 + pid))) ∧
    (∀ slice, slice < 3 → fcrDark m = false → exec (.ssqSlice slice) s = .next { s with dg := reportOpen m 0x0CF kSsqSlice slice }) ∧
    (∀ n, n < 208 → fcrDark m = false →
      let m' := reportOpen m 0x0CF kSsqSelf n
      (x.engaged = false ∨ (getFixCh m n).configured = false → exec (.ssqSelf false n) s = .next { s with dg := m' }) ∧
      (x.engaged = true → (getFixCh m n).configured = true → ∃ t, exec (.ssqSelf false n) s = .next t ∧
        getFixCh t.dg n = { getFixCh m n with forced := true, out := (getFixCh m n).safe } ∧
        (n < 96 → (SMap.get m.net.tmr n).mode = 3 → (SMap.get t.dg.net.tmr n).curDuty = (getFixCh m n).safe) ∧
        (∀ k, k ≠ n → getFixCh t.dg k = getFixCh m k) ∧ { t.dg with fix := m.fix, net := m.net } = m')) ∧
    (∀ n, n < 256 → fcrDark m = false →
      let m' := reportOpen m 0x0CF kSsqSelf (n + 256)
      (x.engaged = false → exec (.ssqSelf true n) s = .next { s with dg := m' }) ∧
      (x.engaged = true →
        ∃ t, exec (.ssqSelf true n) s = .next t ∧
          t.dg.fix = (updFixFr m n fun f => { f with stopped := true, queued := none }).fix ∧
          (∀ k o, (SMap.get m.net.can k).offered = some o →
            (SMap.get t.dg.net.can k).offered = if o.fix = true ∧ o.n = n then none else some o) ∧
          { t.dg with fix := m.fix, net := m.net } = m')) ∧
    (x.engaged = true ∨ x.oscBad = true → exec .ssqOsc s = .next s) ∧
    (x.engaged = false → x.oscBad = false → fcrDark m = false → exec .ssqOsc s =
      .next { s with dg := reportOpen { m with fix := { x with oscBad := true } } 0x0CF kSsqOsc 0 })

/-- R483 to R493, Tables 09.8 and 09.9: a service with the right key in the window restarts the count and steps the key; a
wrong key, an early service and a count that reaches CLOSE are logged with their flag; a check-in is marked or reported by
the first kind that applies; at the end of a frame each unmarked checkpoint is reported; flags are cleared by their owner
only. A write follows the older stores of its context (R211), and an interrupt that is due comes first (R144). -/
def Obligations.Watchdogs : Prop :=
  ∀ (s : State) (c : CtxId) (n : Nat) (v : Word), n < 64 → c < 56 → isShadowCtx s.dg c = false →
    let m := drainAll s.dg c
    let runs : Prop := runnable s.dg c = true
    let due : Prop := irqDue (getCtx s.dg c) = true ∧ stepping s.dg c = false
    let held : Prop := drainWaits s.dg c = true ∨ entryWaits s.dg c 4 = true
    let acts : Prop := runs ∧ ¬ due ∧ ¬ held
    let later (i : Instr) (set : Dg) : Prop :=
      (¬ runs ∨ ¬ due ∧ held → exec i s = .next { s with dg := set }) ∧
      (runs → due → exec i s = .next { s with dg := takeIrq set c })
    let w := getWdg m n
    let r := w.run
    let cnt := r.count w m.now
    let opens := if r.first then 0 else w.openT
    let closes := if r.first then w.firstClose else w.closeT
    let pid := (getCtx m c).pid
    let tells (m : Dg) (kind cp : Nat) : Dg :=
      reportI m (w.suppressed && kind != kTsmUnknown) w.source kind cp n (0x400 + w.owner)
    let missing (m : Dg) : Dg := ((List.range 32).filter fun k => w.cpmask.getLsbD k && !r.seen.getLsbD k).foldl
      (fun m k => tells m kTsmMissing k) m
    let ends (m : Dg) (t : State) (srcs : SMap FaultSrc) : Prop :=
      t.dg.srcs = srcs ∧ { t.dg with wdg := m.wdg, srcs := m.srcs, ctx := m.ctx } = m ∧
      ∀ k, k ≠ n → getWdg t.dg k = getWdg m k
    let again (key : Nat) : WdgRun :=
      { base := 0, since := r.since.map fun _ => m.now, first := false, pos := 0, nextKey := key, seen := 0 }
    later (.wdgWnService c n v) s.dg ∧ later (.wdgWnCheckin c n v) s.dg ∧
    (∀ hw : BitVec 4, later (.wdgWnEvt c n v hw) (wdgSets n hw.toNat s.dg)) ∧
    (∀ v (hw : BitVec 4), w.configured = false ∨ w.owner ≠ pid → acts →
      let refused (i : Instr) (m : Dg) (addr : Nat) : Prop :=
        let m' := report m (0x06A + studioOf c) kAccessDenied (pid + 256) addr (0x400 + pid)
        exec i s = .next { s with dg := takeExn m' c ⟨4, 1, some addr, false, none⟩ }
      refused (.wdgWnService c n v) m (0x47000120 + 0x80 * n) ∧ refused (.wdgWnCheckin c n v) m (0x47000128 + 0x80 * n) ∧
      refused (.wdgWnEvt c n v hw) (wdgSets n hw.toNat m) (0x47000138 + 0x80 * n)) ∧
    (w.configured = true → w.suppressed = false →
      (wdgRuns s.dg n = false ∨ cnt < closes → exec (.wdgTimeout n false) s = .next s) ∧
      (wdgRuns s.dg n = true → closes ≤ cnt → ∃ t, exec (.wdgTimeout n false) s = .next t ∧ (getWdg t.dg n).run = again r.nextKey ∧
        bit (getWdg t.dg n).evt.flags 0 = true ∧ ends s.dg t (missing (tells s.dg kWdgTimeout 0)).srcs)) ∧
    (w.configured = true → w.owner = pid → acts →
      (wdgRuns m n = false → exec (.wdgWnService c n v) s = .next { s with dg := m } ∧
        exec (.wdgWnCheckin c n v) s = .next { s with dg := m }) ∧
      (∀ hw : BitVec 4, ∃ t, exec (.wdgWnEvt c n v hw) s = .next t ∧
        W1cOutcome 8 4 w.evt (getWdg t.dg n).evt v.toNat hw.toNat ∧ (getWdg t.dg n).run = w.run ∧ ends m t m.srcs) ∧
      (wdgRuns m n = true → w.suppressed = false →
        let key := v.toNat % 2 ^ 16
        (key = r.nextKey → opens ≤ cnt → cnt < closes → ∃ t, exec (.wdgWnService c n v) s = .next t ∧
          (getWdg t.dg n).run = again (if r.nextKey % 2 = 1 then (r.nextKey / 2) ^^^ 0xB400 else r.nextKey / 2) ∧
          (w.cpmask &&& ~~~r.seen = 0 → (getWdg t.dg n).evt = w.evt ∧ t.dg.ctx = m.ctx) ∧
          (w.cpmask &&& ~~~r.seen ≠ 0 → bit (getWdg t.dg n).evt.flags 3 = true) ∧ ends m t (missing m).srcs) ∧
        (key ≠ r.nextKey → cnt < closes → ∃ t, exec (.wdgWnService c n v) s = .next t ∧
          (getWdg t.dg n) = { w with evt := w.evt.set 2 } ∧ ends m t (tells m kWdgBadKey 0).srcs) ∧
        (key = r.nextKey → cnt < opens → cnt < closes → ∃ t, exec (.wdgWnService c n v) s = .next t ∧
          (getWdg t.dg n) = { w with evt := w.evt.set 1 } ∧ ends m t (tells m kWdgEarly 0).srcs) ∧
        (key = r.nextKey → closes ≤ cnt →
          exec (.wdgWnService c n v) s = exec (.wdgTimeout n false) { s with dg := m })) ∧
      (wdgRuns m n = true →
        let k := v.toNat % 32
        let marked : WdgRun :=
          { r with seen := r.seen ||| BitVec.ofNat 32 (2 ^ k),
                   pos := if w.seqMode then (w.order.findIdx fun y => y == k) + 1 else r.pos }
        let kind : Option Nat :=
          if w.cpmask.getLsbD k = false then some kTsmUnknown
          else if r.seen.getLsbD k = true then some kTsmDuplicate
          else if w.seqMode = true ∧ w.order[r.pos]? ≠ some k then some kTsmOrder
          else if (SMap.get w.late k).any (fun d => decide (d ≤ cnt)) = true then some kTsmLate else none
        ∃ t, exec (.wdgWnCheckin c n v) s = .next t ∧
          (getWdg t.dg n).run = (if w.cpmask.getLsbD k = false ∨ r.seen.getLsbD k = true then r else marked) ∧
          (kind = none → (getWdg t.dg n).evt = w.evt ∧ t.dg.ctx = m.ctx ∧ ends m t m.srcs) ∧
          (∀ y, kind = some y → (getWdg t.dg n).evt = w.evt.set 3 ∧ ends m t (tells m y k).srcs)))

/-! ### Power modes, supply, domains and clocks (spec/12; spec/08 R445 to R448) -/

/-- R57, R445 to R448, R507, R509, R588 to R591, R599, Tables 07.16, 12.3 and 12.4: mode requests are denied while ignition
is active and wait for Fixative, a start or a revert window; the key-off delay ends Drive; the shutdown test writes one
entry for each domain, repeats an INCOMPLETE one once and is abandoned by an ignition input; the parked module keeps its
retained banks until the park time ends, and wakes into a start, four banks of a quadrant at a time. -/
def Obligations.PowerModes : Prop :=
  ∀ (s : State) (pair tag : Nat) (c : Cmd),
    let m := s.dg
    let waits := m.boot.due ≠ none ∨ m.fix.engaged = true ∨ m.boot.under.st = .revertWindow
    let lit := unpowered m = false
    (TurnOf m pair tag 0x0081 c → c.payload.length = 1 →
      let mode := c.f 0 1
      (mode = 0 ∨ 3 < mode → Refuses (.powerModeRequest pair tag) s c stInvalid 32) ∧
      (1 ≤ mode → mode ≤ 3 → m.net.ign ≠ 0 → Refuses (.powerModeRequest pair tag) s c stDenied 3) ∧
      (m.net.ign = 0 → m.pwr.mode = .shutdownTest →
        (mode = 2 → Refuses (.powerModeRequest pair tag) s c stInvalid 0xFFFF) ∧
        (mode = 1 ∨ mode = 3 → Answers (.powerModeRequest pair tag) s c
          { m with pwr := { m.pwr with thenOff := decide (mode = 3) } } [])) ∧
      (1 ≤ mode → mode ≤ 3 → m.net.ign = 0 → m.pwr.mode ≠ .shutdownTest →
        ∃ m', GoesOn (.powerModeRequest pair tag) s c m' ∧ m'.pwr.request = some (decide (mode = 3)) ∧
          (waits → { m' with pwr := m.pwr } = m) ∧ (¬ waits → ∀ pid, (getPart m' pid).state = .stopped))) ∧
    (∀ t0, m.pwr.keyOff = some t0 → m.pwr.mode = .drive → lit → m.boot.due = none →
      let delay := modField m 24 4 10 * 62500000
      (m.now < t0 + delay → exec .keyOffDelayExpiry s = .next s) ∧
      (t0 + delay ≤ m.now → ∃ t, exec .keyOffDelayExpiry s = .next t ∧ t.dg.pwr.request = some false ∧
        t.dg.pwr.keyOff = none ∧ (¬ waits → ∀ pid, (getPart t.dg pid).state = .stopped))) ∧
    (m.fix.engaged = true →
      (m.fix.rampsDone = false ∨ m.fix.releasing = false ∧ m.pwr.request = none ∧ m.pwr.mode ≠ .shutdownTest →
        exec .safeReleaseExecute s = .next s) ∧
      (m.fix.rampsDone = true → m.fix.releasing = true ∨ m.pwr.request ≠ none ∨ m.pwr.mode = .shutdownTest →
        ∃ t, exec .safeReleaseExecute s = .next t ∧ t.dg.fix.engaged = false ∧ t.dg.fix.releasing = false ∧
          t.dg.fcr.chipSafe = false ∧ (∀ n, (SMap.get t.dg.fix.fr n).queued = none) ∧
          (∀ r, releaseCmd m = some r → m.pwr.request = none →
            exec .safeReleaseExecute s = .next { s with dg := finish (releaseSafe m) r stOk 0 [] }))) ∧
    (∀ off, m.pwr.request = some off →
      (waits → exec .shutdownTestStart s = .next s) ∧
      (¬ waits → m.pwr.mode = .drive → lit → ∃ t, exec .shutdownTestStart s = .next t ∧
        (∀ pid, (getPart t.dg pid).state = .stopped) ∧
        (journalSealed (leaveDrive m) = false → t.dg.pwr.mode = .drive) ∧
        (journalSealed (leaveDrive m) = true → t.dg.pwr.mode = .shutdownTest ∧ t.dg.pwr.thenOff = off ∧
          t.dg.boot.test = some ⟨List.range 60, []⟩ ∧
          ∀ q, q < 4 → (getQuad t.dg q).shutAll = true ∧ (getQuad t.dg q).shutDone = []))) ∧
    (∀ x dom tr, m.boot.test = some x → dom ∈ underTest x →
      let r := bistResult (SMap.get m.bistExp (3 + dom)) tr
      ∃ t, exec (.domainTestComplete dom tr) s = .next t ∧ SMap.get t.dg.boot.shutRec dom = ⟨r, tr⟩ ∧
        (∀ d, d ≠ dom → SMap.get t.dg.boot.shutRec d = SMap.get m.boot.shutRec d) ∧
        (r = .incomplete → dom ∉ x.repeated → t.dg.boot.test = some ⟨x.left, x.repeated ++ [dom]⟩ ∧ t.dg.stu = m.stu) ∧
        (r ≠ .incomplete ∨ dom ∈ x.repeated →
          t.dg.boot.test = some ⟨x.left.filter fun d => d != dom, x.repeated⟩ ∧
          (dom < 40 → r = .pass → (getCore m dom).role = .excluded → (getCore t.dg dom).role = .ready)) ∧
        { t.dg with boot := m.boot, stu := m.stu } = m) ∧
    (m.pwr.mode = .shutdownTest → lit →
      (m.net.ign = 0 → exec .shutdownTestKeyOn s = .next s) ∧
      (m.net.ign ≠ 0 → ∃ t, exec .shutdownTestKeyOn s = .next t ∧ t.dg.pwr.mode = .drive ∧ t.dg.boot.due = some 0 ∧
        t.dg.boot.test = none ∧ ∀ x, m.boot.test = some x → t.dg.boot.shutStatus = .abortedIgn ∧
          (∀ d, d ∈ underTest x → (SMap.get t.dg.boot.shutRec d).result = .incomplete) ∧
          (∀ d, d ∉ underTest x → SMap.get t.dg.boot.shutRec d = SMap.get m.boot.shutRec d)) ∧
      (∀ x, m.boot.test = some x →
        (x.left ≠ [] ∨ m.fix.engaged = true → exec .shutdownTestEnd s = .next s) ∧
        (x.left = [] → m.fix.engaged = false → ∃ t, exec .shutdownTestEnd s = .next t ∧
          t.dg.pwr.mode = (if m.pwr.thenOff then .off else .park) ∧ t.dg.boot.shutStatus = .complete ∧
          t.dg.fcr.parkErr = errN m ∧ t.dg.fcr.uncleared = m.fcr.uncleared ∧ t.dg.fcr.logNext = m.fcr.logNext ∧
          t.dg.mbx.out = [] ∧ (∀ k, getCtx t.dg k = Ctx.reset ∨ 56 < k) ∧
          (∀ qd b, qd < 4 → b < 32 →
            let keeps := m.pwr.thenOff = false ∧ (getBank m qd b).retSel = true
            (keeps → (getBank t.dg qd b).power = .retain) ∧ (¬ keeps → (getBank t.dg qd b).power = .off))))) ∧
    (m.pwr.mode = .park → m.pwr.loss = false →
      let park := modField m 28 4 43200 * 60 * 62500000
      (m.now < m.pwr.parkAt + park → exec .parkTimeExpiry s = .next s) ∧
      (m.pwr.parkAt + park ≤ m.now → ∃ t, exec .parkTimeExpiry s = .next t ∧ t.dg.pwr = { m.pwr with mode := .off } ∧
        ∀ qd b, qd < 4 → b < 32 → (getBank t.dg qd b).power = .off) ∧
      (∀ w : Wake,
        let armed : Bool := match w with
          | .can n => n < 16 && bit (modField m 36 2 0) n
          | .alarm => modField m 32 4 0 != 0 && m.pwr.parkAt + modField m 32 4 0 * 60 * 62500000 ≤ m.now
        (armed = false → exec (.parkWake w) s = .next s) ∧
        (armed = true → ∃ t, exec (.parkWake w) s = .next t ∧ t.dg.pwr.mode = .drive ∧ t.dg.boot.due = some 0 ∧
          t.dg.mem = m.mem ∧ ∀ qd, qd < 4 → (wakingBanks t.dg qd).length ≤ 4 ∧
            ∀ b, b < 32 → (getBank m qd b).power = .retain →
              (getBank t.dg qd b).power = .waking ∧ (getBank t.dg qd b).keeps = true ∨
              (getBank t.dg qd b).power = .retain ∧ (wakingBanks t.dg qd).length = 4))) ∧
    (∀ pin level, pin < 2 →
      (bit m.net.ign pin = level → exec (.ignitionChange pin level) s = .next s) ∧
      (bit m.net.ign pin ≠ level → ∃ t, exec (.ignitionChange pin level) s = .next t ∧
        (∀ i, i < 2 → bit t.dg.net.ign i = if i = pin then level else bit m.net.ign i) ∧
        (level = true → m.pwr.mode = .park ∨ m.pwr.mode = .off → m.pwr.loss = false →
          t.dg.pwr.mode = .drive ∧ t.dg.boot.due = some 0) ∧
        (level = true → m.pwr.mode = .drive ∨ m.pwr.mode = .shutdownTest → t.dg.pwr = { m.pwr with keyOff := none }) ∧
        (level = false → t.dg.net.ign = 0 → m.pwr.mode = .drive → t.dg.pwr = { m.pwr with keyOff := some m.now }) ∧
        (level = false → t.dg.net.ign ≠ 0 ∨ m.pwr.mode ≠ .drive → t.dg.pwr = m.pwr))) ∧
    (TurnOf m pair tag 0x0070 c → c.payload.length = 1 →
      let record (unit r : Nat) (t : Triple) : List Byte :=
        leBytes 2 unit ++ leBytes 1 r ++ leBytes 1 0 ++ leBytes 4 t.sig.toNat ++ leBytes 4 t.count.toNat ++
          leBytes 1 t.marker.toNat ++ leBytes 3 0
      let ans (n : Nat) (f : Nat → List Byte) : Prop :=
        Answers (.bistResultsGet pair tag) s c m (leBytes 8 n ++ (List.range n).flatMap f)
      (c.f 0 1 = 0 → ans 40 fun i => record i (testCode (getCore m i).result) (coreTriple (getCore m i))) ∧
      (c.f 0 1 = 1 → ans 132 fun i =>
        let p := SMap.get (getQuad m (i / 33)).phys (i % 33)
        record i p.test p.triple) ∧
      (c.f 0 1 = 2 → ans 61 fun i =>
        record i (testCode (SMap.get m.boot.shutRec i).result) (SMap.get m.boot.shutRec i).triple) ∧
      (2 < c.f 0 1 → Refuses (.bistResultsGet pair tag) s c stInvalid 32)) ∧
    (TurnOf m pair tag 0x0071 c → c.payload.length = 1 →
      (40 ≤ c.f 0 1 → Refuses (.coreBistRun pair tag) s c stInvalid 32) ∧
      (c.f 0 1 < 40 → (getCore m (c.f 0 1)).role ≠ .excluded → Refuses (.coreBistRun pair tag) s c stBusy 5) ∧
      (c.f 0 1 < 40 → (getCore m (c.f 0 1)).role = .excluded → GoesOn (.coreBistRun pair tag) s c m)) ∧
    (TurnOf m pair tag 0x0080 c → c.payload = [] → ∃ m' bs, Answers (.powerStatus pair tag) s c m' bs ∧ bs.length = 18 ∧
      leAt bs 0 1 = pmodeCode m.pwr.mode ∧ leAt bs 1 1 = m.net.ign % 256 ∧ leAt bs 4 4 = m.pwr.inA.mv % 2 ^ 32 ∧
      leAt bs 8 4 = m.pwr.inB.mv % 2 ^ 32 ∧ leAt bs 16 2 = ofInt 16 m.pwr.tj ∧
      { m' with freeCount := m.freeCount } = m) ∧
    (TurnOf m pair tag 0x0082 c → c.payload = [] → Answers (.clockStatus pair tag) s c m
      (leBytes 1 m.pwr.lock ++ leBytes 1 m.pwr.xtal ++ leBytes 1 (m.net.gptpSync % 2) ++
       leBytes 1 (if m.sec.pps then 1 else 0) ++ leBytes 4 0 ++ leBytes 8 m.now))

/-- R463, R480, R533, R580 to R586, R593, R594, R596, R598, R603, R604, Tables 12.12 and 12.13: the supply, clock, thermal
and domain events change the state of the power controller and report under their sources; a failed domain stays off and
what depends on it fails; the supply-loss signal stops everything but SEC and the always-on domain; a condition that ends
is LIVE no longer. -/
def Obligations.SupplyClocksDomains : Prop :=
  ∀ (s : State),
    let m := s.dg
    let p := m.pwr
    let stays (i : Instr) : Prop := exec i s = .next s
    let becomes (i : Instr) (p : Pwr) : Prop := exec i s = .next { s with dg := { m with pwr := p } }
    let reports (i : Instr) (p : Pwr) (src kind : Nat) : Prop :=
      exec i s = .next { s with dg := reportOpen { m with pwr := p } src kind 0 }
    (∀ mv, (mv < 6000 ∨ 7000 ≤ mv ∨ p.supplyLow = true ∨ p.loss = true → stays (.supplyLow mv)) ∧
      (6000 ≤ mv → mv < 7000 → p.supplyLow = false → p.loss = false → ∃ t, exec (.supplyLow mv) s = .next t ∧
        t.dg.pwr.supplyLow = true ∧ t.dg.srcs = (reportOpen m 0x0F6 kSupplyLow 0).srcs ∧
        { t.dg with pwr := p, srcs := m.srcs } = m)) ∧
    (∀ input mv, input < 2 →
      let x := getInput m input
      (60000 < mv → ∃ t, exec (.supplyHigh input mv) s = .next t ∧
        getInput t.dg input = ⟨x.ok && decide (mv ≤ 65000), mv, x.opened || decide (65000 < mv)⟩ ∧
        getInput t.dg (1 - input) = getInput m (1 - input) ∧
        t.dg.srcs = (if 60000 < x.mv then m.srcs else (reportOpen m 0x0F6 kSupplyHigh input).srcs)) ∧
      (mv < 6000 → x.ok = true → (getInput m (1 - input)).ok = true → ∃ t, exec (.inputLost input mv) s = .next t ∧
        getInput t.dg input = ⟨false, mv, x.opened⟩ ∧ getInput t.dg (1 - input) = getInput m (1 - input) ∧
        t.dg.srcs = (reportOpen m 0x0F6 kInputLost input).srcs) ∧
      (7000 ≤ mv → mv ≤ 60000 → ∃ t, exec (.inputRestored input mv) s = .next t ∧
        getInput t.dg input = ⟨true, mv, false⟩ ∧ t.dg.pwr.supplyLow = false ∧
        getInput t.dg (1 - input) = getInput m (1 - input) ∧
        (∀ n e, (n, e) ∈ t.dg.fcr.log → e.live = true → e.msg.src = 0x0F6 → e.msg.addr = input →
          e.msg.kind ≠ kSupplyHigh ∧ e.msg.kind ≠ kInputLost) ∧ { t.dg with pwr := p, fcr := m.fcr, srcs := m.srcs } = m)) ∧
    (p.loss = true → stays .supplyLoss) ∧
    (p.loss = false → ∃ t, exec .supplyLoss s = .next t ∧ t.dg.pwr.loss = true ∧ t.dg.pwr.mode = .off ∧
      t.dg.pwr.request = none ∧ t.dg.sec.journalReady = false ∧ t.dg.mbx.out = [] ∧ t.dg.fcr.uncleared = m.fcr.uncleared ∧
      (∀ k, getCtx t.dg k = Ctx.reset ∨ 56 < k) ∧ (∀ a, 0x20000000 ≤ a → a < 0x24000000 → peek t.dg a = 0)) ∧
    (p.loss = false → stays .holdupEnd ∧ stays .supplyReturn) ∧
    (p.loss = true → ∃ t, exec .holdupEnd s = .next t ∧ t.dg.pwr.aonLost = true ∧ t.dg.sec.rtcValid = false ∧
      t.dg.sec.sealing = none ∧ t.dg.fcr.log = [] ∧ t.dg.fcr.overwritten = 0 ∧ t.dg.fcr.uncleared = [] ∧ t.dg.srcs = [] ∧
      errN t.dg = false ∧ t.dg.mem = m.mem) ∧
    (p.loss = true → m.sec.sealing ≠ none → stays .supplyReturn) ∧
    (p.loss = true → m.sec.sealing = none → ∃ t, exec .supplyReturn s = .next t ∧ t.dg.pwr.loss = false ∧
      t.dg.pwr.mode = .drive ∧ t.dg.boot.due = some 0 ∧ t.dg.boot.t0 = m.now) ∧
    (unpowered m = false →
      (p.holdupLow = false → m.boot.t0 + 62500000 ≤ m.now →
        reports .holdupLow { p with holdupLow := true } 0x0F9 kHoldupLow) ∧
      (p.holdupLow = true ∨ m.now < m.boot.t0 + 62500000 → stays .holdupLow) ∧
      (∀ tj : Int, (tj ≤ 1250 → stays (.thermalWarn tj)) ∧ (tj ≤ 1400 → stays (.thermalCrit tj)) ∧
        (1250 < tj → (p.thermWarn = false → reports (.thermalWarn tj) { p with tj := tj, thermWarn := true } 0x0FA kThermalWarn) ∧
          (p.thermWarn = true → becomes (.thermalWarn tj) { p with tj := tj })) ∧
        (1400 < tj → (p.thermCrit = false → reports (.thermalCrit tj) { p with tj := tj, thermCrit := true } 0x0FA kThermalCrit) ∧
          (p.thermCrit = true → becomes (.thermalCrit tj) { p with tj := tj }))) ∧
      (p.ext3v3 = true → reports .ext3v3Fault { p with ext3v3 := false } 0x0FB kExt3v3Fault) ∧
      (p.ext3v3 = false → stays .ext3v3Fault ∧ stays (.ext3v3Retry false) ∧ ∃ t, exec (.ext3v3Retry true) s = .next t ∧
        t.dg.pwr = { p with ext3v3 := true } ∧ { t.dg with pwr := p, fcr := m.fcr, srcs := m.srcs } = m) ∧
      (∀ x, x < 3 →
        (bit p.xtalFail x = true → stays (.xtalFail x)) ∧
        (bit p.xtalFail x = false → ∃ t, exec (.xtalFail x) s = .next t ∧ bit t.dg.pwr.xtalFail x = true ∧
          bit t.dg.pwr.xtal x = false ∧
          (x = 0 → bit t.dg.pwr.lock 0 = false ∧ bit t.dg.pwr.lock 1 = false ∧ t.dg.sec = m.sec) ∧
          (x = 1 → bit t.dg.pwr.lock 2 = false ∧ bit t.dg.pwr.lock 3 = false ∧ t.dg.sec = m.sec) ∧
          (x = 2 → t.dg.sec = { m.sec with rtcValid := false } ∧ t.dg.pwr.lock = p.lock ∧
            t.dg.srcs = (reportOpen m 0x0F4 kXtalFail x).srcs) ∧
          { t.dg with pwr := p, srcs := m.srcs, sec := m.sec } = m)) ∧
      (∀ n, n < 61 →
        let x := SMap.get p.dom n
        let fails (i : Instr) (kind src : Nat) : Prop :=
          (x.on = false → stays i) ∧
          (x.on = true → ∃ t, exec i s = .next t ∧ SMap.get t.dg.pwr.dom n = ⟨false, false, true⟩ ∧
            (∀ k, k ≠ n → SMap.get t.dg.pwr.dom k = SMap.get p.dom k) ∧
            ((SMap.get m.srcs (if n < 40 then n else src)).fifo.length < 8 → ∃ y,
              y ∈ (SMap.get t.dg.srcs (if n < 40 then n else src)).fifo ∧ y.kind = kind ∧ (40 ≤ n → y.detail = n)) ∧
            (n < 40 → (getCore m n).role = .ready → (getStudio m (n / 10)).reseat = none →
              (getCore t.dg n).role = .excluded) ∧
            (n < 40 → (getCore m n).role = .qm → (getCore t.dg n).role = .excluded ∧
              (getPart t.dg (getCtx m (16 + n)).pid).state = .lost) ∧
            (40 ≤ n ∧ n < 44 ∨ n = 51 → t.dg = updDom (report m src kind n 0 src) n fun _ => ⟨false, false, true⟩) ∧
            (44 ≤ n → n < 48 → (∀ b, b < 32 → (getBank t.dg (n - 44) b).power = .off) ∧
              ∀ a, 0x20000000 + (n - 44) * 0x1000000 ≤ a → a < 0x20000000 + (n - 43) * 0x1000000 → peek t.dg a = 0) ∧
            (n = 50 → t.dg.drc.up = false) ∧ (n = 58 → t.dg.sec.katFail = 0x7F ∧ t.dg.sec.trngOk = false) ∧
            (53 ≤ n → n ≤ 56 → ∀ k, (n = 53 ∨ (n = 54 ∧ k < 4) ∨ (n = 55 ∧ 4 ≤ k ∧ k < 8) ∨ (n = 56 ∧ 10 ≤ k ∧ k < 12)) →
              (getEth t.dg k).st ≠ .up ∨ 14 ≤ k))
        fails (.railFault n) kRailFault 0x0F7 ∧ fails (.domainSwitchFault n) kDomainSwitchFault 0x0F8) ∧
      (∀ src kind,
        (isCond kind = false ∨ condSource src kind = false ∨ causeHeld m src kind = true → stays (.conditionEnd src kind)) ∧
        (isCond kind = true → condSource src kind = true → causeHeld m src kind = false →
          ∃ t, exec (.conditionEnd src kind) s = .next t ∧ t.dg = endCond (causeEnds m src kind) src kind ∧
            (∀ i e, (i, e) ∈ t.dg.fcr.log → e.msg.src = src → e.msg.kind = kind → e.live = false) ∧
            (∀ i, let e := SMap.get m.fcr.log i
              e.msg.src = src → e.msg.kind = kind → e.live = true →
              (SMap.get t.dg.fcr.log i).transient = !e.readLive)))) ∧
    (∀ n,
      let x := SMap.get p.dom n
      (x.held = false → stays (.domainRelease n)) ∧
      (x.held = true → becomes (.domainRelease n) { p with dom := SMap.set p.dom n { x with held := false } })) ∧
    (∀ n, n < 4 →
      let twin := (n + 2) % 4
      let p1 : Pwr := { p with lock := setBits p.lock n 1 0 }
      let m1 := reportOpen { m with pwr := p1 } (0x0F0 + n) kPllUnlock 0
      (bit p.lock n = false → stays (.pllUnlock n)) ∧
      (bit p.lock n = true → bit p.lock twin = true → bit p.failover twin = false → exec (.pllUnlock n) s = .next
        { s with dg := reportOpen { m1 with pwr := { p1 with failover := setBits p1.failover n 1 1 } } (0x0F0 + n) kPllFailover 0 }) ∧
      (bit p.lock n = true → bit p.lock twin = false ∨ bit p.failover twin = true →
        exec (.pllUnlock n) s = .next { s with dg := m1 }))

/-! ### Security and the journal (spec/10) -/

/-- R524 to R536, Tables 07.15, 10.7 to 10.11: the record counter is read by vote, with its copies repaired; a record appended takes the next counter value, the times, its card and
origin and the head of the chain, which steps over it; reads return held records; a batch is closed on command or after an
hour and its seal is stored with both signatures, or its records stay unsealed; an export ends in a seal and moves the export mark; the audit
reports a break once; the clock is never set behind the last record, and holds an inserted leap second. -/
def Obligations.JournalCommands : Prop :=
  ∀ (s : State) (pair tag : Nat) (c : Cmd),
    let m := s.dg
    let x := m.sec
    let m3 := ctrSettle m 3
    let next := ctrValue m3 3
    let refuses3 (i : Instr) (st d : Nat) : Prop := exec i s = .next { s with dg := finish m3 c st d [] }
    let agrees (n : Nat) : Prop := ∀ k, k < 3 → ctrCopy m 3 k = ⟨n, false⟩
    (TurnOf m pair tag 0x0060 c → c.payload.length = 72 → c.f 0 1 = 1 → c.f 1 7 = 0 →
      (∀ off, bodyFault m c.payload = some off → Refuses (.journalAppend pair tag) s c stInvalid (32 + off)) ∧
      (∀ n, bodyFault m c.payload = none → agrees n → 1 ≤ n → n < 1048576 → n + 1 < x.unsealed + 256 → domOn m 51 = true →
        let slot := c.f 33 1
        ∃ m', Answers (.journalAppend pair tag) s c m' (leBytes 8 n) ∧ (∀ k, k < 3 → ctrCopy m' 3 k = ⟨n + 1, false⟩) ∧
          recBytes m' n = leBytes 8 n ++ leBytes 8 (utcMs m) ++ leBytes 8 (asNs m) ++ leBytes 1 (c.f 32 1) ++ leBytes 1 slot ++
            leBytes 2 (cardRef m slot) ++ leBytes 1 (if 1 ≤ c.ep ∧ c.ep ≤ 0x34 then c.ep else 0) ++ leBytes 1 (timeq m) ++
            (c.payload.drop 38).take 22 ++ leBytes 12 x.hHead ∧
          m'.sec.hHead = chainStep x.hHead (recBytes m' n) ∧
          (∀ a, a < 0x71000000 + 64 * (n - 1) ∨ 0x71000000 + 64 * n ≤ a →
            (∀ k, k < 3 → a < copyAddr 3 k ∨ copyAddr 3 k + 128 ≤ a) → peek m' a = peek m a))) ∧
    (TurnOf m pair tag 0x0060 c → 8 ≤ c.payload.length →
      (c.f 0 1 = 0 ∨ 63 < c.f 0 1 → Refuses (.journalAppend pair tag) s c stInvalid 32) ∧
      (1 ≤ c.f 0 1 → c.f 0 1 ≤ 63 → c.f 1 7 = 0 → c.payload.length ≠ 8 + 64 * c.f 0 1 →
        Refuses (.journalAppend pair tag) s c stInvalid 24)) ∧
    (TurnOf m pair tag 0x0061 c → c.payload.length = 9 →
      (c.f 8 1 = 0 ∨ 63 < c.f 8 1 → refuses3 (.journalRead pair tag) stInvalid 40) ∧
      (1 ≤ c.f 8 1 → c.f 8 1 ≤ 63 → m.errs = [] → domOn m 51 = true →
        let l := (heldFrom m3 (c.f 0 8) (if c.role m = 6 then some (sessionCardRef m c.session) else none)).take (c.f 8 1)
        Answers (.journalRead pair tag) s c m3 (leBytes 8 l.length ++ l.flatMap (recBytes m3)))) ∧
    (TurnOf m pair tag 0x0064 c → c.payload = [] →
      (lastSealed m = next - 1 → Answers (.journalSealNow pair tag) s c m3 (leBytes 8 (next - 1))) ∧
      (lastSealed m ≠ next - 1 → ∃ m', GoesOn (.journalSealNow pair tag) s c m' ∧
        m'.sec.sealCmds = x.sealCmds ++ [(pair, tag, next - 1)] ∧
        (x.sealing = none → 1 ≤ next → x.unsealed < next →
          m'.sec.sealing = some ⟨x.unsealed, next - 1, 0, x.unsealedAt⟩ ∧ m'.sec.unsealed = next))) ∧
    (x.unsealed < next → x.unsealedAt + 3600 * 62500000 ≤ m.now → x.sealing = none → exec .journalSealTimer s =
      .next { s with dg := updSec m3 fun y => { y with sealing := some ⟨x.unsealed, next - 1, 0, x.unsealedAt⟩, unsealed := next } }) ∧
    (next ≤ x.unsealed ∨ m.now < x.unsealedAt + 3600 * 62500000 → exec .journalSealTimer s = .next { s with dg := m3 }) ∧
    (∀ b, x.sealing = some b → x.sealNext = none → exeshDown m = false →
      (signersUp m = true → ∃ t made, exec (.batchSealComplete true) s = .next t ∧ t.dg.sec.sealing = none ∧
        t.dg.sec.unsealed = x.unsealed ∧ t.dg.sec.seals = (made :: x.seals).take 256 ∧ leAt made 8 1 = 1 ∧
        leAt made 12 4 = (b.last + 1 - b.first) % 2 ^ 32 ∧ leAt made 16 8 = b.first % 2 ^ 64 ∧ leAt made 24 8 = b.last % 2 ^ 64 ∧
        leAt made 80 48 = chainTo m3 b.last % 2 ^ 384 ∧ leAt made 176 8 = utcMs m ∧
        made.drop 256 = idSigs "DG9-JOURNAL" (made.take 256) (Config.freeValue m3.freeCount) (Config.freeValue (m3.freeCount + 1)) ∧
        t.dg.sec.sealCmds = (x.sealCmds.filter fun e => !(decide (e.2.2 ≤ b.last))) ∧
        (∀ e, e ∈ x.sealCmds → e.2.2 ≤ b.last → findCmd t.dg e.1 e.2.1 = none)) ∧
      (∀ ok, ok = false ∨ signersUp m = false → ∃ t, exec (.batchSealComplete ok) s = .next t ∧ t.dg.sec.sealing = none ∧
        t.dg.sec.unsealed = b.first ∧
        t.dg.sec.seals = x.seals ∧ (∀ e, e ∈ x.sealCmds → e.2.2 ≤ b.last → findCmd t.dg e.1 e.2.1 = none) ∧
        (x.sealCmds = [] → t.dg.srcs = (reportOpen m 0x0D6 kSealFail 0).srcs))) ∧
    (TurnOf m pair tag 0x0062 c → c.payload.length = 16 →
      let lo := c.f 0 8
      let hi := c.f 8 8
      let bad := hi < lo ∨ lo < oldestHeld next ∨ next ≤ hi
      (bad → refuses3 (.journalExport pair tag) stInvalid 32) ∧
      (¬ bad → exportRuns m = true → refuses3 (.journalExport pair tag) stBusy 2) ∧
      (¬ bad → exportRuns m = false → c.role m ≠ 6 → GoesOn (.journalExport pair tag) s c (updSec m3 fun y =>
        { y with exporting := some ⟨(pair, tag), hi, 2, c.role m, 0, hi + 1 - lo, lo, hi, chainTo m3 (lo - 1), chainTo m3 hi⟩ })) ∧
      (¬ bad → exportRuns m = false → c.role m = 6 →
        ∃ m' e, GoesOn (.journalExport pair tag) s c m' ∧ m'.sec.exporting = some e ∧ e.cmd = (pair, tag) ∧ e.kind = 3 ∧
          e.ref = sessionCardRef m c.session ∧
          e.count = ((heldFrom m3 lo (some e.ref)).filter fun n => decide (n ≤ hi)).length)) ∧
    (∀ e, x.exporting = some e →
      (exportRuns m = false → exec .journalExportComplete s = .next { s with dg := updSec m fun y => { y with exporting := none } }) ∧
      (∀ d, findCmd m e.cmd.1 e.cmd.2 = some d → signersUp m = false → exec .journalExportComplete s = .next { s with
        dg := finish (reportOpen (updSec m fun y => { y with exporting := none }) 0x0D6 kSealFail 0) d stFailed 5 [] }) ∧
      (∀ d, findCmd m e.cmd.1 e.cmd.2 = some d → signersUp m = true →
        ∃ m' bs r1 r2, exec .journalExportComplete s = .next { s with dg := finish m' d stOk 0 bs } ∧
        m'.sec.exporting = none ∧ leAt bs 8 1 = e.kind % 256 ∧ leAt bs 16 8 = e.first % 2 ^ 64 ∧ leAt bs 24 8 = e.last % 2 ^ 64 ∧
        leAt bs 80 48 = e.hLast % 2 ^ 384 ∧ bs.drop 256 = idSigs "DG9-JOURNAL" (bs.take 256) r1 r2 ∧
        m'.sec.exportMark = if e.role = 2 ∨ e.role = 5 then max x.exportMark e.upTo else x.exportMark)) ∧
    (TurnOf m pair tag 0x0063 c → c.payload = [] → Answers (.journalStatus pair tag) s c m3
      (leBytes 8 next ++ leBytes 8 (if next ≤ 1048576 then 1 else next - 1048576) ++ leBytes 4 (next - 1 - lastSealed m) ++
       leBytes 4 0 ++ leBytes 8 (leAt (x.seals.headD []) 176 8))) ∧
    (x.journalReady = true → x.chainBreak = none →
      (auditFault m3 = none → exec .chainAudit s = .next { s with dg := m3 }) ∧
      (∀ n, auditFault m3 = some n → exec .chainAudit s = .next
        { s with dg := updSec (reportOpen m3 0x0D6 kJournalChainBreak n) fun y => { y with chainBreak := some n } })) ∧
    (x.journalReady = false ∨ x.chainBreak ≠ none → exec .chainAudit s = .next s) ∧
    (TurnOf m pair tag 0x0083 c → c.payload.length = 12 →
      let ms := c.f 0 8 * 1000
      let bad := ms < rtcFloor m ∨ c.role m = 4 ∧ x.rtcValid = true ∧ (ms + 1200000 < utcMs m ∨ utcMs m + 1200000 < ms)
      (bad → exec (.rtcSet pair tag) s =
        .next { s with dg := finish (reportOpen m 0x0D7 kRollbackRefused 0) c stInvalid 32 [] }) ∧
      (¬ bad → ∃ m', Answers (.rtcSet pair tag) s c m' [] ∧ utcMs m' = ms % 2 ^ 48 ∧ m'.sec.rtcValid = true ∧
        ∀ n, agrees n → ctrValue m' 3 = (n + 1) % 2 ^ 64)) ∧
    (let left := (m.now - x.rtcAt) * 2 / 125
     let day := x.rtcUs / dayUs
     let mid := (day + 1) * dayUs
     (x.rtcUs + left < mid → rtcUsNow m = x.rtcUs + left) ∧
     (mid ≤ x.rtcUs + left → x.rtcUs + left < mid + dayUs → rtcUsNow m =
       if Config.leapSecond day then (if x.rtcUs + left < mid + 1000000 then mid - 1 else x.rtcUs + left - 1000000)
       else x.rtcUs + left))

/-- R519 to R522, R539 to R543, Tables 10.3, 10.4 and 10.15: an inline engine job is answered in the response queue with
the result of its operation, with REJECTED, INVALID or FAULT; a void job is released; jobs of Exesh are served first; a card slot follows its card, which is
activated before its first exchange, and an
authentication ends in a proved session with its record, or in AUTH_FAILED with its report; a card command passes to the
authenticated card for its partition only, and the answer comes back under the network header of Table 11.2, or is dropped
(that R551 and R552 hold for APDU messages is the model's reading, notes/assumptions/81.md). -/
def Obligations.EnginesAndCards : Prop :=
  ∀ (s : State),
    let m := s.dg
    (∀ (q : Nat) (r : CfgRec) (msg : List Byte), secQueue m q = some r → secTurn m = some q →
      m.sec.keysReady = true → exeshJobs m = false → hwPeek m 0x5B q = some (msg, 0) → 0 < (getQ m (r.f 8 4)).free →
      ∀ (mismatch : Bool),
      let m1 := secTake m q
      let op := leAt msg 18 1
      let kl := leAt msg 28 4
      let il := leAt msg 44 4
      let al := leAt msg 60 4
      let key := (msg.drop 88).take kl
      let inp := (msg.drop (88 + kl)).take il
      let aux := (msg.drop (88 + kl + il)).take al
      let out := leAt msg 76 4
      let inline := leAt msg 24 1 = 0 ∧ leAt msg 40 1 = 0 ∧ leAt msg 56 1 = 0 ∧ leAt msg 72 1 = 0 ∧
        msg.length = 88 + kl + il + al
      let ends (i : Instr) (m : Dg) (status : Nat) (bs : List Byte) : Prop :=
        let p := hwPublish m (r.f 8 4) 0x5B (leBytes 2 (leAt msg 16 2) ++ leBytes 1 status ++ leBytes 1 0 ++ leBytes 4 bs.length ++ bs)
        exec i s = .next { s with dg := if p.2 then raisePid p.1 (r.f 0 1) (r.f 12 2) else p.1 }
      let rnd := Config.freeValue m1.freeCount
      let rbs := leBytes 32 rnd
      let table : List ((Nat → Bool → Instr) × Nat × Nat × Bool × Option (List Byte)) :=
        [(.sha384, 0x01, 48, kl == 0 && al == 0, some (sha384Of inp)),
         (.sha3384, 0x02, 48, kl == 0 && al == 0, some (sha3Of inp)),
         (.hmacSha384, 0x03, 48, al == 0, some (hmacOf key inp)),
         (.aes256GcmEncrypt, 0x10, il + 16, kl == 32 && decide (12 ≤ al), some (gcmEncrypt key (aux.take 12) (aux.drop 12) inp)),
         (.aes256GcmDecrypt, 0x11, il - 16, kl == 32 && decide (12 ≤ al) && decide (16 ≤ il),
           gcmDecrypt key (aux.take 12) (aux.drop 12) inp),
         (.aes256Ctr, 0x12, il, kl == 32 && al == 16, some (ctrCrypt key aux inp)),
         (.aes256Cmac, 0x13, 16, kl == 32 && al == 0, some (cmacOf key inp)),
         (.ecdsaP384Verify, 0x20, 0, kl == 97 && al == 96,
           if ecdsaVerify key inp aux then some [] else none),
         (.mlDsa65Verify, 0x21, 0, kl == 1952 && al == 3309,
           if dsaVerify key "" inp aux then some [] else none),
         (.ecdsaP384Sign, 0x22, 96, kl == 48 && al == 0, some (ecdsaSign (ofBe key) inp (nonces rnd))),
         (.mlDsa65Sign, 0x23, 3309, kl == 32 && al == 0, some (dsaSign key "" inp rbs)),
         (.mlKem1024Encapsulate, 0x24, 1600, kl == 1568 && il == 0 && al == 0, some (kemEncapsulate key rbs)),
         (.mlKem1024Decapsulate, 0x25, 32, kl == 3168 && il == 1568 && al == 0, some (kemDecapsulate key inp)),
         (.mlKem1024KeyGeneration, 0x26, 4736, kl == 0 && il == 0 && al == 0, some (kemKeyGen rbs (leBytes 32 (rnd / 2 ^ 256)))),
         (.randomBytes, 0x30, out, kl == 0 && il == 0 && al == 0 && decide (1 ≤ out) && decide (out ≤ 4096),
           some (leBytes out rnd))]
      ∀ (mk : Nat → Bool → Instr) (o n : Nat) (lens : Bool) (res : Option (List Byte)), (mk, o, n, lens, res) ∈ table →
        op = o → inline →
        let fits := lens = true ∧ (o ≠ 0x30 → out = 0) ∧ 24 + n ≤ (getQ m (r.f 8 4)).slotSize
        let dead := bit m.sec.katFail (engineOf o) = true ∨ needsRandom o = true ∧ m.sec.trngOk = false
        let m2 : Dg := if needsRandom o then { m1 with freeCount := m1.freeCount + 1 } else m1
        (¬ fits → ends (mk q mismatch) m1 2 []) ∧
        (fits → dead → ends (mk q mismatch) m1 4 []) ∧
        (fits → ¬ dead → mismatch = true →
          ends (mk q mismatch) (reportOpen m1 (engineSrc o) kEngineMismatch 0) 4 []) ∧
        (∀ bs, fits → ¬ dead → mismatch = false → res = some bs → ends (mk q mismatch) m2 0 bs) ∧
        (fits → ¬ dead → mismatch = false → res = none → ends (mk q mismatch) m2 1 [])) ∧
    (∀ q r msg code mismatch, secQueue m q = some r → secTurn m = some q → m.sec.keysReady = true → exeshJobs m = false →
      hwPeek m 0x5B q = some (msg, code) → code ≠ 0 → exec (.sha384 q mismatch) s = .next { s with dg := secTake m q }) ∧
    (∀ q mismatch, secTurn m ≠ some q ∨ m.sec.keysReady = false ∨ exeshJobs m = true → exec (.sha384 q mismatch) s = .next s ∧
      exec (.aes256GcmEncrypt q mismatch) s = .next s ∧ exec (.randomBytes q mismatch) s = .next s) ∧
    (m.sec.trngOk = false → exec .trngHealth s = .next s) ∧
    (m.sec.trngOk = true → exec .trngHealth s =
      .next { s with dg := reportOpen (updSec m fun y => { y with trngOk := false }) 0x0D1 kTrngHealth 0 }) ∧
    (∀ n, n = 1 ∨ n = 2 → hasLand m 8 n = true →
      let k := getCard m n
      let gone (i : Instr) (st : CardSt) : Prop := ∃ t, exec i s = .next t ∧ (getCard t.dg n).st = st ∧
        (getCard t.dg n).ref = 0 ∧ (getCard t.dg n).vccA = false ∧ (getCard t.dg n).vccB = false ∧
        (getCard t.dg n).clkKHz = 0 ∧ (∀ z, z ∈ t.dg.mbx.sessions → ¬ (z.role = 6 ∧ z.card = n)) ∧
        ∀ j, j ≠ n → getCard t.dg j = getCard m j
      let inserted (cls proto : Bool) : CardSlot := { (k.off .present) with answersB := cls, answersT1 := proto }
      (∀ cls proto, k.st = .empty → exec (.cardInsertion n cls proto) s = .next
        { s with dg := updCard m n fun _ => inserted cls proto }) ∧
      (∀ cls proto, k.st ≠ .empty → exec (.cardInsertion n cls proto) s = .next s) ∧
      (k.st = .empty → exec (.cardRemoval n) s = .next s ∧ exec (.cardSupplyFault n) s = .next s) ∧
      (k.st ≠ .empty → gone (.cardRemoval n) .empty) ∧
      (k.st ≠ .empty → k.st ≠ .fault → gone (.cardSupplyFault n) .fault)) ∧
    (∀ pair tag c ss, TurnOf m pair tag 0x0002 c → sessionOf m c.session = some ss → ss.role = 6 → ss.auth = false →
      c.f 0 1 = 4 → c.f 1 1 < 4 → c.f 2 2 = 0 → proofLenOk 4 (c.f 4 4) = true → c.payload.length = 8 + c.f 4 4 →
      let k := getCard m ss.card
      ((k.authCmd ≠ none → Refuses (.sessionAuth pair tag) s c stBusy 2) ∧
       (k.authCmd = none → k.st ≠ .present → GoesOn (.sessionAuth pair tag) s c
         (updCard m ss.card fun k => { k with authCmd := some (pair, tag) })) ∧
       (k.authCmd = none → k.st = .present → ∃ m' fi di, GoesOn (.sessionAuth pair tag) s c m' ∧
         16 * di * cardClock m ss.card ≤ 10000 * fi ∧
         getCard m' ss.card =
           { k with st := .active, clsB := k.answersB, protoT1 := k.answersT1, vccA := !k.answersB, vccB := k.answersB
                    clkKHz := cardClock m ss.card, fi := fi, di := di, authCmd := some (pair, tag) } ∧
         ∀ j, j ≠ ss.card → getCard m' j = getCard m j))) ∧
    (∀ n pair tag c ss reply, (getCard m n).authCmd = some (pair, tag) → findCmd m pair tag = some c →
      sessionOf m c.session = some ss →
      (∀ d, cardVerdict m ss n reply = .error d → ∃ t, exec (.cardAuthenticationComplete n reply) s = .next t ∧
        (getCard t.dg n).authCmd = none ∧ findCmd t.dg pair tag = none ∧ sessionOf t.dg ss.handle = none) ∧
      (∀ e, cardVerdict m ss n reply = .ok e → ∃ m', exec (.cardAuthenticationComplete n reply) s =
          .next { s with dg := finish m' c stOk 0 (authPayload ss) } ∧ (getCard m' n).st = .authenticated ∧
        (getCard m' n).ref = e ∧ SMap.get m'.sec.cardReg e = some (certNumber reply.cert) ∧
        (∀ z, sessionOf m' ss.handle = some z → z.auth = true))) ∧
    (∀ n r, recBy m 0x001F 0 1 n = some r →
      let q := r.f 24 4
      let x := getQ m q
      let resp := r.f 28 4
      let src := 0x0D7 + n
      let m1 := (hwTake m 0x5C q).1
      (getCard m n).st = .authenticated → (getCard m n).authCmd = none →
      ∀ msg code reply, hwPeek m 0x5C q = some (msg, code) →
        let gives (m' : Dg) : Prop := exec (.cardApdu n reply) s = .next { s with dg := m' }
        let mine := x.prod (genOf m x) = r.f 1 1
        let fits := txFits msg n [7] = true ∧ leAt msg 20 4 = 0
        let why := dropReason m1 resp 0x5C (16 + reply.length)
        (code ≠ 0 → gives (report m1 src kTxRefused code q src)) ∧
        (code = 0 → ¬ mine → gives (report m1 src kResourceConflict (openDetail m1 src kResourceConflict) q (0x400 + x.prod (genOf m x)))) ∧
        (code = 0 → mine → ¬ fits → gives (report m1 src kTxRefused 7 q src)) ∧
        (code = 0 → mine → fits → reply.length < 2 → gives (reportOpen m1 src kCardProtocolError 0)) ∧
        (code = 0 → mine → fits → 2 ≤ reply.length → why = none →
          gives (hwPublish m1 resp 0x5C (leBytes 16 (pack [(8, n), (8, 7), (48, 0), (64, m.now)]) ++ reply)).1) ∧
        (∀ d, code = 0 → mine → fits → 2 ≤ reply.length → why = some d → d < 3 → gives (report m1 src kRxDrop d 0 src)))

/-! ### Plant I/O and the networks (spec/11) -/

/-- R394, R546 to R548, R569 to R575, R577, Tables 11.4 to 11.10: command messages change the channels of their owner entry
by entry, refused ones are reported; period ends, captures, compares, pulses, conversions and input changes update their
registers and send samples; readbacks find a land that differs three times; a loopback test occupies its interface until it
completes or is aborted. -/
def Obligations.PlantIo : Prop :=
  ∀ (s : State),
    let m := s.dg
    (∀ (q : Nat) (msg : List Byte) (code : Nat),
      let m' := (hwTake m 0x5A q).1
      let pid := producerOf m' q
      let first := leAt msg 32 1
      let entries := (List.range (leAt msg 16 2)).map fun i => (msg.drop (32 + 8 * i)).take 8
      hwPeek m 0x5A q = some (msg, code) →
      let whole := msg.length = 32 + 8 * leAt msg 16 2 ∧ (msg.drop 18).take 14 = List.replicate 14 0
      let takes (i : Instr) : Prop :=
        (¬ whole → exec i s = .next { s with dg := report m' 0x0C6 kPioCmdInvalid 0x3FF q (0x400 + pid) }) ∧
        (whole → exec i s = .next { s with dg := entries.foldl (pioOne q pid) m' })
      (code ≠ 0 → exec (.pwmDuty q) s = .next { s with dg := m' }) ∧
      (code = 0 → (first < 2 ∨ 5 < first → takes (.pwmDuty q)) ∧ (first = 2 → takes (.pwmPeriod q)) ∧
        (first = 3 → takes (.compareValue q)) ∧ (first = 4 → takes (.gpioOutput q)) ∧ (first = 5 → takes (.adcScanStart q)))) ∧
    (∀ (q pid : Nat) (e : List Byte), e.length = 8 →
      let ty := leAt e 0 1
      let ch := leAt e 2 2
      let v := leAt e 4 4
      let cls := if ty = 4 then 5 else if ty = 5 then 9 else 4
      let refused (kind : Nat) : Prop :=
        pioOne q pid m e = report m 0x0C6 kind (ch % 128 + 128 * if 5 < ty then 0 else ty) q (0x400 + pid)
      let known := 1 ≤ ty ∧ ty ≤ 5 ∧ opened m cls ch = true
      (¬ known → refused kPioCmdInvalid) ∧ (known → ownerOf m cls ch ≠ some pid → refused kResourceConflict) ∧
      (known → ownerOf m cls ch = some pid →
        let t := getTmr m ch
        let g := getGpio m ch
        let good : Prop := leAt e 1 1 = 0 ∧ match ty with
          | 1 => t.mode = 3 ∧ v < 2 ^ 16
          | 2 => t.mode = 3 ∧ 2 ≤ v
          | 3 => t.mode = 2
          | 4 => (g.mode = some 1 ∨ g.mode = some 2) ∧ v < 4
          | _ => v = 0 ∧ ∃ r, recBy m 0x001C 0 1 ch = some r ∧ r.f 2 1 = 0
        (¬ good → refused kPioCmdInvalid) ∧
        (good →
          (ty = 1 → pioOne q pid m e = updTmr m ch fun t => { t with duty := v }) ∧
          (ty = 2 → pioOne q pid m e = updTmr m ch fun t => { t with value := v }) ∧
          (ty = 3 → pioOne q pid m e =
            updTmr m ch fun t => { t with value := v, curValue := if m.fix.engaged then t.curValue else v }) ∧
          (ty = 4 → let t := pioOne q pid m e
            (getGpio t ch).level = bit v 0 ∧ (getGpio t ch).driven = bit v 1 ∧ (getGpio t ch).mode = g.mode ∧
            (getGpio t ch).curLevel = (if m.fix.engaged then g.curLevel else bit v 0) ∧
            (getGpio t ch).curDriven = (if m.fix.engaged then g.curDriven else bit v 1) ∧
            (∀ k, k ≠ ch → getGpio t k = getGpio m k) ∧
            (m.fix.engaged = false → (getGpio t ch).sensed =
              if bit v 1 = true ∧ (g.mode = some 1 ∨ bit v 0 = false) then bit v 0 else g.sensed) ∧
            { t with net := m.net } = m) ∧
          (ty = 5 → pioOne q pid m e = updNet m fun x => { x with scan := SMap.set x.scan ch true })))) ∧
    (∀ n, n < 96 →
      let t := getTmr m n
      (t.mode = 3 → m.fix.engaged = false →
        exec (.pwmPeriodEnd n) s = .next { s with dg := updTmr m n fun t => { t with curDuty := t.duty, curValue := t.value } }) ∧
      (t.mode ≠ 3 ∨ m.fix.engaged = true → exec (.pwmPeriodEnd n) s = .next s) ∧
      (∀ rising (count : BitVec 32),
        let hit := t.mode = 1 ∧ (t.opt = 3 ∨ t.opt = if rising then 1 else 2)
        (hit → exec (.timerCapture n rising count) s =
          .next { s with dg := sample (updTmr m n fun t => { t with capture := count.toNat }) 0x0C0 4 n 1 0 count.toNat }) ∧
        (¬ hit → exec (.timerCapture n rising count) s = .next s)) ∧
      (t.mode ≠ 2 → exec (.timerCompareMatch n) s = .next s) ∧
      (t.mode = 2 → ∃ u, exec (.timerCompareMatch n) s = .next u ∧
        (getTmr u.dg n) = { t with level := if t.opt = 1 then true else if t.opt = 2 then false else !t.level } ∧
        (∀ k, k ≠ n → getTmr u.dg k = getTmr m k) ∧
        (∀ r, r ∈ recs m 0x001C → r.f 2 1 = 1 → r.f 3 1 = n → SMap.get u.dg.net.scan (r.f 0 1) = true) ∧
        { u.dg with net := m.net, ctx := m.ctx } = m)) ∧
    (∀ (src cls unit kind data count pid : Nat), ownerOf m cls unit = some pid →
      let body := leBytes 16 1 ++ leBytes 1 kind ++ leBytes 1 unit ++ leBytes 2 data ++ leBytes 4 count
      (∀ q, sampleQueue m pid kind = some q → sample m src cls unit kind data count = pioEvent (deliver m src q 0x5A body).1 src) ∧
      (sampleQueue m pid kind = none → sample m src cls unit kind data count = pioEvent m src)) ∧
    (∀ n edges period (count : BitVec 32) r, recBy m 0x001B 0 1 n = some r → opened m 7 n = true →
      let p := SMap.get m.net.pulse n
      let m1 := updNet m fun x => { x with pulse := SMap.set x.pulse n ⟨(p.edges + edges) % 2 ^ 32, period % 2 ^ 32, some edges⟩ }
      let bad := 50 * r.f 2 2 < edges ∨ ∃ old, p.last = some old ∧ (r.f 4 4 < edges - old ∨ r.f 4 4 < old - edges)
      (¬ bad → exec (.pulseSummary n edges period count) s =
        .next { s with dg := sample m1 0x0C1 7 n 2 (min edges 65535) count.toNat }) ∧
      (bad → exec (.pulseSummary n edges period count) s =
        .next { s with dg := sample (reportOpen m1 0x0C1 kPulseImplausible n) 0x0C1 7 n 2 (min edges 65535) count.toNat })) ∧
    (∀ ch value (count : BitVec 32) r, ch < 24 → scanWith m ch = some r → opened m 6 ch = true →
      let inv := bit m.net.adcBad (ch / 12)
      let last := r.f 2 1 ≠ 2 ∧ bits (r.f 4 2) (ch % 12 + 1) 12 = 0
      let m1 := updNet m fun x => { x with adc := SMap.set x.adc ch ⟨value % 4096, inv⟩,
                                           scan := if last then SMap.set x.scan (r.f 0 1) false else x.scan }
      exec (.adcConversionDone ch value count) s = .next
        { s with dg := sample m1 (0x0C2 + ch / 12) 6 ch 3 (value % 4096 + if inv then 32768 else 0) count.toNat }) ∧
    (∀ conv, conv < 2 →
      let src := 0x0C2 + conv
      let set (v : Nat) : Dg := updNet m fun x => { x with adcBad := setBits x.adcBad conv 1 v }
      (∀ ok, (ok = true ↔ bit m.net.adcBad conv = false) → exec (.adcReferenceCheck conv ok) s = .next s) ∧
      (bit m.net.adcBad conv = false →
        exec (.adcReferenceCheck conv false) s = .next { s with dg := pioEvent (reportOpen (set 1) src kAdcReference 0) src }) ∧
      (bit m.net.adcBad conv = true →
        exec (.adcReferenceCheck conv true) s = .next { s with dg := endCond (set 0) src kAdcReference })) ∧
    (∀ g level (count : BitVec 32), g < 48 →
      (gpioDrives m g ≠ none → exec (.gpioInputChange g level count) s = .next s) ∧
      (gpioDrives m g = none → ∃ t, exec (.gpioInputChange g level count) s = .next t ∧
        getGpio t.dg g = { getGpio m g with sensed := level } ∧ (∀ k, k ≠ g → getGpio t.dg k = getGpio m k) ∧
        (level = (getGpio m g).sensed → t.dg.fab = m.fab ∧ t.dg.mem = m.mem ∧ t.dg.ctx = m.ctx))) ∧
    (∀ levels : BitVec 48, ∃ t, exec (.outputReadback levels) s = .next t ∧
      (∀ g, g < 48 →
        let x := getGpio m g
        let wrong := levels.getLsbD g ≠ (gpioDrives m g).getD false
        (gpioDrives m g = none → getGpio t.dg g = { x with differ := 0 }) ∧
        (gpioDrives m g ≠ none → ¬ wrong → getGpio t.dg g = { x with differ := 0, sensed := levels.getLsbD g }) ∧
        (gpioDrives m g ≠ none → wrong →
          getGpio t.dg g = { x with differ := min (x.differ + 1) 3, sensed := levels.getLsbD g })) ∧
      ((∀ g, g < 48 → (getGpio m g).differ ≠ 2) → t.dg.srcs = m.srcs ∧ t.dg.ctx = m.ctx) ∧
      (∀ g, g < 48 → (∀ k, k < 48 → (getGpio m k).differ = 2 → k = g) → (getGpio m g).differ = 2 →
        (∃ b, gpioDrives m g = some b ∧ b ≠ levels.getLsbD g) →
        t.dg.srcs = (reportOpen m 0x0C6 kPioOutputMismatch g).srcs) ∧
      { t.dg with net := m.net, srcs := m.srcs, ctx := m.ctx } = m) ∧
    (∀ pair tag c,
      (TurnOf m pair tag 0x0090 c → c.payload.length = 8 →
        let cls := c.f 0 1
        let port := c.f 1 1
        let frames := c.f 4 4
        (cls = 0 ∨ 6 < cls → Refuses (.loopbackRun pair tag) s c stInvalid 32) ∧
        (1 ≤ cls → cls ≤ 6 → loopPort cls port = false → Refuses (.loopbackRun pair tag) s c stInvalid 33) ∧
        (1 ≤ cls → cls ≤ 6 → loopPort cls port = true →
          (loopDepth cls port (c.f 2 1) = none → Refuses (.loopbackRun pair tag) s c stInvalid 34) ∧
          (∀ line, loopDepth cls port (c.f 2 1) = some line →
            (c.f 3 1 ≠ 0 → Refuses (.loopbackRun pair tag) s c stInvalid 35) ∧
            (c.f 3 1 = 0 → frames = 0 ∨ 100000 < frames → Refuses (.loopbackRun pair tag) s c stInvalid 36) ∧
            (c.f 3 1 = 0 → 1 ≤ frames → frames ≤ 100000 →
              (line = true → c.role m ≠ 4 → c.role m ≠ 3 → c.role m ≠ 1 → Refuses (.loopbackRun pair tag) s c stDenied 1) ∧
              (line = false ∨ c.role m = 4 ∨ c.role m = 3 ∨ c.role m = 1 →
                (∀ o, loopOwner m cls port = some o →
                  (c.session = 0 → o ≠ c.ep →
                    let m' := report m (loopSrc cls port) kResourceConflict (openDetail m (loopSrc cls port) kResourceConflict) 0 (0x400 + c.ep)
                    exec (.loopbackRun pair tag) s = .next { s with dg := finish m' c stConflict 0 [] }) ∧
                  (c.session ≠ 0 ∨ o = c.ep → Refuses (.loopbackRun pair tag) s c stBusy 5)) ∧
                (loopOwner m cls port = none →
                  let held := fixHolds m cls port = true ∨ ∃ l, l ∈ m.net.loops ∧ l.cls = cls ∧ l.index = port
                  (held → Refuses (.loopbackRun pair tag) s c stBusy 5) ∧
                  (¬ held → GoesOn (.loopbackRun pair tag) s c (updNet (loopState m cls port) fun x =>
                    { x with loops := x.loops ++ [⟨(pair, tag), cls, port, c.f 2 1, frames⟩] })))))))) ∧
      (TurnOf m pair tag 0x0091 c → c.payload.length = 2 → 1 ≤ c.f 0 1 → c.f 0 1 ≤ 6 → loopPort (c.f 0 1) (c.f 1 1) = true →
        let found := m.net.loops.find? fun l => l.cls == c.f 0 1 && l.index == c.f 1 1
        (found = none → Answers (.loopbackAbort pair tag) s c m []) ∧
        (∀ l d, found = some l → findCmd m l.cmd.1 l.cmd.2 = some d → ∃ ran bad, bad ≤ ran ∧ ran ≤ l.frames ∧
          Answers (.loopbackAbort pair tag) s c
            (finish (loopEnd { m with freeCount := m.freeCount + 2 } l) d stOk 0
              (leBytes 4 3 ++ leBytes 4 ran ++ leBytes 4 bad)) [])) ∧
      (∀ l d bad, (m.net.loops.find? fun l => l.cmd == (pair, tag)) = some l → findCmd m pair tag = some d →
        let n := min bad l.frames
        let bs := leBytes 1 (if n = 0 then 1 else 2) ++ leBytes 3 0 ++ leBytes 4 l.frames ++ leBytes 4 n
        let failed := reportOpen m (loopSrc l.cls l.index) kLoopbackFail 0
        (n = 0 → exec (.loopbackComplete pair tag bad) s = .next { s with dg := finish (loopEnd m l) d stOk 0 bs }) ∧
        (n = 1 → exec (.loopbackComplete pair tag bad) s = .next { s with dg := finish (loopEnd failed l) d stOk 0 bs }) ∧
        ∃ m', exec (.loopbackComplete pair tag bad) s = .next { s with dg := finish m' d stOk 0 bs } ∧
          m'.net.loops = m.net.loops.filter (fun x => x != l) ∧ { m' with net := m.net, srcs := m.srcs } = m))

/-- R549 to R552, R555 to R558, R503, R495, Tables 11.2 and 11.14: CAN: a frame reaches the queue of the first matching
filter with its header, the head with the lowest identifier is offered, a sent frame leaves its queue, the error states
follow the counters. LIN: a slot publishes new or repeated data, awaits a response or sends the bus to sleep; a response is
delivered or its fault counted. -/
def Obligations.BusControllers : Prop :=
  ∀ (s : State) (n : Nat),
    let m := s.dg
    let c := getCan m n
    let src := 0x090 + n
    let runs := c.st = .active ∨ c.st = .passive
    (∀ f m1 x, filterOf m1 n f = some x → x ∈ recs m1 0x0012 ∧ x.f 0 1 = n ∧ filterMatches x f = true ∧
      ∀ y, y ∈ recs m1 0x0012 → y.f 0 1 = n → filterMatches y f = true → x.f 1 1 ≤ y.f 1 1) ∧
    (∀ (r : CfgRec) (f : Frame), canRec m n = some r →
      let enabled := 1 ≤ f.format ∧ f.format ≤ 3 ∧ bit (r.f 1 1) (f.format - 1) = true
      (¬ runs ∨ ¬ enabled → exec (.canFrameReceived n f) s = .next s) ∧
      (c.st = .active → enabled → c.rec_ ≤ 127 →
        let m1 := updCan m n fun c => { c with rec_ := c.rec_ - 1 }
        let body := leBytes 1 n ++ leBytes 1 f.format ++ leBytes 2 f.flags.toNat ++ leBytes 4 f.id.toNat ++ leBytes 8 m.now ++ f.data
        (filterOf m1 n f = none → exec (.canFrameReceived n f) s = .next { s with dg := m1 }) ∧
        (∀ x m2, filterOf m1 n f = some x → deliver m1 src (x.f 16 4) (0x40 + n) body = (m2, false) →
          exec (.canFrameReceived n f) s = .next { s with dg := netEvent m2 src }) ∧
        (∀ x m2, filterOf m1 n f = some x → deliver m1 src (x.f 16 4) (0x40 + n) body = (m2, true) →
          let m3 := updCan m2 n fun c => { c with rxDrop := min (c.rxDrop + 1) 65535 }
          exec (.canFrameReceived n f) s = .next { s with dg := netEvent m3 src })) ∧
      (c.st = .active → enabled → 127 < c.rec_ → (recs m 0x0012).all (fun x => !(x.f 0 1 == n && filterMatches x f)) = true →
        ∃ t, exec (.canFrameReceived n f) s = .next t ∧ 119 ≤ (getCan t.dg n).rec_ ∧ (getCan t.dg n).rec_ ≤ 127) ∧
      (let qs := canQueues r
       let head (q : Nat) := headFor m (0x40 + n) q
       (¬ runs → exec (.canTransmitClaim n) s = .next s) ∧
       (runs → (∀ q e, q ∈ qs → head q = some e → e.2 = 0 ∧ canFits r n e.1 = true) → c.offered = none →
         (m.fix.engaged = false → (∀ q, q ∈ qs → head q = none) → exec (.canTransmitClaim n) s = .next s) ∧
         (m.fix.engaged = false → (∃ q, q ∈ qs ∧ head q ≠ none) → ∃ q msg, q ∈ qs ∧ head q = some (msg, 0) ∧
           (∀ q' e, q' ∈ qs → head q' = some e → leAt msg 20 4 ≤ leAt e.1 20 4) ∧
           let m1 := updCan (claimQ m q) n fun c => { c with offered := some ⟨false, q, msg.drop 16⟩ }
           exec (.canTransmitClaim n) s = .next { s with dg := m1 }) ∧
         (m.fix.engaged = true → ∃ t, exec (.canTransmitClaim n) s = .next t ∧
           ∀ o, (getCan t.dg n).offered = some o → o.fix = true ∧
             ∃ f, (o.n, f) ∈ m.fix.fr ∧ f.configured = true ∧ f.port = n ∧ f.queued = some o.bytes))) ∧
      (c.st = .busOff →
        (m.now < c.offAt + r.f 2 2 * 62500 → exec (.busoffRecovery n) s = .next s) ∧
        (c.offAt + r.f 2 2 * 62500 ≤ m.now →
          let m1 := updCan m n fun c => { c with st := .active, tec := 0, rec_ := 0 }
          exec (.busoffRecovery n) s = .next { s with dg := endCond m1 src kCanBusOff }))) ∧
    (c.offered = none → ∀ ok, exec (.canFrameTransmitted n ok) s = .next s) ∧
    (∀ o, c.offered = some o → c.st = .active →
      let sent := updCan m n fun c => { c with tec := c.tec - 1, offered := none }
      let wrong := reportOpen (updCan m n fun c => { c with tec := min (c.tec + 8) 255 }) src kCanProtocol 0
      exec (.canFrameTransmitted n true) s =
        .next { s with dg := netEvent (if o.fix then frameSent sent o.n else releaseQ sent o.n) src } ∧
      (m.fix.engaged = false ∨ o.fix = true → exec (.canFrameTransmitted n false) s = .next { s with dg := wrong }) ∧
      (m.fix.engaged = true → o.fix = false → ∃ t, exec (.canFrameTransmitted n false) s = .next t ∧
        (getCan t.dg n).offered = none ∧ (getQ t.dg o.n).rel = (getQ m o.n).rd)) ∧
    (∀ f,
      let y := SMap.get (frameSent m f).fix.fr f
      let x := SMap.get m.fix.fr f
      y.queued = none ∧ y.txcount = (x.txcount + 1) % 2 ^ 32 ∧ y.template = x.template) ∧
    (∀ tec rec_,
      (c.st ≠ .active ∨ tec < 128 ∧ rec_ < 128 → exec (.canErrorPassive n tec rec_) s = .next s) ∧
      (c.st = .active → 128 ≤ tec ∨ 128 ≤ rec_ →
        let m1 := updCan m n fun c => { c with st := .passive, tec := min tec 255, rec_ := min rec_ 255 }
        exec (.canErrorPassive n tec rec_) s = .next { s with dg := netEvent (reportOpen m1 src kCanErrorPassive 0) src })) ∧
    (¬ runs → exec (.canBusOff n) s = .next s) ∧
    (runs →
      let m1 := updCan m n fun c => { c with st := .busOff, busoff := min (c.busoff + 1) 65535, offAt := m.now }
      exec (.canBusOff n) s = .next
        { s with dg := netEvent (reportOpen (endCond m1 src kCanErrorPassive) src kCanBusOff 0) src }) ∧
    (let l := getLin m n
     let lsrc := 0x0A0 + n
     let fault (kind : Nat) : Dg :=
       netEvent (reportOpen (updLin m n fun x => { x with errs := min (x.errs + 1) 65535, await := none }) lsrc kind 0) lsrc
     (l.st = .sleep → exec (.linWakeUp n) s = .next { s with dg := updLin m n fun x => { x with st := .active } }) ∧
     (l.st ≠ .sleep → exec (.linWakeUp n) s = .next s) ∧
     (∀ r, linRec m n = some r → l.st = .active →
       let publishes (i : Instr) (id q : Nat) (m0 : Dg) : Prop :=
         let put (m : Dg) (d : List Byte) : Dg :=
           updLin m n fun x => { x with out := some (id, d), sent := SMap.set x.sent id (some d) }
         (∀ msg, headFor m0 (0x50 + n) q = some (msg, 0) → linFits n id msg = true →
           exec i s = .next { s with dg := put (hwTake m0 (0x50 + n) q).1 (msg.drop 32) }) ∧
         (headFor m0 (0x50 + n) q = none → ∀ d, SMap.get (getLin m0 n).sent id = some d →
           exec i s = .next { s with dg := put m0 d }) ∧
         (headFor m0 (0x50 + n) q = none → SMap.get (getLin m0 n).sent id = none →
           exec i s = .next { s with dg := updLin m0 n fun x => { x with out := none } })
       (l.master = true → l.await = none → 0 < r.f 16 2 →
         let e := linEntry r (l.pos % r.f 16 2)
         let m1 := updLin m n fun x => { x with pos := (x.pos + 1) % r.f 16 2, out := none }
         (e.2.1 = 0 → publishes (.linScheduleSlot n) e.1 e.2.2 m1) ∧
         (e.2.1 = 1 → exec (.linScheduleSlot n) s = .next { s with dg := updLin m1 n fun x => { x with await := some e.1 } }) ∧
         (2 ≤ e.2.1 → ∃ t, exec (.linScheduleSlot n) s = .next t ∧ (getLin t.dg n).st = .sleep ∧
           (getLin t.dg n).out = some (0x3C, 0 :: List.replicate 7 0xFF))) ∧
       (l.master = true → l.await ≠ none → 0 < r.f 16 2 → (linEntry r (l.pos % r.f 16 2)).2.1 = 1 →
         ∃ t, exec (.linScheduleSlot n) s = .next t ∧ (getLin t.dg n).errs = min (l.errs + 1) 65535 ∧
           t.dg.srcs = (reportOpen m lsrc kLinNoResponse 0).srcs) ∧
       (∀ id data, id < 64 →
         exec (.linFrameReceived n id data .error) s = .next { s with dg := fault kLinError } ∧
         (l.await = some id → exec (.linFrameReceived n id data .noResponse) s = .next { s with dg := fault kLinNoResponse }) ∧
         (l.await ≠ some id → exec (.linFrameReceived n id data .noResponse) s = .next s) ∧
         (1 ≤ data.length → data.length ≤ 8 → l.master = true ∨ id ≠ 0x3C →
           let m1 := updLin m n fun x => { x with await := if x.await = some id then none else x.await }
           let hdr := leBytes 1 n ++ leBytes 1 4 ++ leBytes 2 (if bit (r.f 8 8) id then 64 else 0) ++ leBytes 4 id ++ leBytes 8 m.now
           exec (.linFrameReceived n id data .ok) s =
             .next { s with dg := netEvent (deliver m1 lsrc (r.f 4 4) (0x50 + n) (hdr ++ data)).1 lsrc })) ∧
       (l.master = false → ∀ i, i < r.f 16 2 → (linEntry r i).2.2 ≠ 0xFFFFFFFF →
         (∀ j, j < i → (linEntry r j).1 = (linEntry r i).1 → (linEntry r j).2.2 = 0xFFFFFFFF) →
         publishes (.linHeaderReceived n (linEntry r i).1) (linEntry r i).1 (linEntry r i).2.2 m)))

/-- R551, R552, R559 to R568, R576, R578, R503, Table 11.11: the switch checks a frame, filters and meters it by its stream,
takes each of its copies once, and forwards it by its static entry; gates and credits hold it at the egress (what these functions
of the 802.1 standards do is PRESUMED, notes/assumptions/126.md); internal ports send messages and mailbox responses and turn
mailbox frames into requests; links, calibration, gPTP, PCIe and the GNSS receiver change their registers and report; the host reaches rings and windows of partition 0x3E only; its
queue pages publish, claim and release. -/
def Obligations.EthernetPcieGnss : Prop :=
  ∀ (s : State),
    let m := s.dg
    let stays (i : Instr) : Prop := exec i s = .next s
    let gives (i : Instr) (m' : Dg) : Prop := exec i s = .next { s with dg := m' }
    let event (m : Dg) (src kind : Nat) : Dg := netEvent (reportOpen m src kind 0) src
    (∀ port (f : EthFrame), port < 12 →
      let x := getEth m port
      let src := 0x0A8 + port
      (x.st ≠ .up ∨ maxFrame m port < f.data.length → stays (.ethFrameReceived port f)) ∧
      (x.st = .up → f.data.length ≤ maxFrame m port →
        (f.fcsOk = false → gives (.ethFrameReceived port f) (event m src kEthFcs)) ∧
        (f.fcsOk = true → x.macsec = true → f.macsecOk = false →
          gives (.ethFrameReceived port f) (netEvent (countDrop (reportOpen m src kMacsecDrop 0) port) src)) ∧
        (f.fcsOk = true → x.macsec = false ∨ f.macsecOk = true →
          (∀ m1, psfp m port f.pcp f.stream f.data = (m1, none) → gives (.ethFrameReceived port f) (event m1 src kPsfpDrop)) ∧
          (∀ m1 m2 prio takes lost, psfp m port f.pcp f.stream f.data = (m1, some prio) →
            frerRun m1 port f.stream f.data = (m2, takes, lost) →
            let m3 := if lost then event m2 src kFrerLoss else m2
            gives (.ethFrameReceived port f)
              (if takes then switchForward m3 port f.dst f.vlan f.pcp f.stream x.macsec prio f.data else m3))))) ∧
    (∀ (port pcp : Nat) (stream : Option Nat) (data : List Byte),
      (∀ r, r ∈ tsnRecs m 3 port → ¬ (stream = some (r.f 8 2) ∧ (r.f 10 1 = pcp ∨ r.f 10 1 = 0xFF))) →
        psfp m port pcp stream data = (m, some pcp)) ∧
    (∀ (port pcp : Nat) (stream : Option Nat) (data : List Byte) (r : CfgRec), tsnRecs m 3 port = [r] → stream = some (r.f 8 2) →
      r.f 10 1 = pcp ∨ r.f 10 1 = 0xFF → r.f 14 2 = 0xFFFF →
      let big := r.f 16 4 ≠ 0 ∧ r.f 16 4 < data.length
      (big → psfp m port pcp stream data = (m, none)) ∧
      (∀ g states ipv, tsnRec m 4 port (r.f 12 2) = some g → gateNow m g = some (states, ipv) →
        (bit states 0 = false → psfp m port pcp stream data = (m, none)) ∧
        (bit states 0 = true → ¬ big → psfp m port pcp stream data = (m, some (if ipv = 0xFF then pcp else ipv))))) ∧
    (∀ (len reset now seq : Nat) (x : Frer), seq < 65536 → x.seq < 65536 → 1 ≤ len → len ≤ 32 → x.live = true → now ≤ x.at_ + reset * 62500 →
      let back := (x.seq + 65536 - seq) % 65536
      let ahead := (seq + 65536 - x.seq) % 65536
      (back < len → bit x.hist back = true → frerStep len reset now seq x = (x, false, false)) ∧
      (back < len → bit x.hist back = false →
        frerStep len reset now seq x = ({ x with hist := x.hist ||| 2 ^ back, at_ := now }, true, false)) ∧
      (len ≤ back → ahead < len → (frerStep len reset now seq x).2.1 = true ∧
        (frerStep len reset now seq x).1.seq = seq ∧ bit (frerStep len reset now seq x).1.hist 0 = true) ∧
      (len ≤ back → len ≤ ahead → frerStep len reset now seq x = (x, false, false))) ∧
    (∀ (port : Nat) (f : EgressFrame),
      (∀ r g ipv, (tsnRecs m 2 port).head? = some r → gateNow m r = some (g, ipv) → m.fix.engaged = false → bit g f.prio = false →
        maySend m port f = false) ∧
      (∀ r, shaperOf m port f.prio = some r → creditNow m port f.prio r < 0 → maySend m port f = false) ∧
      (tsnRecs m 2 port = [] → shaperOf m port f.prio = none → maySend m port f = true) ∧
      (shaperOf m port f.prio = none → enqueue m port f = updEth m port fun x => { x with egress := x.egress ++ [f] }) ∧
      (∀ r i, shaperOf m port f.prio = some r →
        creditNow (dequeue m port i f) port f.prio r = creditNow m port f.prio r - (8 * f.data.length * 62500000 : Nat))) ∧
    (∀ (ingress dst vlan pcp prio p : Nat) (stream : Option Nat) (macsec : Bool) (frame : List Byte),
      p < 12 → p ≠ ingress → egressOf m dst vlan = 2 ^ p →
      let m1 := (frerTag m ingress stream frame).1
      let data := (frerTag m ingress stream frame).2
      let m' := switchForward m ingress dst vlan pcp stream macsec prio frame
      ((∀ r, r ∈ tsnRecs m 8 ingress → stream ≠ some (r.f 8 2)) → m1 = m ∧ data = frame) ∧
      ((getEth m p).st ≠ .up ∨ maxFrame m p < data.length → m' = m1) ∧
      ((getEth m p).st = .up → data.length ≤ maxFrame m p →
        (m.fix.engaged = true → 12 ≤ ingress ∨ m.boot.due ≠ none → m' = countDrop m1 p) ∧
        (m.fix.engaged = false ∨ ingress < 12 ∧ m.boot.due = none → m' = enqueue m1 p ⟨decide (12 ≤ ingress), prio, data⟩))) ∧
    (∀ port q msg code, port = 12 ∨ port = 13 → headFor m (0x4C + port) q = some (msg, code) →
      let src := 0x0A8 + port
      let m1 := (hwTake m (0x4C + port) q).1
      let refused (code : Nat) : Dg := report m1 src kTxRefused code q src
      (code ≠ 0 → gives (.ethInternalTransmit port q) (refused code)) ∧
      (∀ pair r, code = 0 → pairOfResp m port q = some pair → recBy m 0x000E 0 1 pair = some r →
        let frame := leBytes 6 (r.f 24 6) ++ leBytes 6 (portMac m port) ++ [0x88, 0xB5, BitVec.ofNat 8 pair, 0] ++ msg.drop 16
        gives (.ethInternalTransmit port q) (switchForward m1 port (r.f 24 6) 0 0 none false 0 frame)) ∧
      (code = 0 → pairOfResp m port q = none → (∃ r, r ∈ recs m 0x0016 ∧ r.f 0 1 = port ∧ r.f 1 1 = 2 ∧ r.f 8 4 = q) →
        let data := msg.drop 32
        let fits := txFits msg port [5] = true ∧ leAt msg 20 4 < 2 ^ 19 ∧ 14 ≤ data.length ∧ data.length ≤ maxFrame m port
        (¬ fits → gives (.ethInternalTransmit port q) (refused 7)) ∧
        (fits → gives (.ethInternalTransmit port q) (switchForward m1 port (leAt data 0 6) (vlanOf data).1 (vlanOf data).2
          (some (leAt msg 20 4 % 2 ^ 16)) false (vlanOf data).2 data)))) ∧
    (∀ port, port < 12 → (getEth m port).st = .up →
      let waiting := SMap.keysWhere m.fix.fr fun f => f.configured && f.port == 16 + port && f.queued.isSome
      let e := (getEth m port).egress
      let puts (m : Dg) (frame : List Byte) : Dg := updEth m port fun x => { x with sent := frame }
      (∀ n b, waiting.head? = some n → (SMap.get m.fix.fr n).queued = some b →
        gives (.ethFrameTransmitted port) (frameSent (puts m b) n)) ∧
      (waiting = [] → m.fix.engaged = true → m.boot.due ≠ none → stays (.ethFrameTransmitted port)) ∧
      (waiting = [] → m.fix.engaged = false ∨ m.boot.due = none →
        (∀ i f, e[i]? = some f → maySend m port f = true → (∀ j g, j < i → e[j]? = some g → maySend m port g = false) →
          gives (.ethFrameTransmitted port) (dequeue m port i f)) ∧
        ((∀ f, f ∈ e → maySend m port f = false) →
          (hwPeek m 0x3F (respQ 31) = none → stays (.ethFrameTransmitted port)) ∧
          (∀ msg code, hwPeek m 0x3F (respQ 31) = some (msg, code) →
            (∀ mac, easelReturn m msg = some (port, mac) → gives (.ethFrameTransmitted port)
              (puts (takeEaselResp m msg) (leBytes 6 mac ++ leBytes 6 (portMac m port) ++ [0x88, 0xB5, 31, 0] ++ msg.drop 16))) ∧
            ((∀ mac, easelReturn m msg ≠ some (port, mac)) → stays (.ethFrameTransmitted port)))))) ∧
    (∀ port r msg code, portRec m port = some r → port < 12 → headFor m 0x58 (r.f 16 4) = some (msg, code) →
      let q := r.f 16 4
      let m1 := (hwTake m 0x58 q).1
      let pid := producerOf m q
      (code ≠ 0 → gives (.macsecKeyMessage port) m1) ∧
      (code = 0 → pid ≠ r.f 5 1 →
        gives (.macsecKeyMessage port) (report m1 (0x0A8 + port) kResourceConflict (openDetail m1 (0x0A8 + port) kResourceConflict) q (0x400 + pid))) ∧
      (code = 0 → pid = r.f 5 1 → ∃ t k v, exec (.macsecKeyMessage port) s = .next t ∧ k < 18 ∧
        (v = none ∨ v = some (msg.drop 16)) ∧ SMap.get (getEth t.dg port).saks k = v ∧
        (∀ j, j ≠ k → SMap.get (getEth t.dg port).saks j = SMap.get (getEth m1 port).saks j) ∧
        { t.dg with net := m1.net, freeCount := m1.freeCount } = m1)) ∧
    (∀ port payload, port = 12 ∨ port = 13 →
      let pair := leAt payload 0 1
      let mine := pair < 31 ∧ leAt payload 1 1 = 0 ∧ requesterOf m pair = 0x4C + port
      (¬ mine → stays (.mailboxFrameReceived port payload)) ∧
      (mine →
        let d := deliver m (0x0A8 + port) (reqQ pair) (0x4C + port) (payload.drop 2)
        gives (.mailboxFrameReceived port payload) (if d.2 then countDrop d.1 port else d.1))) ∧
    (∀ port sqi, port < 10 → (getEth m port).st = .up →
      let low := decide (sqi % 8 < Config.sqiLow)
      let m1 := updEth m port fun x => { x with sqi := sqi % 8, sqiLow := low }
      gives (.phyCalibrationStep port sqi)
        (if low = true ∧ (getEth m port).sqiLow = false then event m1 (0x0A8 + port) kEthSqiLow
         else if low = false ∧ (getEth m port).sqiLow = true then endCond m1 (0x0A8 + port) kEthSqiLow else m1)) ∧
    (∀ port, port < 12 →
      let src := 0x0A8 + port
      ((getEth m port).st = .up → ∃ t, exec (.ethLinkDown port) s = .next t ∧
        (let y := getEth t.dg port
         y.st = .down ∧ y.speed = 0 ∧ y.sqi = 0 ∧ y.egress = [] ∧ y.linkdown = min ((getEth m port).linkdown + 1) 65535) ∧
        (∀ k, k ≠ port → getEth t.dg k = getEth m k)) ∧
      ((getEth m port).st ≠ .up → stays (.ethLinkDown port)) ∧
      (∀ r, portRec m port = some r → (getEth m port).st = .down →
        let m1 := updEth m port fun x => { x with st := .up, speed := r.f 1 1 }
        gives (.ethLinkUp port) (netEvent (endCondIf m1 0x0B6 kEthLinkDown fun f => f.subject == src) src)) ∧
      (∀ r, portRec m port = some r → (getEth m port).st ≠ .down → stays (.ethLinkUp port))) ∧
    (∀ dom, dom < 2 →
      (bit m.net.gptpSync dom = false → stays (.gptpUnsync dom)) ∧
      (bit m.net.gptpSync dom = true →
        let m1 := updNet m fun x =>
          { x with gptpSync := setBits x.gptpSync dom 1 0, gmPort := if dom = 0 then 0xFF else x.gmPort }
        gives (.gptpUnsync dom) (netEvent (reportOpen m1 0x0B6 kGptpUnsync dom) 0x0B6))) ∧
    (let p := m.net.pci
     let put (p : Pci) : Dg := { m with net := { m.net with pci := p } }
     (p.up = false → stays .pcieLinkDown ∧ (∀ u, stays (.pcieAerError u)) ∧
       (∀ w a len d, stays (.pcieInboundRequest w a len d)) ∧ (∀ h n, stays (.queuePageDoorbell h n)) ∧
       (∀ h, stays (.queuePageDeq h) ∧ stays (.queuePageDeqRel h))) ∧
     (p.up = true →
       gives .pcieLinkDown (event (put { p with up := false, gen := 0, width := 0 }) 0x0B7 kPcieLinkDown) ∧
       gives (.pcieAerError true) (event (put { p with aerUncorr := min (p.aerUncorr + 1) 65535 }) 0x0B7 kPcieAerUncorrectable) ∧
       gives (.pcieAerError false) (event (put { p with aerCorr := min (p.aerCorr + 1) 65535 }) 0x0B7 kPcieAerCorrected) ∧
       (∀ addr (data : List Byte), 0 < data.length →
         (hostReach m true addr data.length = .allowed → ∀ len,
           gives (.pcieInboundRequest true addr len data) (writeSpan m viaFabric addr data).1) ∧
         (∀ q, hostReach m true addr data.length = .guarded q → ∀ len,
           gives (.pcieInboundRequest true addr len data) (guardRefused m 0x3E q)) ∧
         (hostReach m true addr data.length = .denied → ∀ len,
           gives (.pcieInboundRequest true addr len data) (reportOpen m 0x0B7 kPcieInboundDenied addr))) ∧
       (∀ addr len data, 0 < len →
         (hostReach m false addr len = .allowed → gives (.pcieInboundRequest false addr len data) (readSpan m viaFabric addr len).1) ∧
         (∀ q, hostReach m false addr len = .guarded q → gives (.pcieInboundRequest false addr len data) (guardRefused m 0x3E q)) ∧
         (hostReach m false addr len = .denied →
           gives (.pcieInboundRequest false addr len data) (reportOpen m 0x0B7 kPcieInboundDenied addr)))) ∧
     (∀ w a len, (spanIn m false .canvas a len = false ∧ spanIn m false .dram a len = false) → hostReach m w a len = .denied) ∧
     (∀ w a len q, hostReach m w a len = .guarded q → q ∈ ringAt m a len ∧ guardOk m q 0x3E w a len = false) ∧
     (∀ r gen width, (recs m 0x0018).head? = some r → p.up = false → 1 ≤ gen → gen ≤ r.f 8 1 → width ≤ r.f 9 1 →
       width = 1 ∨ width = 2 ∨ width = 4 → gives (.pcieLinkUp gen width)
         (netEvent (endCond (put { p with up := true, gen := gen, width := width }) 0x0B7 kPcieLinkDown) 0x0B7))) ∧
    (∀ c l, (getCtx m c).pcie = some l → l.got = [] → l.errs = [] → l.addr % 16 + memSize l.op ≤ 16 →
      let p := m.net.pci
      let m1 := reportOpen { m with net := { m.net with pci := { p with cplTimeout := min (p.cplTimeout + 1) 65535 } } } 0x0B7
        kPcieCplTimeout l.addr
      let m2 := setCtx m1 c { getCtx m c with pcie := none }
      halted m c = false → gives (.pcieCplTimeout c) (takeExn m2 c ⟨4, 4, some (l.addr % 2 ^ 48), false, none⟩)) ∧
    (∀ h, h < 4096 → m.net.pci.up = true → recs m 0x0018 ≠ [] →
      let e := SMap.get m.fab.handles (4096 * 0x3E + h)
      let x := getQ m e.q
      let refused (code : Nat) : Dg := if code = 1 ∨ code = 2 then report m 0x06F kAccessDenied (0x3E + 512) e.q (0x400 + 0x3E)
        else if code = 4 then fabEvt (report m 0x06F kQ0Budget (0x3E + 512) e.q (0x400 + 0x3E)) 0x3E 2 e.q h 0 else m
      (e.dir = 0 → (∀ n, gives (.queuePageDoorbell h n) (refused 1)) ∧ gives (.queuePageDeq h) (refused 1) ∧
        gives (.queuePageDeqRel h) (refused 1)) ∧
      (∀ n, n < 2 ^ 16 → e.dir = 1 → x.prod (genOf m x) = 0x3E → queueUsable m x = true →
        (x.free < n → stays (.queuePageDoorbell h n)) ∧
        (n ≤ x.free → x.cls = 0 → x.credits < n → gives (.queuePageDoorbell h n) (refused 4)) ∧
        (n ≤ x.free → x.cls ≠ 0 ∨ n ≤ x.credits → gives (.queuePageDoorbell h n) (publish m e.q n 0x3E h))) ∧
      (e.dir = 2 → (∀ n, gives (.queuePageDoorbell h n) (refused 2)) ∧
        (x.cons (genOf m x) = 0x3E → queueUsable m x = true → gives (.queuePageDeqRel h) (releaseQ m e.q) ∧
          (0 < x.count → let y := getQ (releaseQ m e.q) e.q
            gives (.queuePageDeq h) (voidClaimed (claimQ (releaseQ m e.q) e.q) e.q 0x3E (y.voidCode y.rd))) ∧
          (x.count = 0 → gives (.queuePageDeq h) (releaseQ m e.q)))) ∧
      (e.dir = 1 → gives (.queuePageDeq h) (refused 2) ∧ gives (.queuePageDeqRel h) (refused 2))) ∧
    (∀ r, gnssRec m = some r →
      (∀ data : List Byte, data ≠ [] →
        let hdr := leBytes 2 (6 * 256) ++ leBytes 6 0 ++ leBytes 8 m.now
        gives (.gnssMessageClose data) (netEvent (deliver m 0x0B8 (r.f 4 4) 0x5D (hdr ++ data.take 64)).1 0x0B8)) ∧
      (∀ msg code, headFor m 0x5D (r.f 8 4) = some (msg, code) →
        let m1 := (hwTake m 0x5D (r.f 8 4)).1
        let fits := code = 0 ∧ txFits msg 0 [6] = true ∧ leAt msg 20 4 = 0
        (fits → gives .gnssTransmitClaim (updNet m1 fun x => { x with gnssTx := msg.drop 32 })) ∧
        (¬ fits → gives .gnssTransmitClaim
          (report m1 0x0B8 kTxRefused (if code = 0 then 7 else code) (r.f 8 4) 0x0B8)))) ∧
    (let y := m.sec
     let steady := ∃ t0, y.ppsAt = some t0 ∧ 62496875 ≤ m.now - t0 ∧ m.now - t0 ≤ 62503125
     (∃ t, exec (.gnssPpsEdge none) s = .next t ∧ t.dg.sec.ppsAt = some m.now ∧
       (steady → t.dg.sec.ppsCount = min (y.ppsCount + 1) 3 ∧ (t.dg.sec.pps = true ↔ 2 ≤ y.ppsCount)) ∧
       (¬ steady → t.dg.sec.ppsCount = 1 ∧ t.dg.sec.pps = false ∧
         (y.pps = true → t.dg.srcs = (reportOpen m 0x0B8 kGnssPpsLoss 0).srcs))) ∧
     (∀ utc, steady → 2 ≤ y.ppsCount → y.pps = true →
       let g := utc * 1000000
       let r := rtcUsNow m
       ∃ t, exec (.gnssPpsEdge (some utc)) s = .next t ∧
         (let z := t.dg.sec
          (y.restored = false ∨ utc * 1000 < rtcFloor m → z.restored = y.restored ∧
            (r ≤ g → g ≤ r + 60000000 → z.rtcUs = y.rtcUs + min (g - r) 500 ∧ z.rtcAt = y.rtcAt ∧ z.disagree = false) ∧
            (g < r → r ≤ g + 60000000 → z.disagree = false ∧
              (min (r - g) 500 ≤ y.rtcUs → z.rtcUs = y.rtcUs - min (r - g) 500 ∧ z.rtcAt = y.rtcAt) ∧
              (y.rtcUs < min (r - g) 500 → z.rtcUs = r - min (r - g) 500 ∧ z.rtcAt = m.now)) ∧
            (r + 60000000 < g ∨ g + 60000000 < r → z.rtcUs = y.rtcUs ∧ z.rtcAt = y.rtcAt ∧ z.disagree = true ∧
              (y.disagree = false → t.dg.srcs = (reportOpen m 0x0D7 kTimeDisagree 0).srcs))) ∧
          (y.restored = true → rtcFloor m ≤ utc * 1000 →
            z.restored = false ∧ z.rtcValid = true ∧ utcMs t.dg = utc * 1000 % 2 ^ 48))) ∧
     (∀ t0, y.ppsAt = some t0 →
       (m.now ≤ t0 + 131250000 → stays .gnssPpsLoss) ∧
       (t0 + 131250000 < m.now → ∃ t, exec .gnssPpsLoss s = .next t ∧ t.dg.sec.pps = false ∧ t.dg.sec.ppsAt = none ∧
         (y.pps = true → t.dg.srcs = (reportOpen m 0x0B8 kGnssPpsLoss 0).srcs))))

/-! ### Easel (spec/07 R395 to R401, spec/01 R72 to R76) -/

/-- R72 to R76, R395 to R400, Tables 07.24 and 07.25: Easel's commands are refused for a malformed target, for the
supervisor outside recovery, for a stop-protected partition, outside the target's reach, without the attachment and on a running
target; otherwise they
attach, halt, resume, step, read and write the target. A frame for Easel, and a request shifted in, becomes a request of
pair 31; the TAP's instructions capture what Table 07.25 gives. -/
def Obligations.EaselCommands : Prop :=
  ∀ (s : State) (pair tag : Nat) (c : Cmd),
    let m := s.dg
    let e := m.easel
    let x := c.target
    let with_ (e : Easel) : Dg := { m with easel := e }
    let table : List ((Nat → Nat → Instr) × Nat × Nat × Bool × Bool × Bool) :=
      [(.easelDetach, 0x0093, 4, true, false, false), (.easelHalt, 0x0094, 4, false, true, false),
       (.easelResume, 0x0095, 4, false, false, false), (.easelStep, 0x0096, 8, false, true, true),
       (.easelRegRead, 0x0097, 8, true, false, false), (.easelRegWrite, 0x0098, 24, false, true, true),
       (.easelMemRead, 0x0099, 20, true, false, false), (.easelMemWrite, 0x009A, 24 + c.f 16 4, false, true, true),
       (.easelBreak, 0x009B, 24, false, false, false), (.easelStr, 0x009C, 5, false, true, true),
       (.easelTrace, 0x009D, 20, false, false, false)]
    (∀ mk op len sup guarded frozen, (mk, op, len, sup, guarded, frozen) ∈ table → m.boot.under.st ≠ .revertWindow →
      TurnOf m pair tag op c →
      (c.payload.length ≠ len → Refuses (mk pair tag) s c stInvalid 24) ∧
      (∀ f, c.payload.length = len → targetFault c = some f → Refuses (mk pair tag) s c stInvalid (32 + f)) ∧
      (op = 0x0093 ∨ op = 0x0094 ∨ op = 0x0095 → c.payload.length = len → targetFault c = none →
        (c.f 0 1 = 3 → ¬ (sup = true ∧ (m.boot.recovery = true ∨ m.part.factory = true)) → Refuses (mk pair tag) s c stDenied 6) ∧
        (c.f 0 1 ≠ 3 → guarded = true → protectedNow m (getCtx m x).pid = true → Refuses (mk pair tag) s c stDenied 3) ∧
        (c.f 0 1 ≠ 3 → guarded = false ∨ protectedNow m (getCtx m x).pid = false → mine m c = false →
          Refuses (mk pair tag) s c stBusy 5))) ∧
    (TurnOf m pair tag 0x0092 c → c.payload.length = 4 → targetFault c = none →
      (c.f 0 1 = 3 → m.boot.recovery = false → m.part.factory = false → Refuses (.easelAttach pair tag) s c stDenied 6) ∧
      (c.f 0 1 ≠ 3 ∨ m.boot.recovery = true ∨ m.part.factory = true →
        (attached m c ≠ none → Refuses (.easelAttach pair tag) s c stBusy 5) ∧
        (attached m c = none → Answers (.easelAttach pair tag) s c
          (with_ { e with attach := e.attach ++ [⟨c.f 0 1, c.f 2 2, c.session⟩] }) []))) ∧
    (TurnOf m pair tag 0x0093 c → easelRefusal m c 4 none true false false = none → ∃ m', Answers (.easelDetach pair tag) s c m' [] ∧
      (∃ t, attached m c = some t ∧ t ∈ e.attach ∧ m'.easel.attach = e.attach.filter (· != t)) ∧ halted m' x = false ∧ SMap.get m'.easel.step x = default ∧
      ∀ u, u < 8 → SMap.get m'.easel.brk (8 * x + u) = default) ∧
    (m.boot.under.st = .revertWindow → exec (.easelHalt pair tag) s = .next s) ∧
    (m.boot.under.st ≠ .revertWindow → TurnOf m pair tag 0x0094 c → easelRefusal m c 4 none false true false = none →
      (haltable m x = false → Refuses (.easelHalt pair tag) s c stBusy 5) ∧
      (haltable m x = true → halted m x = true → Answers (.easelHalt pair tag) s c m (leBytes 8 (getCtx m x).r.pc.toNat)) ∧
      (haltable m x = true → halted m x = false → underLive m = false →
        (x < 16 → (getGrp m x).state = .reseating →
          GoesOn (.easelHalt pair tag) s c (updGrp m x fun g => { g with haltDefer := true })) ∧
        (16 ≤ x ∨ (getGrp m x).state ≠ .reseating → ∃ m', halted m' x = true ∧ m'.ctx = m.ctx ∧ m'.mem = m.mem ∧
          Answers (.easelHalt pair tag) s c m' (leBytes 8 (getCtx m x).r.pc.toNat)))) ∧
    (TurnOf m pair tag 0x0095 c → easelRefusal m c 4 none false false false = none →
      (halted m x = false → Answers (.easelResume pair tag) s c m []) ∧
      (halted m x = true → ∃ m', Answers (.easelResume pair tag) s c m' [] ∧ halted m' x = false ∧
        SMap.get m'.easel.pass x = true ∧ m'.ctx = m.ctx)) ∧
    (∀ n, c.f 4 4 = n → TurnOf m pair tag 0x0096 c → 1 ≤ n → n < 65536 → easelRefusal m c 8 none false true true = none →
      GoesOn (.easelStep pair tag) s c
        (with_ { e with step := SMap.set e.step x ⟨n, 0, c.tag⟩, pass := SMap.set e.pass x true })) ∧
    (TurnOf m pair tag 0x0097 c → easelRefusal m c 8 (regFault c) true false false = none →
      let cls := c.f 4 1
      let n := c.f 6 2
      let r := (getCtx m x).r
      (cls = 0 → Answers (.easelRegRead pair tag) s c m (leBytes 16 (r.getD n).toNat)) ∧
      (cls = 1 → Answers (.easelRegRead pair tag) s c m (leBytes 16 (r.getA n).toNat)) ∧
      (cls = 2 → Answers (.easelRegRead pair tag) s c m (leBytes 16 (r.getAccPart (n / 4) (n % 4)).toNat)) ∧
      (cls = 3 → Answers (.easelRegRead pair tag) s c m (leBytes 16 (r.getSpecial n))) ∧
      (cls = 4 → Answers (.easelRegRead pair tag) s c m (leBytes 16 (csrRead m.part (decide (c.f 0 1 = 3)) r n).toNat)) ∧
      (cls = 5 → Answers (.easelRegRead pair tag) s c m (leBytes 16 r.pc.toNat))) ∧
    (TurnOf m pair tag 0x0098 c → easelRefusal m c 24 ((regFault c).or (badRegValue m c)) false true true = none →
      ∃ m', Answers (.easelRegWrite pair tag) s c m' [] ∧
        (c.f 4 1 = 0 → regsOf m' x = (regsOf m x).setD (c.f 6 2) (BitVec.ofNat 128 (c.f 8 16))) ∧
        (c.f 4 1 = 1 → regsOf m' x = (regsOf m x).setA (c.f 6 2) (BitVec.ofNat 64 (c.f 8 16))) ∧
        (c.f 4 1 = 2 → regsOf m' x = (regsOf m x).setAccPart (c.f 6 2 / 4) (c.f 6 2 % 4) (BitVec.ofNat 128 (c.f 8 16))) ∧
        (c.f 4 1 = 3 → regsOf m' x = (regsOf m x).setSpecial (c.f 6 2) (c.f 8 16)) ∧
        (c.f 4 1 = 4 → regsOf m' x = csrWrite (regsOf m x) (c.f 6 2) (c.f 8 16 % 2 ^ 64)) ∧
        (c.f 4 1 = 5 → regsOf m' x = { regsOf m x with pc := BitVec.ofNat 48 (c.f 8 16) }) ∧
        (∀ d, d ≠ x → getCtx m' d = getCtx m d) ∧ { m' with ctx := m.ctx } = m) ∧
    (TurnOf m pair tag 0x0098 c → easelRefusal m c 24 (regFault c) false true true = none → c.f 4 1 = 4 → csrRo (c.f 6 2) = false →
      csrReserved (c.f 6 2) (c.f 8 16 % 2 ^ 64) = true →
      exec (.easelRegWrite pair tag) s = .next { s with dg := finish (ctxReport m x kRegReserved) c stInvalid 40 [] }) ∧
    (∀ a len, c.f 8 8 = a → c.f 16 4 = len →
      (∀ f, f = memFault m c 4064 → TurnOf m pair tag 0x0099 c → easelRefusal m c 20 f true false false = none ∨
          (∃ d, easelRefusal m c 20 f true false false = some (.err stBusy d)) →
        easelReach m c false a len = false → Refuses (.easelMemRead pair tag) s c stDenied 4) ∧
      (TurnOf m pair tag 0x0099 c → easelRefusal m c 20 (memFault m c 4064) true false false = none →
        (easelReach m c false a len = true → regionOf m true a = .canvas ∨ regionOf m true a = .dram ∨ regionOf m true a = .store →
          (∀ m1 l, readSpan m viaPort1 a len = (m1, some l) → Answers (.easelMemRead pair tag) s c m1 l) ∧
          (∀ m1, readSpan m viaPort1 a len = (m1, none) →
            exec (.easelMemRead pair tag) s = .next { s with dg := finish m1 c stFailed 6 [] }))) ∧
      (∀ f, f = memFault m c 4040 → TurnOf m pair tag 0x009A c → c.f 20 4 = 0 →
          easelRefusal m c (24 + len) f false true true = none ∨
          (∃ d, easelRefusal m c (24 + len) f false true true = some (.err stBusy d)) →
        easelWritable m c a len = false → Refuses (.easelMemWrite pair tag) s c stDenied 4) ∧
      (TurnOf m pair tag 0x009A c → c.f 20 4 = 0 → easelRefusal m c (24 + len) (memFault m c 4040) false true true = none →
        easelWritable m c a len = true →
        (regionOf m true a = .canvas ∨ regionOf m true a = .dram ∨ regionOf m true a = .store ∧
            (∀ w, w ∈ spanWords a (c.payload.drop 24).length → storeAllowed m .supervisor w = true) →
          (∀ m1, writeSpan m viaPort1 a (c.payload.drop 24) = (m1, true) → Answers (.easelMemWrite pair tag) s c m1 []) ∧
          (∀ m1, writeSpan m viaPort1 a (c.payload.drop 24) = (m1, false) →
            exec (.easelMemWrite pair tag) s = .next { s with dg := finish m1 c stFailed 6 [] })) ∧
        (∀ w, regionOf m true a = .store →
            ((spanWords a (c.payload.drop 24).length).find? fun w => !storeAllowed m .supervisor w) = some w →
          exec (.easelMemWrite pair tag) s = .next { s with
            dg := finish (writeProtect (writeSpan m viaPort1 a ((c.payload.drop 24).take (w - a))).1 w) c stFailed 6 [] }))) ∧
    (∀ u, c.f 4 1 = u → TurnOf m pair tag 0x009B c → easelRefusal m c 24 none false false false = none → u < 8 → c.f 5 1 < 2 →
      (4 ≤ u → 1 ≤ c.f 6 1 ∧ c.f 6 1 < 4) → c.f 7 1 = 0 → Answers (.easelBreak pair tag) s c
        (with_ { e with brk := SMap.set e.brk (8 * x + u) ⟨decide (c.f 5 1 = 1), c.f 6 1, c.f 8 8, c.f 16 8⟩ }) []) ∧
    (TurnOf m pair tag 0x009C c → easelRefusal m c 5 none false true true = none → c.f 4 1 < 2 →
      ∃ m', Answers (.easelStr pair tag) s c m' [] ∧ { m' with ctx := m.ctx } = m ∧ (∀ d, d ≠ x → getCtx m' d = getCtx m d) ∧
        regsOf m' x = { regsOf m x with
          mode := if c.f 4 1 = 1 then .str else if (regsOf m x).mode = .str then .supervisor else (regsOf m x).mode }) ∧
    (TurnOf m pair tag 0x009D c → easelRefusal m c 20 none false false false = none → c.f 5 3 = 0 → c.f 16 4 % 16 = 0 →
      (c.f 4 1 = 0 → Answers (.easelTrace pair tag) s c
        (with_ { e with trace := SMap.set e.trace x { SMap.get e.trace x with enable := false } })
        (leBytes 4 (SMap.get e.trace x).written)) ∧
      (c.f 4 1 = 1 → c.f 16 4 = 0 ∨ windowReach m x true (c.f 8 8) (c.f 16 4) = false → Refuses (.easelTrace pair tag) s c stDenied 4) ∧
      (c.f 4 1 = 1 → 0 < c.f 16 4 → windowReach m x true (c.f 8 8) (c.f 16 4) = true → Answers (.easelTrace pair tag) s c
        (with_ { e with trace := SMap.set e.trace x ⟨true, c.f 8 8, c.f 16 4, 0⟩ }) (leBytes 4 0))) ∧
    (∀ port mac (payload : List Byte) r, port < 12 → (getEth m port).st = .up → portRec m port = some r → bit (r.f 2 1) 0 = true →
      bit (r.f 2 1) 4 = true → recs m 0x0021 ≠ [] → payload.length + 14 ≤ maxFrame m port →
      let l := payload.drop 2
      let req := l.take (16 + leAt l 8 4)
      (∀ m1, leAt payload 0 1 = 31 → leAt payload 1 1 = 0 → hwPublish m (reqQ 31) 0x3F req = (m1, true) →
        exec (.easelFrameReceived port mac payload) s = .next
          { s with dg := { m1 with easel := { m1.easel with macs := m1.easel.macs ++ [(leAt req 0 2, some (port, mac))] } } }) ∧
      (∀ m1, leAt payload 0 1 = 31 → leAt payload 1 1 = 0 → hwPublish m (reqQ 31) 0x3F req = (m1, false) →
        exec (.easelFrameReceived port mac payload) s = .next { s with dg := m1 }) ∧
      (leAt payload 0 1 ≠ 31 ∨ leAt payload 1 1 ≠ 0 → exec (.easelFrameReceived port mac payload) s = .next s)) ∧
    (∀ bits : Nat,
      let free := Config.freeValue m.freeCount % 2 ^ boundaryLength
      let cells := bits % 2 ^ boundaryLength
      exec (.samplePreload bits) s = .next
        { s with dg := { m with freeCount := m.freeCount + 1, easel := { e with ir := 0x02, dr := free, bsr := cells, driven := none } } } ∧
      ∃ t, exec (.extest bits) s = .next t ∧ t.dg = { m with freeCount := m.freeCount + 1, easel := { e with
            ir := 0x00, dr := free, bsr := cells, driven := some cells } } ∧
        landsDriven t.dg = if extestAllowed m then some cells else none) ∧
    (extestAllowed m = false → landsDriven m = none) ∧
    (∃ t, exec .idcode s = .next t ∧ t.dg.easel.ir = 0x01 ∧ t.dg.easel.dr % 2 = 1 ∧
      t.dg.easel.dr / 2 ^ 12 % 2 ^ 16 = 0x0D69 ∧ t.dg.easel.dr / 2 ^ 28 = m.part.stepDigit % 16 ∧ t.dg.easel.driven = none ∧
      { t.dg with easel := e } = m) ∧
    exec .bypass s = .next { s with dg := with_ { e with ir := 0xFF, dr := 0, driven := none } } ∧
    (∀ w : BitVec 32,
      let tapped (e : Easel) : Easel := { e with ir := 0x10, dr := w.toNat, driven := none }
      let l := e.reqBuf ++ leBytes 4 w.toNat
      let n := 16 + leAt l 8 4
      (reqFree m = false → exec (.mboxWr w) s = .next { s with dg := with_ { tapped e with overrun := true } }) ∧
      (reqFree m = true → l.length < 12 ∨ l.length < n →
        exec (.mboxWr w) s = .next { s with dg := with_ { tapped e with reqBuf := l } }) ∧
      (∀ m1, reqFree m = true → 12 ≤ l.length → n ≤ l.length →
        hwPublish (with_ { tapped e with reqBuf := [] }) (reqQ 31) 0x3F (l.take n) = (m1, true) → exec (.mboxWr w) s = .next
          { s with dg := { m1 with easel := { m1.easel with macs := m1.easel.macs ++ [(leAt (l.take n) 0 2, none)] } } }) ∧
      (∀ m1, reqFree m = true → 12 ≤ l.length → n ≤ l.length →
        hwPublish (with_ { tapped e with reqBuf := [] }) (reqQ 31) 0x3F (l.take n) = (m1, false) →
        exec (.mboxWr w) s = .next { s with dg := m1 })) ∧
    (tapResponse m = none → exec .mboxRd s = .next { s with dg := with_ { e with ir := 0x11, dr := 0, driven := none } }) ∧
    (∀ msg, tapResponse m = some msg →
      let l := msg.drop 16
      let tapped : Easel := { e with ir := 0x11, dr := leAt l e.respPos 4, driven := none }
      (e.respPos + 4 < l.length → exec .mboxRd s = .next { s with dg := with_ { tapped with respPos := e.respPos + 4 } }) ∧
      (l.length ≤ e.respPos + 4 → ∃ t, exec .mboxRd s = .next t ∧
        t.dg.easel = { tapped with respPos := 0, macs := t.dg.easel.macs } ∧
        (∀ i, easelAnswers e.macs msg = some i → t.dg.easel.macs = if bit (leAt msg 22 1) 0 then e.macs.eraseIdx i else e.macs) ∧
        (easelAnswers e.macs msg = none → t.dg.easel.macs = e.macs) ∧
        (getQ t.dg (respQ 31)).rd = idxAdd (getQ m (respQ 31)).rd 1)) ∧
    (∃ t, exec .mboxStatus s = .next t ∧
      t.dg.easel = { e with ir := 0x12, dr := t.dg.easel.dr, overrun := false, driven := none } ∧
      (bit t.dg.easel.dr 0 = reqFree m) ∧ (bit t.dg.easel.dr 1 = (tapResponse m).isSome) ∧ (bit t.dg.easel.dr 2 = e.overrun) ∧
      t.dg.easel.dr / 256 % 256 = responsesWaiting m % 256 ∧ { t.dg with easel := e } = m)

/-! ### The start (spec/08 R411 to R420, R429, R449, R450) -/

/-- Table 08.1, R411 to R419, R450, R520: a step whose turn has not come does nothing; a step that is due ends, shows itself in
MBX_STATUS.STEP and makes the next one due, with its own effect done; a failure that resets the chip counts, writes its
pentimento record and begins the start again, and the third in a row enters recovery; start-up BISTs and the audit after
S15 do what the rules give; an audit whose engine reports a mismatch is still due, the model's choice
(notes/assumptions/120.md). -/
def Obligations.StartSteps : Prop :=
  ∀ (s : State),
    let m := s.dg
    let b := m.boot
    let can (k : Nat) (waits : List Nat) : Prop :=
      b.due = some k ∧ unpowered m = false ∧ exeshDown m = false ∧ ∀ d a, d ∈ waits → SMap.get b.bist d ≠ .due a
    let ends (i : Instr) (k : Nat) (p : Dg → Prop) : Prop :=
      ∃ t, exec i s = .next t ∧ t.dg.boot.due = some (k + 1) ∧ t.dg.mbx.step = k ∧ p t.dg
    let recovers (i : Instr) : Prop :=
      ∃ t, exec i s = .next t ∧ t.dg.boot.recovery = true ∧ t.dg.boot.due = none ∧ t.dg.mbx.state = 4
    let extended (i : Nat) (v : List Byte) (t : Dg) : Prop :=
      SMap.get t.boot.meas i = ofLe (sha384Of (leBytes 48 (SMap.get b.meas i) ++ v))
    let agreed (i : Nat) : Prop := ctrAgree m i (ctrValue m i) = 3
    (∀ i k, (i, k) ∈ ([(.s00SupplyCheck true, 0), (.s00SupplyCheck false, 0), (.s01GessoSelfCheck true, 1),
        (.s01GessoSelfCheck false, 1), (.s03LaneSync true, 3), (.s03LaneSync false, 3), (.s05CodeStoreIntegrity, 5),
        (.s10PaletteInit true, 10), (.s10PaletteInit false, 10), (.s13ApplicationMeasure, 13), (.s15Complete, 15)]
          : List (Instr × Nat)) →
      b.due ≠ some k ∨ unpowered m = true ∨ exeshDown m = true → exec i s = .next s) ∧
    (∀ ok kat tr okA okB lock l,
      (b.due ≠ some 2 ∨ unpowered m = true ∨ exeshDown m = true → exec (.s02KeyStoreUnlock ok kat) s = .next s) ∧
      (b.due ≠ some 4 ∨ unpowered m = true ∨ exeshDown m = true → exec (.s04ResultCheck tr) s = .next s) ∧
      (b.due ≠ some 6 ∨ unpowered m = true ∨ exeshDown m = true → exec (.s06ExeshLoad okA okB) s = .next s) ∧
      (b.due ≠ some 7 ∨ unpowered m = true ∨ exeshDown m = true → exec (.s07PllLock lock) s = .next s) ∧
      (b.due ≠ some 8 ∨ unpowered m = true ∨ exeshDown m = true → exec (.s08DramTraining okA okB) s = .next s) ∧
      (b.due ≠ some 9 ∨ unpowered m = true ∨ exeshDown m = true → exec (.s09CanvasInit l) s = .next s) ∧
      (b.due ≠ some 11 ∨ unpowered m = true ∨ exeshDown m = true → exec (.s11StudioBringup l) s = .next s) ∧
      (b.due ≠ some 12 ∨ unpowered m = true ∨ exeshDown m = true → exec (.s12NetworkBringup l) s = .next s) ∧
      (b.due ≠ some 14 ∨ unpowered m = true ∨ exeshDown m = true → exec (.s14PartitionStart l) s = .next s)) ∧
    (∀ i k waits causes kat (lock : BitVec 4),
      (i, k, waits, causes) ∈ ([(.s00SupplyCheck false, 0, [], [2]), (.s01GessoSelfCheck false, 1, [], [3]),
        (.s02KeyStoreUnlock false kat, 2, [], [3]), (.s03LaneSync false, 3, [], [0xB]), (.s07PllLock lock, 7, [], [9]),
        (.s10PaletteInit false, 10, [48, 49], [3, 7])] : List (Instr × Nat × List Nat × List Nat)) →
      (i = .s07PllLock lock → lock.getLsbD 0 = false ∧ lock.getLsbD 2 = false ∨
        lock.getLsbD 1 = false ∧ lock.getLsbD 3 = false) →
      can k waits →
      ∃ t p rest, exec i s = .next t ∧ t.dg.boot.pent = p :: rest ∧ p.step = k ∧
        p.attempt = satInc 8 (SMap.get b.attempts k) ∧ p.cause ∈ causes ∧
        (2 ≤ SMap.get b.attempts k → p.action = 2 ∧ t.dg.boot.recovery = true ∧ t.dg.boot.due = none ∧ t.dg.mbx.state = 4) ∧
        (SMap.get b.attempts k < 2 → p.action = 0 ∧ t.dg.boot.recovery = b.recovery ∧ t.dg.boot.due = some 0 ∧
          t.dg.pwr.mode = .drive ∧ ∀ i, SMap.get t.dg.boot.meas i = 0)) ∧
    (can 0 [] → ends (.s00SupplyCheck true) 0 fun t =>
      ctrValue t 4 = (ctrValue m 4 + 1) % 2 ^ 64 ∧ SMap.get t.boot.attempts 0 = 0 ∧
      (m.pwr.inA.ok = true ∨ m.pwr.inB.ok = true → t.pwr.inA = m.pwr.inA ∧ t.pwr.inB = m.pwr.inB) ∧
      (m.pwr.inA.ok = false → m.pwr.inB.ok = false →
        t.pwr.inA.ok = true ∧ 7000 ≤ t.pwr.inA.mv ∧ t.pwr.inA.mv ≤ 60000)) ∧
    (can 1 [] → ends (.s01GessoSelfCheck true) 1 fun t =>
      extended 0 (sha384Of romBytes) t ∧ (∀ i, i ≠ 0 → SMap.get t.boot.meas i = SMap.get b.meas i) ∧ t.mem = m.mem) ∧
    (∀ kat : BitVec 7, can 2 [] → (SMap.get m.pwr.dom 58).failed = false → ends (.s02KeyStoreUnlock true kat) 2 fun t =>
      t.sec.keysReady = true ∧ t.sec.trngOk = kat.getLsbD 6 ∧ t.pwr.aonLost = false ∧
      (∀ e, e < 7 → bit t.sec.katFail e = (bit m.sec.katFail e || !kat.getLsbD e)) ∧
      (m.errs = [] → t.mbx.keys = m.mbx.keys ∧ t.mbx.pass = m.mbx.pass ∧ t.mem = m.mem) ∧
      (m.pwr.aonLost = true → t.sec.rtcValid = false ∧ t.sec.restored = true ∧ t.sec.restoredDue = true)) ∧
    (can 3 [] → ends (.s03LaneSync true) 3 fun t => t.mbx.lanes = 7 ∧ t.mem = m.mem ∧ t.ctx = m.ctx) ∧
    (∀ tr : Triple, can 4 [] → ends (.s04ResultCheck tr) 4 fun t =>
      SMap.get t.boot.shutRec 60 = ⟨bistResult (SMap.get m.bistExp 63) tr, tr⟩ ∧
      (∀ d, d < 60 → testsLater m d = true → SMap.get t.boot.bist d = SMap.get b.bist d) ∧
      ∀ d, d < 60 → (SMap.get b.shutRec d).result = .pass ∨ (∀ i, i < 4 → startMod m (8 + i) ≠ 1) →
        SMap.get t.boot.bist d = if (SMap.get b.shutRec d).result = .pass then SMap.get b.bist d else .due false) ∧
    (can 5 [51] → (∀ i, i < 6 → agreed i) →
      (slotChoice m = none → recovers .s05CodeStoreIntegrity) ∧
      (∀ n, slotChoice m = some n → ends .s05CodeStoreIntegrity 5 fun t =>
        t.boot.cfgActive = n ∧ t.cfg = slotRecs m n ∧ extended 2 (blobDigest m (4 + n)) t ∧
        ∀ k, k < 6 → imgHeld m k = true →
          if bankUsable m k = true then getImg t k = getImg m k else (getImg t k).st = .failed)) ∧
    (∀ okA okB, can 6 [] →
      let m := ctrSettle m 0
      let first := if b.exeshFirst = 0 then 0 else 1
      let good (k : Nat) : Prop :=
        bankUsable m k = true ∧ imgReads m k 4096 (imgField m k 144 8) = true ∧ (if k = 0 then okA else okB) = true
      (¬ good 0 → ¬ good 1 → recovers (.s06ExeshLoad okA okB)) ∧
      (∀ k, (k = first ∧ good k) ∨ (k = 1 - first ∧ good k ∧ ¬ good first) → ends (.s06ExeshLoad okA okB) 6 fun t =>
        t.mbx.bank = k ∧ t.mbx.state = 1 ∧ t.bistExp = expectedOf m k ∧ extended 1 (sha384Of (residentOf m k)) t ∧
        ∀ i, i < (residentOf m k).length → peek t (sramBase + i) = (residentOf m k).getD i 0)) ∧
    (∀ lock : BitVec 4, can 7 [] → lock.getLsbD 0 = true ∨ lock.getLsbD 2 = true → lock.getLsbD 1 = true ∨ lock.getLsbD 3 = true →
      ends (.s07PllLock lock) 7 fun t => t.pwr.lock = lock.toNat ∧ (∀ p, p < 4 → bit t.pwr.failover p = !lock.getLsbD p) ∧
        t.fcr.policyLoaded = true ∧ t.fcr.clkLost = false ∧ t.fcr.pinSev = modField m 38 1 2) ∧
    (∀ cachedOk fullOk, can 8 [50] → ends (.s08DramTraining cachedOk fullOk) 8 fun t =>
      (domBad m 50 = true → t.drc.up = false) ∧
      (domBad m 50 = false → m.drc.cached = true → cachedOk = true →
        t.drc.up = true ∧ t.drc.trained = true ∧ t.drc.cached = true) ∧
      (domBad m 50 = false → m.drc.cached = false ∨ cachedOk = false →
        t.drc.up = fullOk ∧ t.drc.trained = fullOk ∧ t.drc.cached = fullOk) ∧
      (∀ k, bit t.drc.tmrFirst k = (recs m 0x0006).any fun r => r.f 0 1 == k) ∧
      ∀ k, bit t.drc.tmrHidden k = (recs m 0x0006).any fun r => r.f 0 1 + 1 == k || r.f 0 1 + 2 == k) ∧
    (∀ bad, can 9 [44, 45, 46, 47] → ends (.s09CanvasInit bad) 9 fun t =>
      t.cnv.scrubS = modField m 16 2 4 ∧ t.cnv.testS = modField m 20 4 2 ∧
      ∀ q k, q < 4 → k < 32 →
        let keep := bankKept m q k && !domBad m (44 + q)
        (∀ i, i < 0x80000 →
          let a := canvasBase + (32 * q + k) * 0x80000 + i
          peek t a = if keep = true then peek m a else 0) ∧
        (bad = [] → domBad m (44 + q) = false → (getBank t q k).power =
          if bankKept m q k = true ∨ (getBank m q k).retLost = true ∧ (getBank m q k).power ≠ .off then .on
          else match bankRec m q k with
            | some r => if bit (r.f 2 1) 0 then .on else .off
            | none => .off)) ∧
    (can 10 [48, 49] → domBad m 48 = false → domBad m 49 = false → ends (.s10PaletteInit true) 10 fun t =>
      ∀ q, (∀ r, r ∈ recs m 0x000E → q ≠ reqQ (r.f 0 1) ∧ q ≠ respQ (r.f 0 1)) →
        ((∀ r, r ∈ recs m 0x0008 → r.f 0 4 ≠ q) → getQ t q = default) ∧
        (∀ pre r post, recs m 0x0008 = pre ++ r :: post → r.f 0 4 = q → (∀ r', r' ∈ post → r'.f 0 4 ≠ q) →
          getQ t q = { newQueue (r.f 8 16) (r.f 24 2) (r.f 26 1) with filledAt := m.now, refills := 0 })) ∧
    (∀ bad, can 11 (List.range 44) → ends (.s11StudioBringup bad) 11 fun t =>
      (∀ c, c < 40 → c ∈ bad → (getCore t c).role = .excluded) ∧
      (∀ i, i < 4 → (∀ c, c < 40 → coreUsable m bad c = true) → domBad m (40 + i) = false →
        let mode := stModeOf (modField m i 1 0)
        (getStudio t i).mode = mode ∧
        (mode = .q → ∀ c, c < 10 → (getCore t (10 * i + c)).role = .qm) ∧
        (mode = .t → (getCore t (10 * i + 9)).role = .ready) ∧
        ∀ k, k < (match mode with | .t => 3 | .d => 4 | .q => 0) →
          let g := getGrp t (4 * i + k)
          let c (j : Nat) : Nat := 10 * i + (match mode with | .t => 3 * k | .d => 2 * k | .q => 0) + j
          g.state = .full ∧ g.pair = decide (mode = .d) ∧ g.laneA = some (c 0) ∧
          (mode = .t → g.laneB = some (c 1) ∧ g.laneC = some (c 2) ∧ g.pid = 1 + 3 * i + k) ∧
          (mode = .d → g.laneC = some (c 1)) ∧ (getCore t (c 0)).role = .active)) ∧
    (∀ bad, can 12 [52, 53, 54, 55, 56, 57, 58, 59] → ends (.s12NetworkBringup bad) 12 fun t =>
      (∀ n, n < 16 →
        let up := opened m 1 n && (canRec m n).isSome && !bad.contains (canSrc n) && !domBad m 52
        (m.fix.engaged = true → getCan t n = getCan m n) ∧ (up = false → m.fix.engaged = false → getCan t n = default) ∧
        (up = true → m.fix.engaged = false → getCan t n = { (default : CanCtl) with st := .active })) ∧
      (∀ p r, p < 14 → portRec m p = some r →
        let up := opened m 3 p && bit (r.f 2 1) 0 && !bad.contains (portSrc p) && !((portDoms p).any (domBad m))
        (m.fix.engaged = true → getEth t p = getEth m p) ∧ (up = false → m.fix.engaged = false → getEth t p = default) ∧
        (up = true → m.fix.engaged = false →
          getEth t p = { (default : EthPort) with st := if 12 ≤ p then .up else .down, macsec := bit (r.f 2 1) 3 })) ∧
      (domBad m 58 = true → t.sec.katFail = 0x7F ∧ t.sec.trngOk = false) ∧
      (∀ d, d ∈ [54, 55, 56, 57] → m.fix.engaged = false →
        let used := if d = 57 then recs m 0x0018 ≠ []
          else ∃ r, r ∈ recs m 0x0014 ∧ bit (r.f 2 1) 0 = true ∧ d ∈ portDoms (r.f 0 1)
        domOn t d = true ↔ domOn m d = true ∧ used)) ∧
    (can 13 [] → ends .s13ApplicationMeasure 13 fun t =>
      (∀ k, k < 2 → appOk m k = true → boundPids m k ≠ [] → appOk m (1 - k) = true →
        extended (3 + k) (imgBytes m (k + 2) 0 512) t) ∧
      (∀ p k, k < 2 → p ∈ (recs m 0x0002).map (fun r => r.f 0 1) → boundBank m p = k → partFlag m p 1 = true →
        appOk m k = false → bankUsable m (3 - k) = true → SMap.get t.boot.alt p = true) ∧
      (∀ a, (∀ k, k < 3 → a < copyAddr 1 k ∨ copyAddr 1 k + 128 ≤ a) → peek t a = peek m a) ∧ t.ctx = m.ctx) ∧
    (∀ bad, can 14 [] → ends (.s14PartitionStart bad) 14 fun t =>
      let m1 := { bindQueues m with wdg := (recs m 0x000B).foldl (fun t r => SMap.set t (r.f 0 1) (wdgOf r)) [] }
      ∀ r, recs m 0x0002 = [r] →
        let pid := r.f 0 1
        let image := partFlag m pid 1 || (recs m 0x0007).any fun r => r.f 0 1 == pid
        let up := partSeated m1 r && (!image || appOk m1 (bankOfPid m1 pid)) && !bad.contains pid && !(partSpans m1 pid).any (spanOff m1)
        (up = false → getPart t pid = getPart m pid) ∧
        (up = true → t.ctx = (startPartition m1 pid (recCtx r) false).ctx ∧ t.mem = (startPartition m1 pid (recCtx r) false).mem ∧
          getPart t pid = getPart (startPartition m1 pid (recCtx r) false) pid)) ∧
    (can 15 [] → ∃ t, exec .s15Complete s = .next t ∧ t.dg.boot.due = none ∧ t.dg.boot.recovery = false ∧ t.dg.mbx.step = 15 ∧
      (∀ k, SMap.get t.dg.boot.attempts k = 0) ∧
      (m.pwr.request = none → t.dg.mbx.state = 2 ∧ t.dg.mbx.supervisor = true ∧ (regsOf t.dg 56).mode = .supervisor ∧
        t.dg.sec.journalReady = true ∧ t.dg.boot.cfgFallback = none ∧ extended 5 (startSummary m) t.dg ∧
        (agreed 0 → agreed 2 → ctrValue t.dg 0 = max (ctrValue m 0) (imgSvn m m.mbx.bank) ∧
          ctrValue t.dg 2 = max (ctrValue m 2) (imgSvn m (4 + b.cfgActive))))) ∧
    (∀ dom (tr : Triple),
      let res := bistResult (SMap.get m.bistExp (if dom < 40 then 0 else 3 + dom)) tr
      let after (v : StartBist) : Prop :=
        exec (.startupBistComplete dom tr) s = .next { s with dg := { m with boot := { b with bist := SMap.set b.bist dom v } } }
      ((∀ a, SMap.get b.bist dom ≠ .due a) ∨ unpowered m = true → exec (.startupBistComplete dom tr) s = .next s) ∧
      (∀ again, SMap.get b.bist dom = .due again → unpowered m = false →
        (res = .pass → after .pass) ∧ (res = .incomplete → after (if again then .fail else .due true)) ∧
        (res ≠ .pass → res ≠ .incomplete → after .fail))) ∧
    (∀ bank,
      let left := b.audit.filter fun k => k != bank
      let read := digestsOk { m with boot := { b with audit := left } } (bank + 2)
      (∀ bad, bank ∉ b.audit ∨ unpowered m = true → exec (.auditDigest bank bad) s = .next s) ∧
      (bank ∈ b.audit → unpowered m = false →
        exec (.auditDigest bank true) s = .next { s with dg := reportOpen m 0x0D3 kEngineMismatch 0 }) ∧
      (∀ m1, bank ∈ b.audit → unpowered m = false → read = (m1, true) → exec (.auditDigest bank false) s = .next { s with dg := m1 }) ∧
      (∀ m1, bank ∈ b.audit → unpowered m = false → read = (m1, false) →
        ∃ t p rest, exec (.auditDigest bank false) s = .next t ∧ t.dg.boot.audit = left ∧
          (getImg t.dg (bank + 2)).st = .failed ∧ t.dg.boot.pent = p :: rest ∧ p.step = 13 ∧ p.cause = 0xD ∧
          p.unit = bank + 2 ∧ p.action = 1 ∧ t.dg.mem = m1.mem ∧ t.dg.ctx = m1.ctx ∧ t.dg.stu = m1.stu)) ∧
    (∀ (m : Dg) (k : Nat), (digestsOk m k).2 = true ↔ ∃ p, (readSpan m viaPort1 (bankBase k + 4096) (imgPayLen m k)).2 = some p ∧
      (let m1 := (digestsOk m k).1
       imgDigest m1 k = sha384Of p ∧ imgBytes m1 k 88 48 = sha3Of p))

/-! ### The machine as a whole -/

/-- The command that has waited longest is taken from the front of the queue and carried out on the module with the rest of
the queue; no command looks at or changes the queue, and none stops the module; with an empty queue one unit of the time
base passes (notes/assumptions/3.md, the model's choice). -/
def Obligations.StepRunsFront : Prop :=
  (∀ (s : State) (i : Instr) (rest : List Instr), s.pending = i :: rest → step s = exec i { s with pending := rest }) ∧
  (∀ (s : State) (i : Instr), step (s.withFront i) = exec i s) ∧
  (∀ s : State, s.pending = [] → step s = .next { s with dg := { s.dg with now := s.dg.now + 1 } }) ∧
  (∀ (i : Instr) (d : Dg), ∃ d', ∀ q, exec i { dg := d, pending := q } = .next { dg := d', pending := q }) ∧
  (∀ s t : State, step s = .next t → t.pending = s.pending.drop 1 ∧ (s.pendingOk = true → t.pendingOk = true))

/-- R84, R94, R255, R396, R411, R416, R467 and the Reset columns of the register tables: what the state after reset holds.
That nothing is listed in memory and that no command waits is the model's choice (notes/assumptions/1.md, 2.md). -/
def Obligations.ResetState : Prop :=
  let m := State.reset.dg
  (∀ c, c < 57 →
    let r := regsOf m c
    (∀ n, r.getD n = 0 ∧ r.getA n = 0) ∧
    (∀ n, SMap.get r.acc n = 0 ∧ SMap.get r.ls n = 0 ∧ SMap.get r.le n = 0 ∧ SMap.get r.lc n = 0 ∧ SMap.get r.bk n = 0) ∧
    r.repcnt = 0 ∧ r.mode = .str ∧ r.ie = false ∧ r.ipl = 0 ∧ r.ldepth = 0 ∧ r.repact = false ∧ r.det = false ∧
    r.ecause = 0 ∧ r.eaddr = 0 ∧ r.evbase = 0 ∧ r.slimu = 0 ∧ r.slims = 0 ∧ r.crcpoly = 0 ∧ r.crcpolyv = 0 ∧
    r.fpcr = 1 ∧ r.fpsr = 0 ∧ r.fpti = 0 ∧ r.pmctl = 0 ∧ r.pmovf = 0 ∧ ∀ n, SMap.get r.pmc n = 0 ∧ SMap.get r.pmsel n = 0) ∧
  (∀ g, let x := getGrp m g
    x.state = .unused ∧ x.det = false ∧ x.pair = false ∧ x.pid = 0 ∧ x.laneA = none ∧ x.laneB = none ∧ x.laneC = none ∧
    x.cntFault = 0 ∧ x.cntPlanned = 0 ∧ x.evt.flags = 0) ∧
  (∀ q, getQ m q = default) ∧ m.fab.weights = 0x0001081018203040 ∧ (∀ d, SMap.get m.fab.digest d = default) ∧
  m.cnv.scrubS = 0 ∧ m.cnv.testS = 0 ∧ (∀ q b, (getBank m q b).power = .off ∧ (getBank m q b).corr = 0) ∧
  m.drc.tmrFirst = 0 ∧ m.drc.tmrHidden = 0 ∧ m.drc.corr = 0 ∧ m.drc.uncorr = 0 ∧
  m.mbx.state = 0 ∧ m.mbx.step = 0 ∧ m.mbx.out = [] ∧ m.mbx.sessions = [] ∧ m.easel.ir = 0x01 ∧ m.easel.attach = [] ∧
  m.boot.due = some 0 ∧ (∀ i, SMap.get m.boot.meas i = 0) ∧
  (∀ src, policyOf m src = Policy.reset) ∧ m.fcr.policyLoaded = false ∧ m.fcr.pinSev = 2 ∧ m.fcr.logNext = 0 ∧
  (∀ n, (SMap.get m.wdg n).configured = false) ∧ m.fix.engaged = false ∧
  m.sec.keysReady = false ∧ m.sec.journalReady = false ∧ (∀ n, (getCan m n).st = .disabled ∧ (getEth m n).st = .disabled) ∧
  m.pwr.mode = .drive ∧ m.now = 0 ∧
  m.mem = [] ∧ State.reset.memOk = true ∧ State.reset.pending = [] ∧ State.reset.pendingOk = true

/-- R302, R304: memory as bytes by address. A byte stored is read back and leaves every other byte; bytes stored one after
the other are read back; a range cleared reads 0 and nothing outside it changes; each keeps the canonical form. -/
def Obligations.MemoryReadAfterWrite : Prop :=
  ∀ (m : Dg) (a : Nat),
    (∀ b : Byte, peek (poke m a b) a = b ∧ (∀ x, x ≠ a → peek (poke m a b) x = peek m x) ∧
      (Memory.wf m.mem = true → Memory.wf (poke m a b).mem = true)) ∧
    (∀ l : List Byte, peeks (pokes m a l) a l.length = l ∧
      (∀ x, x < a ∨ a + l.length ≤ x → peek (pokes m a l) x = peek m x) ∧
      (Memory.wf m.mem = true → Memory.wf (pokes m a l).mem = true)) ∧
    (∀ len, (∀ x, peek (clearRange m a len) x = if a ≤ x ∧ x < a + len then 0 else peek m x) ∧
      (Memory.wf m.mem = true → Memory.wf (clearRange m a len).mem = true)) ∧
    (∀ n, n < 2 ^ 128 → peekWord (pokeWord m a n) a = n ∧
      ∀ x, x < wordOf a ∨ wordOf a + 16 ≤ x → peek (pokeWord m a n) x = peek m x) ∧
    (∀ x n : Dg, Memory.wf x.mem = true → Memory.wf n.mem = true → (∀ b, peek x b = peek n b) → x.mem = n.mem)

/-- Every step keeps the memory in its canonical form, whatever command it carries out and in whatever state. -/
def Obligations.StepKeepsMemoryForm : Prop :=
  ∀ s t : State, s.memOk = true → step s = .next t → t.memOk = true
end

