-- ==== Sys2Proof/Laws/Map.lean ====
section
/-! SUPPORT. Laws of sparse maps: a read after a write, and that every operation keeps the canonical form. -/
namespace Sys2Proof.Machine.SMap
variable {α : Type} [Inhabited α]

@[simp] theorem get_nil (k : Nat) : get ([] : SMap α) k = default := rfl

/-- A read of the key put gives the value put. -/
@[simp] theorem get_put_self (m : SMap α) (k : Nat) (v : α) : get (put m k v) k = v := by
  induction m with
  | nil => simp [put, get]
  | cons e r ih =>
    obtain ⟨k', v'⟩ := e
    simp only [put]
    split
    · rename_i h; simp [get, ih, Nat.ne_of_lt h]
    · split
      · simp [get]
      · simp [get]

/-- A read of another key is as before the put. -/
theorem get_put_other (m : SMap α) (k : Nat) (v : α) {j : Nat} (h : j ≠ k) :
    get (put m k v) j = get m j := by
  induction m with
  | nil => simp [put, get, Ne.symm h]
  | cons e r ih =>
    obtain ⟨k', v'⟩ := e
    simp only [put]
    split
    · simp [get, ih]
    · split
      · rename_i hk; subst hk; simp [get, Ne.symm h]
      · simp [get, Ne.symm h]

@[simp] theorem get_del_self (m : SMap α) (k : Nat) : get (del m k) k = default := by
  induction m with
  | nil => rfl
  | cons e r ih =>
    obtain ⟨k', v'⟩ := e
    unfold del at *
    rw [List.filter_cons]
    split
    · rename_i h
      have h : k' ≠ k := by simpa using h
      simpa [get, h] using ih
    · exact ih

theorem get_del_other (m : SMap α) (k : Nat) {j : Nat} (h : j ≠ k) : get (del m k) j = get m j := by
  induction m with
  | nil => rfl
  | cons e r ih =>
    obtain ⟨k', v'⟩ := e
    unfold del at *
    rw [List.filter_cons]
    split
    · simp [get, ih]
    · rename_i hk
      have hk : k' = k := by simpa using hk
      subst hk
      simpa [get, Ne.symm h] using ih

variable [DecidableEq α]

/-- A read after a write to the same key gives the value written. -/
@[simp] theorem get_set_self (m : SMap α) (k : Nat) (v : α) : get (set m k v) k = v := by
  unfold set
  split
  · rename_i h; simp [h]
  · simp

/-- A write leaves every other key alone. -/
theorem get_set_other (m : SMap α) (k : Nat) (v : α) {j : Nat} (h : j ≠ k) : get (set m k v) j = get m j := by
  unfold set
  split
  · exact get_del_other m k h
  · exact get_put_other m k v h

theorem get_set (m : SMap α) (k : Nat) (v : α) (j : Nat) :
    get (set m k v) j = if j = k then v else get m j := by
  split
  · rename_i h; subst h; simp
  · rename_i h; exact get_set_other m k v h

@[simp] theorem get_upd_self (m : SMap α) (k : Nat) (f : α → α) : get (upd m k f) k = f (get m k) := by
  simp [upd]

theorem get_upd_other (m : SMap α) (k : Nat) (f : α → α) {j : Nat} (h : j ≠ k) :
    get (upd m k f) j = get m j := get_set_other m k _ h

/-! ### The canonical form -/

omit [Inhabited α] [DecidableEq α] in
theorem rising_cons (e : Nat × α) (r : SMap α) :
    rising (e :: r) = (r.all (fun x => decide (e.1 < x.1)) && rising r) := by
  induction r generalizing e with
  | nil => simp [rising]
  | cons x r ih =>
    obtain ⟨k, v⟩ := e
    obtain ⟨k', v'⟩ := x
    simp only [rising]
    rw [ih (k', v')]
    simp only [List.all_cons]
    by_cases h : k < k'
    · simp only [h, decide_true, Bool.true_and]
      by_cases h2 : (r.all fun x => decide (k' < x.1)) = true
      · have h3 : (r.all fun x => decide (k < x.1)) = true := by
          simp only [List.all_eq_true, decide_eq_true_eq] at *
          intro x hx; exact Nat.lt_trans h (h2 x hx)
        simp [h2, h3]
      · simp [h2]
    · simp [h]

omit [Inhabited α] [DecidableEq α] in
theorem rising_filter (m : SMap α) (p : Nat × α → Bool) (h : rising m = true) :
    rising (List.filter p m) = true := by
  induction m with
  | nil => rfl
  | cons e r ih =>
    rw [rising_cons, Bool.and_eq_true] at h
    simp only [List.filter]
    split
    · rw [rising_cons, Bool.and_eq_true]
      refine ⟨?_, ih h.2⟩
      simp only [List.all_eq_true, decide_eq_true_eq] at *
      intro x hx
      exact h.1 x (List.mem_filter.mp hx).1
    · exact ih h.2

theorem wf_filter (m : SMap α) (p : Nat × α → Bool) (h : wf m = true) : wf (List.filter p m) = true := by
  unfold wf at *
  rw [Bool.and_eq_true] at *
  refine ⟨rising_filter m p h.1, ?_⟩
  simp only [List.all_eq_true] at *
  intro x hx
  exact h.2 x (List.mem_filter.mp hx).1

theorem wf_del (m : SMap α) (k : Nat) (h : wf m = true) : wf (del m k) = true := wf_filter m _ h

omit [Inhabited α] [DecidableEq α] in
theorem mem_put (m : SMap α) (k : Nat) (v : α) {x : Nat × α} (h : x ∈ put m k v) : x = (k, v) ∨ x ∈ m := by
  induction m with
  | nil => simpa [put] using h
  | cons e r ih =>
    obtain ⟨k', v'⟩ := e
    simp only [put] at h
    split at h
    · rcases List.mem_cons.mp h with h | h
      · exact Or.inr (by simp [h])
      · rcases ih h with h | h
        · exact Or.inl h
        · exact Or.inr (List.mem_cons_of_mem _ h)
    · split at h
      · rcases List.mem_cons.mp h with h | h
        · exact Or.inl h
        · exact Or.inr (List.mem_cons_of_mem _ h)
      · rcases List.mem_cons.mp h with h | h
        · exact Or.inl h
        · exact Or.inr h

omit [Inhabited α] [DecidableEq α] in
theorem rising_put (m : SMap α) (k : Nat) (v : α) (h : rising m = true) : rising (put m k v) = true := by
  induction m with
  | nil => rfl
  | cons e r ih =>
    obtain ⟨k', v'⟩ := e
    rw [rising_cons, Bool.and_eq_true] at h
    simp only [List.all_eq_true, decide_eq_true_eq] at h
    simp only [put]
    split
    · rename_i hk
      rw [rising_cons, Bool.and_eq_true]
      refine ⟨?_, ih h.2⟩
      simp only [List.all_eq_true, decide_eq_true_eq]
      intro x hx
      rcases mem_put r k v hx with hx | hx
      · subst hx; exact hk
      · exact h.1 x hx
    · split
      · rename_i hk; subst hk
        rw [rising_cons, Bool.and_eq_true]
        refine ⟨?_, h.2⟩
        simpa using h.1
      · rename_i h1 h2
        have h3 : k < k' := by omega
        rw [rising_cons, Bool.and_eq_true]
        refine ⟨?_, ?_⟩
        · simp only [List.all_cons, List.all_eq_true, decide_eq_true_eq, Bool.and_eq_true]
          exact ⟨h3, fun x hx => Nat.lt_trans h3 (h.1 x hx)⟩
        · rw [rising_cons, Bool.and_eq_true]
          exact ⟨by simpa using h.1, h.2⟩

/-- Writing a key keeps the canonical form. -/
theorem wf_set (m : SMap α) (k : Nat) (v : α) (h : wf m = true) : wf (set m k v) = true := by
  unfold set
  split
  · exact wf_del m k h
  · rename_i hv
    unfold wf at *
    rw [Bool.and_eq_true] at *
    refine ⟨rising_put m k v h.1, ?_⟩
    simp only [List.all_eq_true] at *
    intro x hx
    rcases mem_put m k v hx with hx | hx
    · subst hx; simpa using hv
    · exact h.2 x hx

end Sys2Proof.Machine.SMap
end

