-- ==== Sys2Proof/Laws/State.lean ====
section
/-! SUPPORT. One lemma per field and update of the module: what an update leaves, by definition, so that no proof unfolds a
record update. -/
namespace Sys2Proof.Machine

@[simp] theorem setCtx_ctx (m : Dg) (c : CtxId) (x : Ctx) : (setCtx m c x).ctx = SMap.set m.ctx c x := rfl
@[simp] theorem setCtx_part (m : Dg) (c : CtxId) (x : Ctx) : (setCtx m c x).part = m.part := rfl
@[simp] theorem setCtx_mem (m : Dg) (c : CtxId) (x : Ctx) : (setCtx m c x).mem = m.mem := rfl
@[simp] theorem setCtx_errs (m : Dg) (c : CtxId) (x : Ctx) : (setCtx m c x).errs = m.errs := rfl
@[simp] theorem setCtx_cfg (m : Dg) (c : CtxId) (x : Ctx) : (setCtx m c x).cfg = m.cfg := rfl
@[simp] theorem setCtx_stu (m : Dg) (c : CtxId) (x : Ctx) : (setCtx m c x).stu = m.stu := rfl
@[simp] theorem setCtx_mbx (m : Dg) (c : CtxId) (x : Ctx) : (setCtx m c x).mbx = m.mbx := rfl
@[simp] theorem setCtx_easel (m : Dg) (c : CtxId) (x : Ctx) : (setCtx m c x).easel = m.easel := rfl
@[simp] theorem setCtx_boot (m : Dg) (c : CtxId) (x : Ctx) : (setCtx m c x).boot = m.boot := rfl
@[simp] theorem setCtx_fab (m : Dg) (c : CtxId) (x : Ctx) : (setCtx m c x).fab = m.fab := rfl
@[simp] theorem setCtx_cnv (m : Dg) (c : CtxId) (x : Ctx) : (setCtx m c x).cnv = m.cnv := rfl
@[simp] theorem setCtx_drc (m : Dg) (c : CtxId) (x : Ctx) : (setCtx m c x).drc = m.drc := rfl
@[simp] theorem setCtx_dma (m : Dg) (c : CtxId) (x : Ctx) : (setCtx m c x).dma = m.dma := rfl
@[simp] theorem setCtx_srcs (m : Dg) (c : CtxId) (x : Ctx) : (setCtx m c x).srcs = m.srcs := rfl
@[simp] theorem setCtx_fcr (m : Dg) (c : CtxId) (x : Ctx) : (setCtx m c x).fcr = m.fcr := rfl
@[simp] theorem setCtx_wdg (m : Dg) (c : CtxId) (x : Ctx) : (setCtx m c x).wdg = m.wdg := rfl
@[simp] theorem setCtx_supWdg (m : Dg) (c : CtxId) (x : Ctx) : (setCtx m c x).supWdg = m.supWdg := rfl
@[simp] theorem setCtx_fix (m : Dg) (c : CtxId) (x : Ctx) : (setCtx m c x).fix = m.fix := rfl
@[simp] theorem setCtx_ftest (m : Dg) (c : CtxId) (x : Ctx) : (setCtx m c x).ftest = m.ftest := rfl
@[simp] theorem setCtx_sec (m : Dg) (c : CtxId) (x : Ctx) : (setCtx m c x).sec = m.sec := rfl
@[simp] theorem setCtx_net (m : Dg) (c : CtxId) (x : Ctx) : (setCtx m c x).net = m.net := rfl
@[simp] theorem setCtx_pwr (m : Dg) (c : CtxId) (x : Ctx) : (setCtx m c x).pwr = m.pwr := rfl
@[simp] theorem setCtx_bistExp (m : Dg) (c : CtxId) (x : Ctx) : (setCtx m c x).bistExp = m.bistExp := rfl
@[simp] theorem setCtx_now (m : Dg) (c : CtxId) (x : Ctx) : (setCtx m c x).now = m.now := rfl
@[simp] theorem setCtx_freeCount (m : Dg) (c : CtxId) (x : Ctx) : (setCtx m c x).freeCount = m.freeCount := rfl

@[simp] theorem updCtx_part (m : Dg) (c : CtxId) (f : Ctx → Ctx) : (updCtx m c f).part = m.part := rfl
@[simp] theorem updCtx_mem (m : Dg) (c : CtxId) (f : Ctx → Ctx) : (updCtx m c f).mem = m.mem := rfl
@[simp] theorem updCtx_errs (m : Dg) (c : CtxId) (f : Ctx → Ctx) : (updCtx m c f).errs = m.errs := rfl
@[simp] theorem updCtx_cfg (m : Dg) (c : CtxId) (f : Ctx → Ctx) : (updCtx m c f).cfg = m.cfg := rfl
@[simp] theorem updCtx_stu (m : Dg) (c : CtxId) (f : Ctx → Ctx) : (updCtx m c f).stu = m.stu := rfl
@[simp] theorem updCtx_mbx (m : Dg) (c : CtxId) (f : Ctx → Ctx) : (updCtx m c f).mbx = m.mbx := rfl
@[simp] theorem updCtx_easel (m : Dg) (c : CtxId) (f : Ctx → Ctx) : (updCtx m c f).easel = m.easel := rfl
@[simp] theorem updCtx_boot (m : Dg) (c : CtxId) (f : Ctx → Ctx) : (updCtx m c f).boot = m.boot := rfl
@[simp] theorem updCtx_fab (m : Dg) (c : CtxId) (f : Ctx → Ctx) : (updCtx m c f).fab = m.fab := rfl
@[simp] theorem updCtx_cnv (m : Dg) (c : CtxId) (f : Ctx → Ctx) : (updCtx m c f).cnv = m.cnv := rfl
@[simp] theorem updCtx_drc (m : Dg) (c : CtxId) (f : Ctx → Ctx) : (updCtx m c f).drc = m.drc := rfl
@[simp] theorem updCtx_dma (m : Dg) (c : CtxId) (f : Ctx → Ctx) : (updCtx m c f).dma = m.dma := rfl
@[simp] theorem updCtx_srcs (m : Dg) (c : CtxId) (f : Ctx → Ctx) : (updCtx m c f).srcs = m.srcs := rfl
@[simp] theorem updCtx_fcr (m : Dg) (c : CtxId) (f : Ctx → Ctx) : (updCtx m c f).fcr = m.fcr := rfl
@[simp] theorem updCtx_wdg (m : Dg) (c : CtxId) (f : Ctx → Ctx) : (updCtx m c f).wdg = m.wdg := rfl
@[simp] theorem updCtx_supWdg (m : Dg) (c : CtxId) (f : Ctx → Ctx) : (updCtx m c f).supWdg = m.supWdg := rfl
@[simp] theorem updCtx_fix (m : Dg) (c : CtxId) (f : Ctx → Ctx) : (updCtx m c f).fix = m.fix := rfl
@[simp] theorem updCtx_ftest (m : Dg) (c : CtxId) (f : Ctx → Ctx) : (updCtx m c f).ftest = m.ftest := rfl
@[simp] theorem updCtx_sec (m : Dg) (c : CtxId) (f : Ctx → Ctx) : (updCtx m c f).sec = m.sec := rfl
@[simp] theorem updCtx_net (m : Dg) (c : CtxId) (f : Ctx → Ctx) : (updCtx m c f).net = m.net := rfl
@[simp] theorem updCtx_pwr (m : Dg) (c : CtxId) (f : Ctx → Ctx) : (updCtx m c f).pwr = m.pwr := rfl
@[simp] theorem updCtx_bistExp (m : Dg) (c : CtxId) (f : Ctx → Ctx) : (updCtx m c f).bistExp = m.bistExp := rfl
@[simp] theorem updCtx_now (m : Dg) (c : CtxId) (f : Ctx → Ctx) : (updCtx m c f).now = m.now := rfl
@[simp] theorem updCtx_freeCount (m : Dg) (c : CtxId) (f : Ctx → Ctx) : (updCtx m c f).freeCount = m.freeCount := rfl

@[simp] theorem setQ_part (m : Dg) (q : Nat) (x : Queue) : (setQ m q x).part = m.part := rfl
@[simp] theorem setQ_ctx (m : Dg) (q : Nat) (x : Queue) : (setQ m q x).ctx = m.ctx := rfl
@[simp] theorem setQ_mem (m : Dg) (q : Nat) (x : Queue) : (setQ m q x).mem = m.mem := rfl
@[simp] theorem setQ_errs (m : Dg) (q : Nat) (x : Queue) : (setQ m q x).errs = m.errs := rfl
@[simp] theorem setQ_cfg (m : Dg) (q : Nat) (x : Queue) : (setQ m q x).cfg = m.cfg := rfl
@[simp] theorem setQ_stu (m : Dg) (q : Nat) (x : Queue) : (setQ m q x).stu = m.stu := rfl
@[simp] theorem setQ_mbx (m : Dg) (q : Nat) (x : Queue) : (setQ m q x).mbx = m.mbx := rfl
@[simp] theorem setQ_easel (m : Dg) (q : Nat) (x : Queue) : (setQ m q x).easel = m.easel := rfl
@[simp] theorem setQ_boot (m : Dg) (q : Nat) (x : Queue) : (setQ m q x).boot = m.boot := rfl
@[simp] theorem setQ_cnv (m : Dg) (q : Nat) (x : Queue) : (setQ m q x).cnv = m.cnv := rfl
@[simp] theorem setQ_drc (m : Dg) (q : Nat) (x : Queue) : (setQ m q x).drc = m.drc := rfl
@[simp] theorem setQ_dma (m : Dg) (q : Nat) (x : Queue) : (setQ m q x).dma = m.dma := rfl
@[simp] theorem setQ_srcs (m : Dg) (q : Nat) (x : Queue) : (setQ m q x).srcs = m.srcs := rfl
@[simp] theorem setQ_fcr (m : Dg) (q : Nat) (x : Queue) : (setQ m q x).fcr = m.fcr := rfl
@[simp] theorem setQ_wdg (m : Dg) (q : Nat) (x : Queue) : (setQ m q x).wdg = m.wdg := rfl
@[simp] theorem setQ_supWdg (m : Dg) (q : Nat) (x : Queue) : (setQ m q x).supWdg = m.supWdg := rfl
@[simp] theorem setQ_fix (m : Dg) (q : Nat) (x : Queue) : (setQ m q x).fix = m.fix := rfl
@[simp] theorem setQ_ftest (m : Dg) (q : Nat) (x : Queue) : (setQ m q x).ftest = m.ftest := rfl
@[simp] theorem setQ_sec (m : Dg) (q : Nat) (x : Queue) : (setQ m q x).sec = m.sec := rfl
@[simp] theorem setQ_net (m : Dg) (q : Nat) (x : Queue) : (setQ m q x).net = m.net := rfl
@[simp] theorem setQ_pwr (m : Dg) (q : Nat) (x : Queue) : (setQ m q x).pwr = m.pwr := rfl
@[simp] theorem setQ_bistExp (m : Dg) (q : Nat) (x : Queue) : (setQ m q x).bistExp = m.bistExp := rfl
@[simp] theorem setQ_now (m : Dg) (q : Nat) (x : Queue) : (setQ m q x).now = m.now := rfl
@[simp] theorem setQ_freeCount (m : Dg) (q : Nat) (x : Queue) : (setQ m q x).freeCount = m.freeCount := rfl

@[simp] theorem updQ_part (m : Dg) (q : Nat) (f : Queue → Queue) : (updQ m q f).part = m.part := rfl
@[simp] theorem updQ_ctx (m : Dg) (q : Nat) (f : Queue → Queue) : (updQ m q f).ctx = m.ctx := rfl
@[simp] theorem updQ_mem (m : Dg) (q : Nat) (f : Queue → Queue) : (updQ m q f).mem = m.mem := rfl
@[simp] theorem updQ_errs (m : Dg) (q : Nat) (f : Queue → Queue) : (updQ m q f).errs = m.errs := rfl
@[simp] theorem updQ_cfg (m : Dg) (q : Nat) (f : Queue → Queue) : (updQ m q f).cfg = m.cfg := rfl
@[simp] theorem updQ_stu (m : Dg) (q : Nat) (f : Queue → Queue) : (updQ m q f).stu = m.stu := rfl
@[simp] theorem updQ_mbx (m : Dg) (q : Nat) (f : Queue → Queue) : (updQ m q f).mbx = m.mbx := rfl
@[simp] theorem updQ_easel (m : Dg) (q : Nat) (f : Queue → Queue) : (updQ m q f).easel = m.easel := rfl
@[simp] theorem updQ_boot (m : Dg) (q : Nat) (f : Queue → Queue) : (updQ m q f).boot = m.boot := rfl
@[simp] theorem updQ_cnv (m : Dg) (q : Nat) (f : Queue → Queue) : (updQ m q f).cnv = m.cnv := rfl
@[simp] theorem updQ_drc (m : Dg) (q : Nat) (f : Queue → Queue) : (updQ m q f).drc = m.drc := rfl
@[simp] theorem updQ_dma (m : Dg) (q : Nat) (f : Queue → Queue) : (updQ m q f).dma = m.dma := rfl
@[simp] theorem updQ_srcs (m : Dg) (q : Nat) (f : Queue → Queue) : (updQ m q f).srcs = m.srcs := rfl
@[simp] theorem updQ_fcr (m : Dg) (q : Nat) (f : Queue → Queue) : (updQ m q f).fcr = m.fcr := rfl
@[simp] theorem updQ_wdg (m : Dg) (q : Nat) (f : Queue → Queue) : (updQ m q f).wdg = m.wdg := rfl
@[simp] theorem updQ_supWdg (m : Dg) (q : Nat) (f : Queue → Queue) : (updQ m q f).supWdg = m.supWdg := rfl
@[simp] theorem updQ_fix (m : Dg) (q : Nat) (f : Queue → Queue) : (updQ m q f).fix = m.fix := rfl
@[simp] theorem updQ_ftest (m : Dg) (q : Nat) (f : Queue → Queue) : (updQ m q f).ftest = m.ftest := rfl
@[simp] theorem updQ_sec (m : Dg) (q : Nat) (f : Queue → Queue) : (updQ m q f).sec = m.sec := rfl
@[simp] theorem updQ_net (m : Dg) (q : Nat) (f : Queue → Queue) : (updQ m q f).net = m.net := rfl
@[simp] theorem updQ_pwr (m : Dg) (q : Nat) (f : Queue → Queue) : (updQ m q f).pwr = m.pwr := rfl
@[simp] theorem updQ_bistExp (m : Dg) (q : Nat) (f : Queue → Queue) : (updQ m q f).bistExp = m.bistExp := rfl
@[simp] theorem updQ_now (m : Dg) (q : Nat) (f : Queue → Queue) : (updQ m q f).now = m.now := rfl
@[simp] theorem updQ_freeCount (m : Dg) (q : Nat) (f : Queue → Queue) : (updQ m q f).freeCount = m.freeCount := rfl

@[simp] theorem updLink_part (m : Dg) (k : Nat) (f : LinkSt → LinkSt) : (updLink m k f).part = m.part := rfl
@[simp] theorem updLink_ctx (m : Dg) (k : Nat) (f : LinkSt → LinkSt) : (updLink m k f).ctx = m.ctx := rfl
@[simp] theorem updLink_mem (m : Dg) (k : Nat) (f : LinkSt → LinkSt) : (updLink m k f).mem = m.mem := rfl
@[simp] theorem updLink_errs (m : Dg) (k : Nat) (f : LinkSt → LinkSt) : (updLink m k f).errs = m.errs := rfl
@[simp] theorem updLink_cfg (m : Dg) (k : Nat) (f : LinkSt → LinkSt) : (updLink m k f).cfg = m.cfg := rfl
@[simp] theorem updLink_stu (m : Dg) (k : Nat) (f : LinkSt → LinkSt) : (updLink m k f).stu = m.stu := rfl
@[simp] theorem updLink_mbx (m : Dg) (k : Nat) (f : LinkSt → LinkSt) : (updLink m k f).mbx = m.mbx := rfl
@[simp] theorem updLink_easel (m : Dg) (k : Nat) (f : LinkSt → LinkSt) : (updLink m k f).easel = m.easel := rfl
@[simp] theorem updLink_boot (m : Dg) (k : Nat) (f : LinkSt → LinkSt) : (updLink m k f).boot = m.boot := rfl
@[simp] theorem updLink_cnv (m : Dg) (k : Nat) (f : LinkSt → LinkSt) : (updLink m k f).cnv = m.cnv := rfl
@[simp] theorem updLink_drc (m : Dg) (k : Nat) (f : LinkSt → LinkSt) : (updLink m k f).drc = m.drc := rfl
@[simp] theorem updLink_dma (m : Dg) (k : Nat) (f : LinkSt → LinkSt) : (updLink m k f).dma = m.dma := rfl
@[simp] theorem updLink_srcs (m : Dg) (k : Nat) (f : LinkSt → LinkSt) : (updLink m k f).srcs = m.srcs := rfl
@[simp] theorem updLink_fcr (m : Dg) (k : Nat) (f : LinkSt → LinkSt) : (updLink m k f).fcr = m.fcr := rfl
@[simp] theorem updLink_wdg (m : Dg) (k : Nat) (f : LinkSt → LinkSt) : (updLink m k f).wdg = m.wdg := rfl
@[simp] theorem updLink_supWdg (m : Dg) (k : Nat) (f : LinkSt → LinkSt) : (updLink m k f).supWdg = m.supWdg := rfl
@[simp] theorem updLink_fix (m : Dg) (k : Nat) (f : LinkSt → LinkSt) : (updLink m k f).fix = m.fix := rfl
@[simp] theorem updLink_ftest (m : Dg) (k : Nat) (f : LinkSt → LinkSt) : (updLink m k f).ftest = m.ftest := rfl
@[simp] theorem updLink_sec (m : Dg) (k : Nat) (f : LinkSt → LinkSt) : (updLink m k f).sec = m.sec := rfl
@[simp] theorem updLink_net (m : Dg) (k : Nat) (f : LinkSt → LinkSt) : (updLink m k f).net = m.net := rfl
@[simp] theorem updLink_pwr (m : Dg) (k : Nat) (f : LinkSt → LinkSt) : (updLink m k f).pwr = m.pwr := rfl
@[simp] theorem updLink_bistExp (m : Dg) (k : Nat) (f : LinkSt → LinkSt) : (updLink m k f).bistExp = m.bistExp := rfl
@[simp] theorem updLink_now (m : Dg) (k : Nat) (f : LinkSt → LinkSt) : (updLink m k f).now = m.now := rfl
@[simp] theorem updLink_freeCount (m : Dg) (k : Nat) (f : LinkSt → LinkSt) : (updLink m k f).freeCount = m.freeCount := rfl

@[simp] theorem updDigest_part (m : Dg) (i : Nat) (f : Digest → Digest) : (updDigest m i f).part = m.part := rfl
@[simp] theorem updDigest_ctx (m : Dg) (i : Nat) (f : Digest → Digest) : (updDigest m i f).ctx = m.ctx := rfl
@[simp] theorem updDigest_mem (m : Dg) (i : Nat) (f : Digest → Digest) : (updDigest m i f).mem = m.mem := rfl
@[simp] theorem updDigest_errs (m : Dg) (i : Nat) (f : Digest → Digest) : (updDigest m i f).errs = m.errs := rfl
@[simp] theorem updDigest_cfg (m : Dg) (i : Nat) (f : Digest → Digest) : (updDigest m i f).cfg = m.cfg := rfl
@[simp] theorem updDigest_stu (m : Dg) (i : Nat) (f : Digest → Digest) : (updDigest m i f).stu = m.stu := rfl
@[simp] theorem updDigest_mbx (m : Dg) (i : Nat) (f : Digest → Digest) : (updDigest m i f).mbx = m.mbx := rfl
@[simp] theorem updDigest_easel (m : Dg) (i : Nat) (f : Digest → Digest) : (updDigest m i f).easel = m.easel := rfl
@[simp] theorem updDigest_boot (m : Dg) (i : Nat) (f : Digest → Digest) : (updDigest m i f).boot = m.boot := rfl
@[simp] theorem updDigest_cnv (m : Dg) (i : Nat) (f : Digest → Digest) : (updDigest m i f).cnv = m.cnv := rfl
@[simp] theorem updDigest_drc (m : Dg) (i : Nat) (f : Digest → Digest) : (updDigest m i f).drc = m.drc := rfl
@[simp] theorem updDigest_dma (m : Dg) (i : Nat) (f : Digest → Digest) : (updDigest m i f).dma = m.dma := rfl
@[simp] theorem updDigest_srcs (m : Dg) (i : Nat) (f : Digest → Digest) : (updDigest m i f).srcs = m.srcs := rfl
@[simp] theorem updDigest_fcr (m : Dg) (i : Nat) (f : Digest → Digest) : (updDigest m i f).fcr = m.fcr := rfl
@[simp] theorem updDigest_wdg (m : Dg) (i : Nat) (f : Digest → Digest) : (updDigest m i f).wdg = m.wdg := rfl
@[simp] theorem updDigest_supWdg (m : Dg) (i : Nat) (f : Digest → Digest) : (updDigest m i f).supWdg = m.supWdg := rfl
@[simp] theorem updDigest_fix (m : Dg) (i : Nat) (f : Digest → Digest) : (updDigest m i f).fix = m.fix := rfl
@[simp] theorem updDigest_ftest (m : Dg) (i : Nat) (f : Digest → Digest) : (updDigest m i f).ftest = m.ftest := rfl
@[simp] theorem updDigest_sec (m : Dg) (i : Nat) (f : Digest → Digest) : (updDigest m i f).sec = m.sec := rfl
@[simp] theorem updDigest_net (m : Dg) (i : Nat) (f : Digest → Digest) : (updDigest m i f).net = m.net := rfl
@[simp] theorem updDigest_pwr (m : Dg) (i : Nat) (f : Digest → Digest) : (updDigest m i f).pwr = m.pwr := rfl
@[simp] theorem updDigest_bistExp (m : Dg) (i : Nat) (f : Digest → Digest) : (updDigest m i f).bistExp = m.bistExp := rfl
@[simp] theorem updDigest_now (m : Dg) (i : Nat) (f : Digest → Digest) : (updDigest m i f).now = m.now := rfl
@[simp] theorem updDigest_freeCount (m : Dg) (i : Nat) (f : Digest → Digest) : (updDigest m i f).freeCount = m.freeCount := rfl

@[simp] theorem updFlip_part (m : Dg) (g : Nat) (f : FlipGrp → FlipGrp) : (updFlip m g f).part = m.part := rfl
@[simp] theorem updFlip_ctx (m : Dg) (g : Nat) (f : FlipGrp → FlipGrp) : (updFlip m g f).ctx = m.ctx := rfl
@[simp] theorem updFlip_mem (m : Dg) (g : Nat) (f : FlipGrp → FlipGrp) : (updFlip m g f).mem = m.mem := rfl
@[simp] theorem updFlip_errs (m : Dg) (g : Nat) (f : FlipGrp → FlipGrp) : (updFlip m g f).errs = m.errs := rfl
@[simp] theorem updFlip_cfg (m : Dg) (g : Nat) (f : FlipGrp → FlipGrp) : (updFlip m g f).cfg = m.cfg := rfl
@[simp] theorem updFlip_stu (m : Dg) (g : Nat) (f : FlipGrp → FlipGrp) : (updFlip m g f).stu = m.stu := rfl
@[simp] theorem updFlip_mbx (m : Dg) (g : Nat) (f : FlipGrp → FlipGrp) : (updFlip m g f).mbx = m.mbx := rfl
@[simp] theorem updFlip_easel (m : Dg) (g : Nat) (f : FlipGrp → FlipGrp) : (updFlip m g f).easel = m.easel := rfl
@[simp] theorem updFlip_boot (m : Dg) (g : Nat) (f : FlipGrp → FlipGrp) : (updFlip m g f).boot = m.boot := rfl
@[simp] theorem updFlip_cnv (m : Dg) (g : Nat) (f : FlipGrp → FlipGrp) : (updFlip m g f).cnv = m.cnv := rfl
@[simp] theorem updFlip_drc (m : Dg) (g : Nat) (f : FlipGrp → FlipGrp) : (updFlip m g f).drc = m.drc := rfl
@[simp] theorem updFlip_dma (m : Dg) (g : Nat) (f : FlipGrp → FlipGrp) : (updFlip m g f).dma = m.dma := rfl
@[simp] theorem updFlip_srcs (m : Dg) (g : Nat) (f : FlipGrp → FlipGrp) : (updFlip m g f).srcs = m.srcs := rfl
@[simp] theorem updFlip_fcr (m : Dg) (g : Nat) (f : FlipGrp → FlipGrp) : (updFlip m g f).fcr = m.fcr := rfl
@[simp] theorem updFlip_wdg (m : Dg) (g : Nat) (f : FlipGrp → FlipGrp) : (updFlip m g f).wdg = m.wdg := rfl
@[simp] theorem updFlip_supWdg (m : Dg) (g : Nat) (f : FlipGrp → FlipGrp) : (updFlip m g f).supWdg = m.supWdg := rfl
@[simp] theorem updFlip_fix (m : Dg) (g : Nat) (f : FlipGrp → FlipGrp) : (updFlip m g f).fix = m.fix := rfl
@[simp] theorem updFlip_ftest (m : Dg) (g : Nat) (f : FlipGrp → FlipGrp) : (updFlip m g f).ftest = m.ftest := rfl
@[simp] theorem updFlip_sec (m : Dg) (g : Nat) (f : FlipGrp → FlipGrp) : (updFlip m g f).sec = m.sec := rfl
@[simp] theorem updFlip_net (m : Dg) (g : Nat) (f : FlipGrp → FlipGrp) : (updFlip m g f).net = m.net := rfl
@[simp] theorem updFlip_pwr (m : Dg) (g : Nat) (f : FlipGrp → FlipGrp) : (updFlip m g f).pwr = m.pwr := rfl
@[simp] theorem updFlip_bistExp (m : Dg) (g : Nat) (f : FlipGrp → FlipGrp) : (updFlip m g f).bistExp = m.bistExp := rfl
@[simp] theorem updFlip_now (m : Dg) (g : Nat) (f : FlipGrp → FlipGrp) : (updFlip m g f).now = m.now := rfl
@[simp] theorem updFlip_freeCount (m : Dg) (g : Nat) (f : FlipGrp → FlipGrp) : (updFlip m g f).freeCount = m.freeCount := rfl

@[simp] theorem poke_mem (m : Dg) (a : Nat) (b : Byte) : (poke m a b).mem = SMap.set m.mem a b := rfl
@[simp] theorem poke_part (m : Dg) (a : Nat) (b : Byte) : (poke m a b).part = m.part := rfl
@[simp] theorem poke_ctx (m : Dg) (a : Nat) (b : Byte) : (poke m a b).ctx = m.ctx := rfl
@[simp] theorem poke_errs (m : Dg) (a : Nat) (b : Byte) : (poke m a b).errs = m.errs := rfl
@[simp] theorem poke_cfg (m : Dg) (a : Nat) (b : Byte) : (poke m a b).cfg = m.cfg := rfl
@[simp] theorem poke_stu (m : Dg) (a : Nat) (b : Byte) : (poke m a b).stu = m.stu := rfl
@[simp] theorem poke_mbx (m : Dg) (a : Nat) (b : Byte) : (poke m a b).mbx = m.mbx := rfl
@[simp] theorem poke_easel (m : Dg) (a : Nat) (b : Byte) : (poke m a b).easel = m.easel := rfl
@[simp] theorem poke_boot (m : Dg) (a : Nat) (b : Byte) : (poke m a b).boot = m.boot := rfl
@[simp] theorem poke_fab (m : Dg) (a : Nat) (b : Byte) : (poke m a b).fab = m.fab := rfl
@[simp] theorem poke_cnv (m : Dg) (a : Nat) (b : Byte) : (poke m a b).cnv = m.cnv := rfl
@[simp] theorem poke_drc (m : Dg) (a : Nat) (b : Byte) : (poke m a b).drc = m.drc := rfl
@[simp] theorem poke_dma (m : Dg) (a : Nat) (b : Byte) : (poke m a b).dma = m.dma := rfl
@[simp] theorem poke_srcs (m : Dg) (a : Nat) (b : Byte) : (poke m a b).srcs = m.srcs := rfl
@[simp] theorem poke_fcr (m : Dg) (a : Nat) (b : Byte) : (poke m a b).fcr = m.fcr := rfl
@[simp] theorem poke_wdg (m : Dg) (a : Nat) (b : Byte) : (poke m a b).wdg = m.wdg := rfl
@[simp] theorem poke_supWdg (m : Dg) (a : Nat) (b : Byte) : (poke m a b).supWdg = m.supWdg := rfl
@[simp] theorem poke_fix (m : Dg) (a : Nat) (b : Byte) : (poke m a b).fix = m.fix := rfl
@[simp] theorem poke_ftest (m : Dg) (a : Nat) (b : Byte) : (poke m a b).ftest = m.ftest := rfl
@[simp] theorem poke_sec (m : Dg) (a : Nat) (b : Byte) : (poke m a b).sec = m.sec := rfl
@[simp] theorem poke_net (m : Dg) (a : Nat) (b : Byte) : (poke m a b).net = m.net := rfl
@[simp] theorem poke_pwr (m : Dg) (a : Nat) (b : Byte) : (poke m a b).pwr = m.pwr := rfl
@[simp] theorem poke_bistExp (m : Dg) (a : Nat) (b : Byte) : (poke m a b).bistExp = m.bistExp := rfl
@[simp] theorem poke_now (m : Dg) (a : Nat) (b : Byte) : (poke m a b).now = m.now := rfl
@[simp] theorem poke_freeCount (m : Dg) (a : Nat) (b : Byte) : (poke m a b).freeCount = m.freeCount := rfl

@[simp] theorem clearRange_part (m : Dg) (a len : Nat) : (clearRange m a len).part = m.part := rfl
@[simp] theorem clearRange_ctx (m : Dg) (a len : Nat) : (clearRange m a len).ctx = m.ctx := rfl
@[simp] theorem clearRange_cfg (m : Dg) (a len : Nat) : (clearRange m a len).cfg = m.cfg := rfl
@[simp] theorem clearRange_stu (m : Dg) (a len : Nat) : (clearRange m a len).stu = m.stu := rfl
@[simp] theorem clearRange_mbx (m : Dg) (a len : Nat) : (clearRange m a len).mbx = m.mbx := rfl
@[simp] theorem clearRange_easel (m : Dg) (a len : Nat) : (clearRange m a len).easel = m.easel := rfl
@[simp] theorem clearRange_boot (m : Dg) (a len : Nat) : (clearRange m a len).boot = m.boot := rfl
@[simp] theorem clearRange_fab (m : Dg) (a len : Nat) : (clearRange m a len).fab = m.fab := rfl
@[simp] theorem clearRange_cnv (m : Dg) (a len : Nat) : (clearRange m a len).cnv = m.cnv := rfl
@[simp] theorem clearRange_drc (m : Dg) (a len : Nat) : (clearRange m a len).drc = m.drc := rfl
@[simp] theorem clearRange_dma (m : Dg) (a len : Nat) : (clearRange m a len).dma = m.dma := rfl
@[simp] theorem clearRange_srcs (m : Dg) (a len : Nat) : (clearRange m a len).srcs = m.srcs := rfl
@[simp] theorem clearRange_fcr (m : Dg) (a len : Nat) : (clearRange m a len).fcr = m.fcr := rfl
@[simp] theorem clearRange_wdg (m : Dg) (a len : Nat) : (clearRange m a len).wdg = m.wdg := rfl
@[simp] theorem clearRange_supWdg (m : Dg) (a len : Nat) : (clearRange m a len).supWdg = m.supWdg := rfl
@[simp] theorem clearRange_fix (m : Dg) (a len : Nat) : (clearRange m a len).fix = m.fix := rfl
@[simp] theorem clearRange_ftest (m : Dg) (a len : Nat) : (clearRange m a len).ftest = m.ftest := rfl
@[simp] theorem clearRange_sec (m : Dg) (a len : Nat) : (clearRange m a len).sec = m.sec := rfl
@[simp] theorem clearRange_net (m : Dg) (a len : Nat) : (clearRange m a len).net = m.net := rfl
@[simp] theorem clearRange_pwr (m : Dg) (a len : Nat) : (clearRange m a len).pwr = m.pwr := rfl
@[simp] theorem clearRange_bistExp (m : Dg) (a len : Nat) : (clearRange m a len).bistExp = m.bistExp := rfl
@[simp] theorem clearRange_now (m : Dg) (a len : Nat) : (clearRange m a len).now = m.now := rfl
@[simp] theorem clearRange_freeCount (m : Dg) (a len : Nat) : (clearRange m a len).freeCount = m.freeCount := rfl

@[simp] theorem setErr_part (m : Dg) (wa copy : Nat) (e : BitVec 144) : (setErr m wa copy e).part = m.part := rfl
@[simp] theorem setErr_ctx (m : Dg) (wa copy : Nat) (e : BitVec 144) : (setErr m wa copy e).ctx = m.ctx := rfl
@[simp] theorem setErr_mem (m : Dg) (wa copy : Nat) (e : BitVec 144) : (setErr m wa copy e).mem = m.mem := rfl
@[simp] theorem setErr_cfg (m : Dg) (wa copy : Nat) (e : BitVec 144) : (setErr m wa copy e).cfg = m.cfg := rfl
@[simp] theorem setErr_stu (m : Dg) (wa copy : Nat) (e : BitVec 144) : (setErr m wa copy e).stu = m.stu := rfl
@[simp] theorem setErr_mbx (m : Dg) (wa copy : Nat) (e : BitVec 144) : (setErr m wa copy e).mbx = m.mbx := rfl
@[simp] theorem setErr_easel (m : Dg) (wa copy : Nat) (e : BitVec 144) : (setErr m wa copy e).easel = m.easel := rfl
@[simp] theorem setErr_boot (m : Dg) (wa copy : Nat) (e : BitVec 144) : (setErr m wa copy e).boot = m.boot := rfl
@[simp] theorem setErr_fab (m : Dg) (wa copy : Nat) (e : BitVec 144) : (setErr m wa copy e).fab = m.fab := rfl
@[simp] theorem setErr_cnv (m : Dg) (wa copy : Nat) (e : BitVec 144) : (setErr m wa copy e).cnv = m.cnv := rfl
@[simp] theorem setErr_drc (m : Dg) (wa copy : Nat) (e : BitVec 144) : (setErr m wa copy e).drc = m.drc := rfl
@[simp] theorem setErr_dma (m : Dg) (wa copy : Nat) (e : BitVec 144) : (setErr m wa copy e).dma = m.dma := rfl
@[simp] theorem setErr_srcs (m : Dg) (wa copy : Nat) (e : BitVec 144) : (setErr m wa copy e).srcs = m.srcs := rfl
@[simp] theorem setErr_fcr (m : Dg) (wa copy : Nat) (e : BitVec 144) : (setErr m wa copy e).fcr = m.fcr := rfl
@[simp] theorem setErr_wdg (m : Dg) (wa copy : Nat) (e : BitVec 144) : (setErr m wa copy e).wdg = m.wdg := rfl
@[simp] theorem setErr_supWdg (m : Dg) (wa copy : Nat) (e : BitVec 144) : (setErr m wa copy e).supWdg = m.supWdg := rfl
@[simp] theorem setErr_fix (m : Dg) (wa copy : Nat) (e : BitVec 144) : (setErr m wa copy e).fix = m.fix := rfl
@[simp] theorem setErr_sec (m : Dg) (wa copy : Nat) (e : BitVec 144) : (setErr m wa copy e).sec = m.sec := rfl
@[simp] theorem setErr_net (m : Dg) (wa copy : Nat) (e : BitVec 144) : (setErr m wa copy e).net = m.net := rfl
@[simp] theorem setErr_pwr (m : Dg) (wa copy : Nat) (e : BitVec 144) : (setErr m wa copy e).pwr = m.pwr := rfl
@[simp] theorem setErr_bistExp (m : Dg) (wa copy : Nat) (e : BitVec 144) : (setErr m wa copy e).bistExp = m.bistExp := rfl
@[simp] theorem setErr_now (m : Dg) (wa copy : Nat) (e : BitVec 144) : (setErr m wa copy e).now = m.now := rfl
@[simp] theorem setErr_freeCount (m : Dg) (wa copy : Nat) (e : BitVec 144) : (setErr m wa copy e).freeCount = m.freeCount := rfl

@[simp] theorem updBank_part (m : Dg) (k : Nat) (f : Bank → Bank) : (updBank m k f).part = m.part := rfl
@[simp] theorem updBank_ctx (m : Dg) (k : Nat) (f : Bank → Bank) : (updBank m k f).ctx = m.ctx := rfl
@[simp] theorem updBank_mem (m : Dg) (k : Nat) (f : Bank → Bank) : (updBank m k f).mem = m.mem := rfl
@[simp] theorem updBank_errs (m : Dg) (k : Nat) (f : Bank → Bank) : (updBank m k f).errs = m.errs := rfl
@[simp] theorem updBank_cfg (m : Dg) (k : Nat) (f : Bank → Bank) : (updBank m k f).cfg = m.cfg := rfl
@[simp] theorem updBank_stu (m : Dg) (k : Nat) (f : Bank → Bank) : (updBank m k f).stu = m.stu := rfl
@[simp] theorem updBank_mbx (m : Dg) (k : Nat) (f : Bank → Bank) : (updBank m k f).mbx = m.mbx := rfl
@[simp] theorem updBank_easel (m : Dg) (k : Nat) (f : Bank → Bank) : (updBank m k f).easel = m.easel := rfl
@[simp] theorem updBank_boot (m : Dg) (k : Nat) (f : Bank → Bank) : (updBank m k f).boot = m.boot := rfl
@[simp] theorem updBank_fab (m : Dg) (k : Nat) (f : Bank → Bank) : (updBank m k f).fab = m.fab := rfl
@[simp] theorem updBank_drc (m : Dg) (k : Nat) (f : Bank → Bank) : (updBank m k f).drc = m.drc := rfl
@[simp] theorem updBank_dma (m : Dg) (k : Nat) (f : Bank → Bank) : (updBank m k f).dma = m.dma := rfl
@[simp] theorem updBank_srcs (m : Dg) (k : Nat) (f : Bank → Bank) : (updBank m k f).srcs = m.srcs := rfl
@[simp] theorem updBank_fcr (m : Dg) (k : Nat) (f : Bank → Bank) : (updBank m k f).fcr = m.fcr := rfl
@[simp] theorem updBank_wdg (m : Dg) (k : Nat) (f : Bank → Bank) : (updBank m k f).wdg = m.wdg := rfl
@[simp] theorem updBank_supWdg (m : Dg) (k : Nat) (f : Bank → Bank) : (updBank m k f).supWdg = m.supWdg := rfl
@[simp] theorem updBank_fix (m : Dg) (k : Nat) (f : Bank → Bank) : (updBank m k f).fix = m.fix := rfl
@[simp] theorem updBank_ftest (m : Dg) (k : Nat) (f : Bank → Bank) : (updBank m k f).ftest = m.ftest := rfl
@[simp] theorem updBank_sec (m : Dg) (k : Nat) (f : Bank → Bank) : (updBank m k f).sec = m.sec := rfl
@[simp] theorem updBank_net (m : Dg) (k : Nat) (f : Bank → Bank) : (updBank m k f).net = m.net := rfl
@[simp] theorem updBank_pwr (m : Dg) (k : Nat) (f : Bank → Bank) : (updBank m k f).pwr = m.pwr := rfl
@[simp] theorem updBank_bistExp (m : Dg) (k : Nat) (f : Bank → Bank) : (updBank m k f).bistExp = m.bistExp := rfl
@[simp] theorem updBank_now (m : Dg) (k : Nat) (f : Bank → Bank) : (updBank m k f).now = m.now := rfl
@[simp] theorem updBank_freeCount (m : Dg) (k : Nat) (f : Bank → Bank) : (updBank m k f).freeCount = m.freeCount := rfl

@[simp] theorem updQuad_part (m : Dg) (q : Nat) (f : Quadrant → Quadrant) : (updQuad m q f).part = m.part := rfl
@[simp] theorem updQuad_ctx (m : Dg) (q : Nat) (f : Quadrant → Quadrant) : (updQuad m q f).ctx = m.ctx := rfl
@[simp] theorem updQuad_mem (m : Dg) (q : Nat) (f : Quadrant → Quadrant) : (updQuad m q f).mem = m.mem := rfl
@[simp] theorem updQuad_errs (m : Dg) (q : Nat) (f : Quadrant → Quadrant) : (updQuad m q f).errs = m.errs := rfl
@[simp] theorem updQuad_cfg (m : Dg) (q : Nat) (f : Quadrant → Quadrant) : (updQuad m q f).cfg = m.cfg := rfl
@[simp] theorem updQuad_stu (m : Dg) (q : Nat) (f : Quadrant → Quadrant) : (updQuad m q f).stu = m.stu := rfl
@[simp] theorem updQuad_mbx (m : Dg) (q : Nat) (f : Quadrant → Quadrant) : (updQuad m q f).mbx = m.mbx := rfl
@[simp] theorem updQuad_easel (m : Dg) (q : Nat) (f : Quadrant → Quadrant) : (updQuad m q f).easel = m.easel := rfl
@[simp] theorem updQuad_boot (m : Dg) (q : Nat) (f : Quadrant → Quadrant) : (updQuad m q f).boot = m.boot := rfl
@[simp] theorem updQuad_fab (m : Dg) (q : Nat) (f : Quadrant → Quadrant) : (updQuad m q f).fab = m.fab := rfl
@[simp] theorem updQuad_drc (m : Dg) (q : Nat) (f : Quadrant → Quadrant) : (updQuad m q f).drc = m.drc := rfl
@[simp] theorem updQuad_dma (m : Dg) (q : Nat) (f : Quadrant → Quadrant) : (updQuad m q f).dma = m.dma := rfl
@[simp] theorem updQuad_srcs (m : Dg) (q : Nat) (f : Quadrant → Quadrant) : (updQuad m q f).srcs = m.srcs := rfl
@[simp] theorem updQuad_fcr (m : Dg) (q : Nat) (f : Quadrant → Quadrant) : (updQuad m q f).fcr = m.fcr := rfl
@[simp] theorem updQuad_wdg (m : Dg) (q : Nat) (f : Quadrant → Quadrant) : (updQuad m q f).wdg = m.wdg := rfl
@[simp] theorem updQuad_supWdg (m : Dg) (q : Nat) (f : Quadrant → Quadrant) : (updQuad m q f).supWdg = m.supWdg := rfl
@[simp] theorem updQuad_fix (m : Dg) (q : Nat) (f : Quadrant → Quadrant) : (updQuad m q f).fix = m.fix := rfl
@[simp] theorem updQuad_ftest (m : Dg) (q : Nat) (f : Quadrant → Quadrant) : (updQuad m q f).ftest = m.ftest := rfl
@[simp] theorem updQuad_sec (m : Dg) (q : Nat) (f : Quadrant → Quadrant) : (updQuad m q f).sec = m.sec := rfl
@[simp] theorem updQuad_net (m : Dg) (q : Nat) (f : Quadrant → Quadrant) : (updQuad m q f).net = m.net := rfl
@[simp] theorem updQuad_pwr (m : Dg) (q : Nat) (f : Quadrant → Quadrant) : (updQuad m q f).pwr = m.pwr := rfl
@[simp] theorem updQuad_bistExp (m : Dg) (q : Nat) (f : Quadrant → Quadrant) : (updQuad m q f).bistExp = m.bistExp := rfl
@[simp] theorem updQuad_now (m : Dg) (q : Nat) (f : Quadrant → Quadrant) : (updQuad m q f).now = m.now := rfl
@[simp] theorem updQuad_freeCount (m : Dg) (q : Nat) (f : Quadrant → Quadrant) : (updQuad m q f).freeCount = m.freeCount := rfl

@[simp] theorem updDrc_drc (m : Dg) (f : Drc → Drc) : (updDrc m f).drc = f m.drc := rfl
@[simp] theorem updDrc_part (m : Dg) (f : Drc → Drc) : (updDrc m f).part = m.part := rfl
@[simp] theorem updDrc_ctx (m : Dg) (f : Drc → Drc) : (updDrc m f).ctx = m.ctx := rfl
@[simp] theorem updDrc_mem (m : Dg) (f : Drc → Drc) : (updDrc m f).mem = m.mem := rfl
@[simp] theorem updDrc_errs (m : Dg) (f : Drc → Drc) : (updDrc m f).errs = m.errs := rfl
@[simp] theorem updDrc_cfg (m : Dg) (f : Drc → Drc) : (updDrc m f).cfg = m.cfg := rfl
@[simp] theorem updDrc_stu (m : Dg) (f : Drc → Drc) : (updDrc m f).stu = m.stu := rfl
@[simp] theorem updDrc_mbx (m : Dg) (f : Drc → Drc) : (updDrc m f).mbx = m.mbx := rfl
@[simp] theorem updDrc_easel (m : Dg) (f : Drc → Drc) : (updDrc m f).easel = m.easel := rfl
@[simp] theorem updDrc_boot (m : Dg) (f : Drc → Drc) : (updDrc m f).boot = m.boot := rfl
@[simp] theorem updDrc_fab (m : Dg) (f : Drc → Drc) : (updDrc m f).fab = m.fab := rfl
@[simp] theorem updDrc_cnv (m : Dg) (f : Drc → Drc) : (updDrc m f).cnv = m.cnv := rfl
@[simp] theorem updDrc_dma (m : Dg) (f : Drc → Drc) : (updDrc m f).dma = m.dma := rfl
@[simp] theorem updDrc_srcs (m : Dg) (f : Drc → Drc) : (updDrc m f).srcs = m.srcs := rfl
@[simp] theorem updDrc_fcr (m : Dg) (f : Drc → Drc) : (updDrc m f).fcr = m.fcr := rfl
@[simp] theorem updDrc_wdg (m : Dg) (f : Drc → Drc) : (updDrc m f).wdg = m.wdg := rfl
@[simp] theorem updDrc_supWdg (m : Dg) (f : Drc → Drc) : (updDrc m f).supWdg = m.supWdg := rfl
@[simp] theorem updDrc_fix (m : Dg) (f : Drc → Drc) : (updDrc m f).fix = m.fix := rfl
@[simp] theorem updDrc_ftest (m : Dg) (f : Drc → Drc) : (updDrc m f).ftest = m.ftest := rfl
@[simp] theorem updDrc_sec (m : Dg) (f : Drc → Drc) : (updDrc m f).sec = m.sec := rfl
@[simp] theorem updDrc_net (m : Dg) (f : Drc → Drc) : (updDrc m f).net = m.net := rfl
@[simp] theorem updDrc_pwr (m : Dg) (f : Drc → Drc) : (updDrc m f).pwr = m.pwr := rfl
@[simp] theorem updDrc_bistExp (m : Dg) (f : Drc → Drc) : (updDrc m f).bistExp = m.bistExp := rfl
@[simp] theorem updDrc_now (m : Dg) (f : Drc → Drc) : (updDrc m f).now = m.now := rfl
@[simp] theorem updDrc_freeCount (m : Dg) (f : Drc → Drc) : (updDrc m f).freeCount = m.freeCount := rfl

@[simp] theorem updAgent_part (m : Dg) (a : Nat) (f : DmaAgent → DmaAgent) : (updAgent m a f).part = m.part := rfl
@[simp] theorem updAgent_ctx (m : Dg) (a : Nat) (f : DmaAgent → DmaAgent) : (updAgent m a f).ctx = m.ctx := rfl
@[simp] theorem updAgent_mem (m : Dg) (a : Nat) (f : DmaAgent → DmaAgent) : (updAgent m a f).mem = m.mem := rfl
@[simp] theorem updAgent_errs (m : Dg) (a : Nat) (f : DmaAgent → DmaAgent) : (updAgent m a f).errs = m.errs := rfl
@[simp] theorem updAgent_cfg (m : Dg) (a : Nat) (f : DmaAgent → DmaAgent) : (updAgent m a f).cfg = m.cfg := rfl
@[simp] theorem updAgent_stu (m : Dg) (a : Nat) (f : DmaAgent → DmaAgent) : (updAgent m a f).stu = m.stu := rfl
@[simp] theorem updAgent_mbx (m : Dg) (a : Nat) (f : DmaAgent → DmaAgent) : (updAgent m a f).mbx = m.mbx := rfl
@[simp] theorem updAgent_easel (m : Dg) (a : Nat) (f : DmaAgent → DmaAgent) : (updAgent m a f).easel = m.easel := rfl
@[simp] theorem updAgent_boot (m : Dg) (a : Nat) (f : DmaAgent → DmaAgent) : (updAgent m a f).boot = m.boot := rfl
@[simp] theorem updAgent_fab (m : Dg) (a : Nat) (f : DmaAgent → DmaAgent) : (updAgent m a f).fab = m.fab := rfl
@[simp] theorem updAgent_cnv (m : Dg) (a : Nat) (f : DmaAgent → DmaAgent) : (updAgent m a f).cnv = m.cnv := rfl
@[simp] theorem updAgent_drc (m : Dg) (a : Nat) (f : DmaAgent → DmaAgent) : (updAgent m a f).drc = m.drc := rfl
@[simp] theorem updAgent_srcs (m : Dg) (a : Nat) (f : DmaAgent → DmaAgent) : (updAgent m a f).srcs = m.srcs := rfl
@[simp] theorem updAgent_fcr (m : Dg) (a : Nat) (f : DmaAgent → DmaAgent) : (updAgent m a f).fcr = m.fcr := rfl
@[simp] theorem updAgent_wdg (m : Dg) (a : Nat) (f : DmaAgent → DmaAgent) : (updAgent m a f).wdg = m.wdg := rfl
@[simp] theorem updAgent_supWdg (m : Dg) (a : Nat) (f : DmaAgent → DmaAgent) : (updAgent m a f).supWdg = m.supWdg := rfl
@[simp] theorem updAgent_fix (m : Dg) (a : Nat) (f : DmaAgent → DmaAgent) : (updAgent m a f).fix = m.fix := rfl
@[simp] theorem updAgent_ftest (m : Dg) (a : Nat) (f : DmaAgent → DmaAgent) : (updAgent m a f).ftest = m.ftest := rfl
@[simp] theorem updAgent_sec (m : Dg) (a : Nat) (f : DmaAgent → DmaAgent) : (updAgent m a f).sec = m.sec := rfl
@[simp] theorem updAgent_net (m : Dg) (a : Nat) (f : DmaAgent → DmaAgent) : (updAgent m a f).net = m.net := rfl
@[simp] theorem updAgent_pwr (m : Dg) (a : Nat) (f : DmaAgent → DmaAgent) : (updAgent m a f).pwr = m.pwr := rfl
@[simp] theorem updAgent_bistExp (m : Dg) (a : Nat) (f : DmaAgent → DmaAgent) : (updAgent m a f).bistExp = m.bistExp := rfl
@[simp] theorem updAgent_now (m : Dg) (a : Nat) (f : DmaAgent → DmaAgent) : (updAgent m a f).now = m.now := rfl
@[simp] theorem updAgent_freeCount (m : Dg) (a : Nat) (f : DmaAgent → DmaAgent) : (updAgent m a f).freeCount = m.freeCount := rfl

@[simp] theorem updGrp_part (m : Dg) (g : Nat) (f : Group → Group) : (updGrp m g f).part = m.part := rfl
@[simp] theorem updGrp_ctx (m : Dg) (g : Nat) (f : Group → Group) : (updGrp m g f).ctx = m.ctx := rfl
@[simp] theorem updGrp_mem (m : Dg) (g : Nat) (f : Group → Group) : (updGrp m g f).mem = m.mem := rfl
@[simp] theorem updGrp_errs (m : Dg) (g : Nat) (f : Group → Group) : (updGrp m g f).errs = m.errs := rfl
@[simp] theorem updGrp_cfg (m : Dg) (g : Nat) (f : Group → Group) : (updGrp m g f).cfg = m.cfg := rfl
@[simp] theorem updGrp_mbx (m : Dg) (g : Nat) (f : Group → Group) : (updGrp m g f).mbx = m.mbx := rfl
@[simp] theorem updGrp_easel (m : Dg) (g : Nat) (f : Group → Group) : (updGrp m g f).easel = m.easel := rfl
@[simp] theorem updGrp_boot (m : Dg) (g : Nat) (f : Group → Group) : (updGrp m g f).boot = m.boot := rfl
@[simp] theorem updGrp_fab (m : Dg) (g : Nat) (f : Group → Group) : (updGrp m g f).fab = m.fab := rfl
@[simp] theorem updGrp_cnv (m : Dg) (g : Nat) (f : Group → Group) : (updGrp m g f).cnv = m.cnv := rfl
@[simp] theorem updGrp_drc (m : Dg) (g : Nat) (f : Group → Group) : (updGrp m g f).drc = m.drc := rfl
@[simp] theorem updGrp_dma (m : Dg) (g : Nat) (f : Group → Group) : (updGrp m g f).dma = m.dma := rfl
@[simp] theorem updGrp_srcs (m : Dg) (g : Nat) (f : Group → Group) : (updGrp m g f).srcs = m.srcs := rfl
@[simp] theorem updGrp_fcr (m : Dg) (g : Nat) (f : Group → Group) : (updGrp m g f).fcr = m.fcr := rfl
@[simp] theorem updGrp_wdg (m : Dg) (g : Nat) (f : Group → Group) : (updGrp m g f).wdg = m.wdg := rfl
@[simp] theorem updGrp_supWdg (m : Dg) (g : Nat) (f : Group → Group) : (updGrp m g f).supWdg = m.supWdg := rfl
@[simp] theorem updGrp_fix (m : Dg) (g : Nat) (f : Group → Group) : (updGrp m g f).fix = m.fix := rfl
@[simp] theorem updGrp_ftest (m : Dg) (g : Nat) (f : Group → Group) : (updGrp m g f).ftest = m.ftest := rfl
@[simp] theorem updGrp_sec (m : Dg) (g : Nat) (f : Group → Group) : (updGrp m g f).sec = m.sec := rfl
@[simp] theorem updGrp_net (m : Dg) (g : Nat) (f : Group → Group) : (updGrp m g f).net = m.net := rfl
@[simp] theorem updGrp_pwr (m : Dg) (g : Nat) (f : Group → Group) : (updGrp m g f).pwr = m.pwr := rfl
@[simp] theorem updGrp_bistExp (m : Dg) (g : Nat) (f : Group → Group) : (updGrp m g f).bistExp = m.bistExp := rfl
@[simp] theorem updGrp_now (m : Dg) (g : Nat) (f : Group → Group) : (updGrp m g f).now = m.now := rfl
@[simp] theorem updGrp_freeCount (m : Dg) (g : Nat) (f : Group → Group) : (updGrp m g f).freeCount = m.freeCount := rfl

@[simp] theorem updCore_part (m : Dg) (c : Nat) (f : Core → Core) : (updCore m c f).part = m.part := rfl
@[simp] theorem updCore_ctx (m : Dg) (c : Nat) (f : Core → Core) : (updCore m c f).ctx = m.ctx := rfl
@[simp] theorem updCore_mem (m : Dg) (c : Nat) (f : Core → Core) : (updCore m c f).mem = m.mem := rfl
@[simp] theorem updCore_errs (m : Dg) (c : Nat) (f : Core → Core) : (updCore m c f).errs = m.errs := rfl
@[simp] theorem updCore_cfg (m : Dg) (c : Nat) (f : Core → Core) : (updCore m c f).cfg = m.cfg := rfl
@[simp] theorem updCore_mbx (m : Dg) (c : Nat) (f : Core → Core) : (updCore m c f).mbx = m.mbx := rfl
@[simp] theorem updCore_easel (m : Dg) (c : Nat) (f : Core → Core) : (updCore m c f).easel = m.easel := rfl
@[simp] theorem updCore_boot (m : Dg) (c : Nat) (f : Core → Core) : (updCore m c f).boot = m.boot := rfl
@[simp] theorem updCore_fab (m : Dg) (c : Nat) (f : Core → Core) : (updCore m c f).fab = m.fab := rfl
@[simp] theorem updCore_cnv (m : Dg) (c : Nat) (f : Core → Core) : (updCore m c f).cnv = m.cnv := rfl
@[simp] theorem updCore_drc (m : Dg) (c : Nat) (f : Core → Core) : (updCore m c f).drc = m.drc := rfl
@[simp] theorem updCore_dma (m : Dg) (c : Nat) (f : Core → Core) : (updCore m c f).dma = m.dma := rfl
@[simp] theorem updCore_srcs (m : Dg) (c : Nat) (f : Core → Core) : (updCore m c f).srcs = m.srcs := rfl
@[simp] theorem updCore_fcr (m : Dg) (c : Nat) (f : Core → Core) : (updCore m c f).fcr = m.fcr := rfl
@[simp] theorem updCore_wdg (m : Dg) (c : Nat) (f : Core → Core) : (updCore m c f).wdg = m.wdg := rfl
@[simp] theorem updCore_supWdg (m : Dg) (c : Nat) (f : Core → Core) : (updCore m c f).supWdg = m.supWdg := rfl
@[simp] theorem updCore_fix (m : Dg) (c : Nat) (f : Core → Core) : (updCore m c f).fix = m.fix := rfl
@[simp] theorem updCore_ftest (m : Dg) (c : Nat) (f : Core → Core) : (updCore m c f).ftest = m.ftest := rfl
@[simp] theorem updCore_sec (m : Dg) (c : Nat) (f : Core → Core) : (updCore m c f).sec = m.sec := rfl
@[simp] theorem updCore_net (m : Dg) (c : Nat) (f : Core → Core) : (updCore m c f).net = m.net := rfl
@[simp] theorem updCore_pwr (m : Dg) (c : Nat) (f : Core → Core) : (updCore m c f).pwr = m.pwr := rfl
@[simp] theorem updCore_bistExp (m : Dg) (c : Nat) (f : Core → Core) : (updCore m c f).bistExp = m.bistExp := rfl
@[simp] theorem updCore_now (m : Dg) (c : Nat) (f : Core → Core) : (updCore m c f).now = m.now := rfl
@[simp] theorem updCore_freeCount (m : Dg) (c : Nat) (f : Core → Core) : (updCore m c f).freeCount = m.freeCount := rfl

@[simp] theorem updStudio_part (m : Dg) (i : Nat) (f : Studio → Studio) : (updStudio m i f).part = m.part := rfl
@[simp] theorem updStudio_ctx (m : Dg) (i : Nat) (f : Studio → Studio) : (updStudio m i f).ctx = m.ctx := rfl
@[simp] theorem updStudio_mem (m : Dg) (i : Nat) (f : Studio → Studio) : (updStudio m i f).mem = m.mem := rfl
@[simp] theorem updStudio_errs (m : Dg) (i : Nat) (f : Studio → Studio) : (updStudio m i f).errs = m.errs := rfl
@[simp] theorem updStudio_cfg (m : Dg) (i : Nat) (f : Studio → Studio) : (updStudio m i f).cfg = m.cfg := rfl
@[simp] theorem updStudio_mbx (m : Dg) (i : Nat) (f : Studio → Studio) : (updStudio m i f).mbx = m.mbx := rfl
@[simp] theorem updStudio_easel (m : Dg) (i : Nat) (f : Studio → Studio) : (updStudio m i f).easel = m.easel := rfl
@[simp] theorem updStudio_boot (m : Dg) (i : Nat) (f : Studio → Studio) : (updStudio m i f).boot = m.boot := rfl
@[simp] theorem updStudio_fab (m : Dg) (i : Nat) (f : Studio → Studio) : (updStudio m i f).fab = m.fab := rfl
@[simp] theorem updStudio_cnv (m : Dg) (i : Nat) (f : Studio → Studio) : (updStudio m i f).cnv = m.cnv := rfl
@[simp] theorem updStudio_drc (m : Dg) (i : Nat) (f : Studio → Studio) : (updStudio m i f).drc = m.drc := rfl
@[simp] theorem updStudio_dma (m : Dg) (i : Nat) (f : Studio → Studio) : (updStudio m i f).dma = m.dma := rfl
@[simp] theorem updStudio_srcs (m : Dg) (i : Nat) (f : Studio → Studio) : (updStudio m i f).srcs = m.srcs := rfl
@[simp] theorem updStudio_fcr (m : Dg) (i : Nat) (f : Studio → Studio) : (updStudio m i f).fcr = m.fcr := rfl
@[simp] theorem updStudio_wdg (m : Dg) (i : Nat) (f : Studio → Studio) : (updStudio m i f).wdg = m.wdg := rfl
@[simp] theorem updStudio_supWdg (m : Dg) (i : Nat) (f : Studio → Studio) : (updStudio m i f).supWdg = m.supWdg := rfl
@[simp] theorem updStudio_fix (m : Dg) (i : Nat) (f : Studio → Studio) : (updStudio m i f).fix = m.fix := rfl
@[simp] theorem updStudio_ftest (m : Dg) (i : Nat) (f : Studio → Studio) : (updStudio m i f).ftest = m.ftest := rfl
@[simp] theorem updStudio_sec (m : Dg) (i : Nat) (f : Studio → Studio) : (updStudio m i f).sec = m.sec := rfl
@[simp] theorem updStudio_net (m : Dg) (i : Nat) (f : Studio → Studio) : (updStudio m i f).net = m.net := rfl
@[simp] theorem updStudio_pwr (m : Dg) (i : Nat) (f : Studio → Studio) : (updStudio m i f).pwr = m.pwr := rfl
@[simp] theorem updStudio_bistExp (m : Dg) (i : Nat) (f : Studio → Studio) : (updStudio m i f).bistExp = m.bistExp := rfl
@[simp] theorem updStudio_now (m : Dg) (i : Nat) (f : Studio → Studio) : (updStudio m i f).now = m.now := rfl
@[simp] theorem updStudio_freeCount (m : Dg) (i : Nat) (f : Studio → Studio) : (updStudio m i f).freeCount = m.freeCount := rfl

@[simp] theorem updPart_part (m : Dg) (p : Nat) (f : Partn → Partn) : (updPart m p f).part = m.part := rfl
@[simp] theorem updPart_ctx (m : Dg) (p : Nat) (f : Partn → Partn) : (updPart m p f).ctx = m.ctx := rfl
@[simp] theorem updPart_mem (m : Dg) (p : Nat) (f : Partn → Partn) : (updPart m p f).mem = m.mem := rfl
@[simp] theorem updPart_errs (m : Dg) (p : Nat) (f : Partn → Partn) : (updPart m p f).errs = m.errs := rfl
@[simp] theorem updPart_cfg (m : Dg) (p : Nat) (f : Partn → Partn) : (updPart m p f).cfg = m.cfg := rfl
@[simp] theorem updPart_mbx (m : Dg) (p : Nat) (f : Partn → Partn) : (updPart m p f).mbx = m.mbx := rfl
@[simp] theorem updPart_easel (m : Dg) (p : Nat) (f : Partn → Partn) : (updPart m p f).easel = m.easel := rfl
@[simp] theorem updPart_boot (m : Dg) (p : Nat) (f : Partn → Partn) : (updPart m p f).boot = m.boot := rfl
@[simp] theorem updPart_fab (m : Dg) (p : Nat) (f : Partn → Partn) : (updPart m p f).fab = m.fab := rfl
@[simp] theorem updPart_cnv (m : Dg) (p : Nat) (f : Partn → Partn) : (updPart m p f).cnv = m.cnv := rfl
@[simp] theorem updPart_drc (m : Dg) (p : Nat) (f : Partn → Partn) : (updPart m p f).drc = m.drc := rfl
@[simp] theorem updPart_dma (m : Dg) (p : Nat) (f : Partn → Partn) : (updPart m p f).dma = m.dma := rfl
@[simp] theorem updPart_srcs (m : Dg) (p : Nat) (f : Partn → Partn) : (updPart m p f).srcs = m.srcs := rfl
@[simp] theorem updPart_fcr (m : Dg) (p : Nat) (f : Partn → Partn) : (updPart m p f).fcr = m.fcr := rfl
@[simp] theorem updPart_wdg (m : Dg) (p : Nat) (f : Partn → Partn) : (updPart m p f).wdg = m.wdg := rfl
@[simp] theorem updPart_supWdg (m : Dg) (p : Nat) (f : Partn → Partn) : (updPart m p f).supWdg = m.supWdg := rfl
@[simp] theorem updPart_fix (m : Dg) (p : Nat) (f : Partn → Partn) : (updPart m p f).fix = m.fix := rfl
@[simp] theorem updPart_ftest (m : Dg) (p : Nat) (f : Partn → Partn) : (updPart m p f).ftest = m.ftest := rfl
@[simp] theorem updPart_sec (m : Dg) (p : Nat) (f : Partn → Partn) : (updPart m p f).sec = m.sec := rfl
@[simp] theorem updPart_net (m : Dg) (p : Nat) (f : Partn → Partn) : (updPart m p f).net = m.net := rfl
@[simp] theorem updPart_pwr (m : Dg) (p : Nat) (f : Partn → Partn) : (updPart m p f).pwr = m.pwr := rfl
@[simp] theorem updPart_bistExp (m : Dg) (p : Nat) (f : Partn → Partn) : (updPart m p f).bistExp = m.bistExp := rfl
@[simp] theorem updPart_now (m : Dg) (p : Nat) (f : Partn → Partn) : (updPart m p f).now = m.now := rfl
@[simp] theorem updPart_freeCount (m : Dg) (p : Nat) (f : Partn → Partn) : (updPart m p f).freeCount = m.freeCount := rfl

@[simp] theorem setRole_part (m : Dg) (c : Nat) (r : Role) : (setRole m c r).part = m.part := rfl
@[simp] theorem setRole_ctx (m : Dg) (c : Nat) (r : Role) : (setRole m c r).ctx = m.ctx := rfl
@[simp] theorem setRole_mem (m : Dg) (c : Nat) (r : Role) : (setRole m c r).mem = m.mem := rfl
@[simp] theorem setRole_errs (m : Dg) (c : Nat) (r : Role) : (setRole m c r).errs = m.errs := rfl
@[simp] theorem setRole_cfg (m : Dg) (c : Nat) (r : Role) : (setRole m c r).cfg = m.cfg := rfl
@[simp] theorem setRole_mbx (m : Dg) (c : Nat) (r : Role) : (setRole m c r).mbx = m.mbx := rfl
@[simp] theorem setRole_easel (m : Dg) (c : Nat) (r : Role) : (setRole m c r).easel = m.easel := rfl
@[simp] theorem setRole_boot (m : Dg) (c : Nat) (r : Role) : (setRole m c r).boot = m.boot := rfl
@[simp] theorem setRole_fab (m : Dg) (c : Nat) (r : Role) : (setRole m c r).fab = m.fab := rfl
@[simp] theorem setRole_cnv (m : Dg) (c : Nat) (r : Role) : (setRole m c r).cnv = m.cnv := rfl
@[simp] theorem setRole_drc (m : Dg) (c : Nat) (r : Role) : (setRole m c r).drc = m.drc := rfl
@[simp] theorem setRole_dma (m : Dg) (c : Nat) (r : Role) : (setRole m c r).dma = m.dma := rfl
@[simp] theorem setRole_srcs (m : Dg) (c : Nat) (r : Role) : (setRole m c r).srcs = m.srcs := rfl
@[simp] theorem setRole_fcr (m : Dg) (c : Nat) (r : Role) : (setRole m c r).fcr = m.fcr := rfl
@[simp] theorem setRole_wdg (m : Dg) (c : Nat) (r : Role) : (setRole m c r).wdg = m.wdg := rfl
@[simp] theorem setRole_supWdg (m : Dg) (c : Nat) (r : Role) : (setRole m c r).supWdg = m.supWdg := rfl
@[simp] theorem setRole_fix (m : Dg) (c : Nat) (r : Role) : (setRole m c r).fix = m.fix := rfl
@[simp] theorem setRole_ftest (m : Dg) (c : Nat) (r : Role) : (setRole m c r).ftest = m.ftest := rfl
@[simp] theorem setRole_sec (m : Dg) (c : Nat) (r : Role) : (setRole m c r).sec = m.sec := rfl
@[simp] theorem setRole_net (m : Dg) (c : Nat) (r : Role) : (setRole m c r).net = m.net := rfl
@[simp] theorem setRole_pwr (m : Dg) (c : Nat) (r : Role) : (setRole m c r).pwr = m.pwr := rfl
@[simp] theorem setRole_bistExp (m : Dg) (c : Nat) (r : Role) : (setRole m c r).bistExp = m.bistExp := rfl
@[simp] theorem setRole_now (m : Dg) (c : Nat) (r : Role) : (setRole m c r).now = m.now := rfl
@[simp] theorem setRole_freeCount (m : Dg) (c : Nat) (r : Role) : (setRole m c r).freeCount = m.freeCount := rfl

@[simp] theorem updMbx_mbx (m : Dg) (f : Mbx → Mbx) : (updMbx m f).mbx = f m.mbx := rfl
@[simp] theorem updMbx_part (m : Dg) (f : Mbx → Mbx) : (updMbx m f).part = m.part := rfl
@[simp] theorem updMbx_ctx (m : Dg) (f : Mbx → Mbx) : (updMbx m f).ctx = m.ctx := rfl
@[simp] theorem updMbx_mem (m : Dg) (f : Mbx → Mbx) : (updMbx m f).mem = m.mem := rfl
@[simp] theorem updMbx_errs (m : Dg) (f : Mbx → Mbx) : (updMbx m f).errs = m.errs := rfl
@[simp] theorem updMbx_cfg (m : Dg) (f : Mbx → Mbx) : (updMbx m f).cfg = m.cfg := rfl
@[simp] theorem updMbx_stu (m : Dg) (f : Mbx → Mbx) : (updMbx m f).stu = m.stu := rfl
@[simp] theorem updMbx_easel (m : Dg) (f : Mbx → Mbx) : (updMbx m f).easel = m.easel := rfl
@[simp] theorem updMbx_boot (m : Dg) (f : Mbx → Mbx) : (updMbx m f).boot = m.boot := rfl
@[simp] theorem updMbx_fab (m : Dg) (f : Mbx → Mbx) : (updMbx m f).fab = m.fab := rfl
@[simp] theorem updMbx_cnv (m : Dg) (f : Mbx → Mbx) : (updMbx m f).cnv = m.cnv := rfl
@[simp] theorem updMbx_drc (m : Dg) (f : Mbx → Mbx) : (updMbx m f).drc = m.drc := rfl
@[simp] theorem updMbx_dma (m : Dg) (f : Mbx → Mbx) : (updMbx m f).dma = m.dma := rfl
@[simp] theorem updMbx_srcs (m : Dg) (f : Mbx → Mbx) : (updMbx m f).srcs = m.srcs := rfl
@[simp] theorem updMbx_fcr (m : Dg) (f : Mbx → Mbx) : (updMbx m f).fcr = m.fcr := rfl
@[simp] theorem updMbx_wdg (m : Dg) (f : Mbx → Mbx) : (updMbx m f).wdg = m.wdg := rfl
@[simp] theorem updMbx_supWdg (m : Dg) (f : Mbx → Mbx) : (updMbx m f).supWdg = m.supWdg := rfl
@[simp] theorem updMbx_fix (m : Dg) (f : Mbx → Mbx) : (updMbx m f).fix = m.fix := rfl
@[simp] theorem updMbx_ftest (m : Dg) (f : Mbx → Mbx) : (updMbx m f).ftest = m.ftest := rfl
@[simp] theorem updMbx_sec (m : Dg) (f : Mbx → Mbx) : (updMbx m f).sec = m.sec := rfl
@[simp] theorem updMbx_net (m : Dg) (f : Mbx → Mbx) : (updMbx m f).net = m.net := rfl
@[simp] theorem updMbx_pwr (m : Dg) (f : Mbx → Mbx) : (updMbx m f).pwr = m.pwr := rfl
@[simp] theorem updMbx_bistExp (m : Dg) (f : Mbx → Mbx) : (updMbx m f).bistExp = m.bistExp := rfl
@[simp] theorem updMbx_now (m : Dg) (f : Mbx → Mbx) : (updMbx m f).now = m.now := rfl
@[simp] theorem updMbx_freeCount (m : Dg) (f : Mbx → Mbx) : (updMbx m f).freeCount = m.freeCount := rfl

@[simp] theorem updBoot_boot (m : Dg) (f : Boot → Boot) : (updBoot m f).boot = f m.boot := rfl
@[simp] theorem updBoot_part (m : Dg) (f : Boot → Boot) : (updBoot m f).part = m.part := rfl
@[simp] theorem updBoot_ctx (m : Dg) (f : Boot → Boot) : (updBoot m f).ctx = m.ctx := rfl
@[simp] theorem updBoot_mem (m : Dg) (f : Boot → Boot) : (updBoot m f).mem = m.mem := rfl
@[simp] theorem updBoot_errs (m : Dg) (f : Boot → Boot) : (updBoot m f).errs = m.errs := rfl
@[simp] theorem updBoot_cfg (m : Dg) (f : Boot → Boot) : (updBoot m f).cfg = m.cfg := rfl
@[simp] theorem updBoot_stu (m : Dg) (f : Boot → Boot) : (updBoot m f).stu = m.stu := rfl
@[simp] theorem updBoot_mbx (m : Dg) (f : Boot → Boot) : (updBoot m f).mbx = m.mbx := rfl
@[simp] theorem updBoot_easel (m : Dg) (f : Boot → Boot) : (updBoot m f).easel = m.easel := rfl
@[simp] theorem updBoot_fab (m : Dg) (f : Boot → Boot) : (updBoot m f).fab = m.fab := rfl
@[simp] theorem updBoot_cnv (m : Dg) (f : Boot → Boot) : (updBoot m f).cnv = m.cnv := rfl
@[simp] theorem updBoot_drc (m : Dg) (f : Boot → Boot) : (updBoot m f).drc = m.drc := rfl
@[simp] theorem updBoot_dma (m : Dg) (f : Boot → Boot) : (updBoot m f).dma = m.dma := rfl
@[simp] theorem updBoot_srcs (m : Dg) (f : Boot → Boot) : (updBoot m f).srcs = m.srcs := rfl
@[simp] theorem updBoot_fcr (m : Dg) (f : Boot → Boot) : (updBoot m f).fcr = m.fcr := rfl
@[simp] theorem updBoot_wdg (m : Dg) (f : Boot → Boot) : (updBoot m f).wdg = m.wdg := rfl
@[simp] theorem updBoot_supWdg (m : Dg) (f : Boot → Boot) : (updBoot m f).supWdg = m.supWdg := rfl
@[simp] theorem updBoot_fix (m : Dg) (f : Boot → Boot) : (updBoot m f).fix = m.fix := rfl
@[simp] theorem updBoot_ftest (m : Dg) (f : Boot → Boot) : (updBoot m f).ftest = m.ftest := rfl
@[simp] theorem updBoot_sec (m : Dg) (f : Boot → Boot) : (updBoot m f).sec = m.sec := rfl
@[simp] theorem updBoot_net (m : Dg) (f : Boot → Boot) : (updBoot m f).net = m.net := rfl
@[simp] theorem updBoot_pwr (m : Dg) (f : Boot → Boot) : (updBoot m f).pwr = m.pwr := rfl
@[simp] theorem updBoot_bistExp (m : Dg) (f : Boot → Boot) : (updBoot m f).bistExp = m.bistExp := rfl
@[simp] theorem updBoot_now (m : Dg) (f : Boot → Boot) : (updBoot m f).now = m.now := rfl
@[simp] theorem updBoot_freeCount (m : Dg) (f : Boot → Boot) : (updBoot m f).freeCount = m.freeCount := rfl

@[simp] theorem updUnder_part (m : Dg) (f : Under → Under) : (updUnder m f).part = m.part := rfl
@[simp] theorem updUnder_ctx (m : Dg) (f : Under → Under) : (updUnder m f).ctx = m.ctx := rfl
@[simp] theorem updUnder_mem (m : Dg) (f : Under → Under) : (updUnder m f).mem = m.mem := rfl
@[simp] theorem updUnder_errs (m : Dg) (f : Under → Under) : (updUnder m f).errs = m.errs := rfl
@[simp] theorem updUnder_cfg (m : Dg) (f : Under → Under) : (updUnder m f).cfg = m.cfg := rfl
@[simp] theorem updUnder_stu (m : Dg) (f : Under → Under) : (updUnder m f).stu = m.stu := rfl
@[simp] theorem updUnder_mbx (m : Dg) (f : Under → Under) : (updUnder m f).mbx = m.mbx := rfl
@[simp] theorem updUnder_easel (m : Dg) (f : Under → Under) : (updUnder m f).easel = m.easel := rfl
@[simp] theorem updUnder_fab (m : Dg) (f : Under → Under) : (updUnder m f).fab = m.fab := rfl
@[simp] theorem updUnder_cnv (m : Dg) (f : Under → Under) : (updUnder m f).cnv = m.cnv := rfl
@[simp] theorem updUnder_drc (m : Dg) (f : Under → Under) : (updUnder m f).drc = m.drc := rfl
@[simp] theorem updUnder_dma (m : Dg) (f : Under → Under) : (updUnder m f).dma = m.dma := rfl
@[simp] theorem updUnder_srcs (m : Dg) (f : Under → Under) : (updUnder m f).srcs = m.srcs := rfl
@[simp] theorem updUnder_fcr (m : Dg) (f : Under → Under) : (updUnder m f).fcr = m.fcr := rfl
@[simp] theorem updUnder_wdg (m : Dg) (f : Under → Under) : (updUnder m f).wdg = m.wdg := rfl
@[simp] theorem updUnder_supWdg (m : Dg) (f : Under → Under) : (updUnder m f).supWdg = m.supWdg := rfl
@[simp] theorem updUnder_fix (m : Dg) (f : Under → Under) : (updUnder m f).fix = m.fix := rfl
@[simp] theorem updUnder_ftest (m : Dg) (f : Under → Under) : (updUnder m f).ftest = m.ftest := rfl
@[simp] theorem updUnder_sec (m : Dg) (f : Under → Under) : (updUnder m f).sec = m.sec := rfl
@[simp] theorem updUnder_net (m : Dg) (f : Under → Under) : (updUnder m f).net = m.net := rfl
@[simp] theorem updUnder_pwr (m : Dg) (f : Under → Under) : (updUnder m f).pwr = m.pwr := rfl
@[simp] theorem updUnder_bistExp (m : Dg) (f : Under → Under) : (updUnder m f).bistExp = m.bistExp := rfl
@[simp] theorem updUnder_now (m : Dg) (f : Under → Under) : (updUnder m f).now = m.now := rfl
@[simp] theorem updUnder_freeCount (m : Dg) (f : Under → Under) : (updUnder m f).freeCount = m.freeCount := rfl

@[simp] theorem updImg_part (m : Dg) (b : Nat) (f : CodeBank → CodeBank) : (updImg m b f).part = m.part := rfl
@[simp] theorem updImg_ctx (m : Dg) (b : Nat) (f : CodeBank → CodeBank) : (updImg m b f).ctx = m.ctx := rfl
@[simp] theorem updImg_mem (m : Dg) (b : Nat) (f : CodeBank → CodeBank) : (updImg m b f).mem = m.mem := rfl
@[simp] theorem updImg_errs (m : Dg) (b : Nat) (f : CodeBank → CodeBank) : (updImg m b f).errs = m.errs := rfl
@[simp] theorem updImg_cfg (m : Dg) (b : Nat) (f : CodeBank → CodeBank) : (updImg m b f).cfg = m.cfg := rfl
@[simp] theorem updImg_stu (m : Dg) (b : Nat) (f : CodeBank → CodeBank) : (updImg m b f).stu = m.stu := rfl
@[simp] theorem updImg_mbx (m : Dg) (b : Nat) (f : CodeBank → CodeBank) : (updImg m b f).mbx = m.mbx := rfl
@[simp] theorem updImg_easel (m : Dg) (b : Nat) (f : CodeBank → CodeBank) : (updImg m b f).easel = m.easel := rfl
@[simp] theorem updImg_fab (m : Dg) (b : Nat) (f : CodeBank → CodeBank) : (updImg m b f).fab = m.fab := rfl
@[simp] theorem updImg_cnv (m : Dg) (b : Nat) (f : CodeBank → CodeBank) : (updImg m b f).cnv = m.cnv := rfl
@[simp] theorem updImg_drc (m : Dg) (b : Nat) (f : CodeBank → CodeBank) : (updImg m b f).drc = m.drc := rfl
@[simp] theorem updImg_dma (m : Dg) (b : Nat) (f : CodeBank → CodeBank) : (updImg m b f).dma = m.dma := rfl
@[simp] theorem updImg_srcs (m : Dg) (b : Nat) (f : CodeBank → CodeBank) : (updImg m b f).srcs = m.srcs := rfl
@[simp] theorem updImg_fcr (m : Dg) (b : Nat) (f : CodeBank → CodeBank) : (updImg m b f).fcr = m.fcr := rfl
@[simp] theorem updImg_wdg (m : Dg) (b : Nat) (f : CodeBank → CodeBank) : (updImg m b f).wdg = m.wdg := rfl
@[simp] theorem updImg_supWdg (m : Dg) (b : Nat) (f : CodeBank → CodeBank) : (updImg m b f).supWdg = m.supWdg := rfl
@[simp] theorem updImg_fix (m : Dg) (b : Nat) (f : CodeBank → CodeBank) : (updImg m b f).fix = m.fix := rfl
@[simp] theorem updImg_ftest (m : Dg) (b : Nat) (f : CodeBank → CodeBank) : (updImg m b f).ftest = m.ftest := rfl
@[simp] theorem updImg_sec (m : Dg) (b : Nat) (f : CodeBank → CodeBank) : (updImg m b f).sec = m.sec := rfl
@[simp] theorem updImg_net (m : Dg) (b : Nat) (f : CodeBank → CodeBank) : (updImg m b f).net = m.net := rfl
@[simp] theorem updImg_pwr (m : Dg) (b : Nat) (f : CodeBank → CodeBank) : (updImg m b f).pwr = m.pwr := rfl
@[simp] theorem updImg_bistExp (m : Dg) (b : Nat) (f : CodeBank → CodeBank) : (updImg m b f).bistExp = m.bistExp := rfl
@[simp] theorem updImg_now (m : Dg) (b : Nat) (f : CodeBank → CodeBank) : (updImg m b f).now = m.now := rfl
@[simp] theorem updImg_freeCount (m : Dg) (b : Nat) (f : CodeBank → CodeBank) : (updImg m b f).freeCount = m.freeCount := rfl

@[simp] theorem measExtend_part (m : Dg) (i : Nat) (v : List Byte) : (measExtend m i v).part = m.part := by simp only [measExtend]
@[simp] theorem measExtend_ctx (m : Dg) (i : Nat) (v : List Byte) : (measExtend m i v).ctx = m.ctx := by simp only [measExtend]
@[simp] theorem measExtend_mem (m : Dg) (i : Nat) (v : List Byte) : (measExtend m i v).mem = m.mem := by simp only [measExtend]
@[simp] theorem measExtend_errs (m : Dg) (i : Nat) (v : List Byte) : (measExtend m i v).errs = m.errs := by simp only [measExtend]
@[simp] theorem measExtend_cfg (m : Dg) (i : Nat) (v : List Byte) : (measExtend m i v).cfg = m.cfg := by simp only [measExtend]
@[simp] theorem measExtend_stu (m : Dg) (i : Nat) (v : List Byte) : (measExtend m i v).stu = m.stu := by simp only [measExtend]
@[simp] theorem measExtend_mbx (m : Dg) (i : Nat) (v : List Byte) : (measExtend m i v).mbx = m.mbx := by simp only [measExtend]
@[simp] theorem measExtend_easel (m : Dg) (i : Nat) (v : List Byte) : (measExtend m i v).easel = m.easel := by simp only [measExtend]
@[simp] theorem measExtend_fab (m : Dg) (i : Nat) (v : List Byte) : (measExtend m i v).fab = m.fab := by simp only [measExtend]
@[simp] theorem measExtend_cnv (m : Dg) (i : Nat) (v : List Byte) : (measExtend m i v).cnv = m.cnv := by simp only [measExtend]
@[simp] theorem measExtend_drc (m : Dg) (i : Nat) (v : List Byte) : (measExtend m i v).drc = m.drc := by simp only [measExtend]
@[simp] theorem measExtend_dma (m : Dg) (i : Nat) (v : List Byte) : (measExtend m i v).dma = m.dma := by simp only [measExtend]
@[simp] theorem measExtend_srcs (m : Dg) (i : Nat) (v : List Byte) : (measExtend m i v).srcs = m.srcs := by simp only [measExtend]
@[simp] theorem measExtend_fcr (m : Dg) (i : Nat) (v : List Byte) : (measExtend m i v).fcr = m.fcr := by simp only [measExtend]
@[simp] theorem measExtend_wdg (m : Dg) (i : Nat) (v : List Byte) : (measExtend m i v).wdg = m.wdg := by simp only [measExtend]
@[simp] theorem measExtend_supWdg (m : Dg) (i : Nat) (v : List Byte) : (measExtend m i v).supWdg = m.supWdg := by simp only [measExtend]
@[simp] theorem measExtend_fix (m : Dg) (i : Nat) (v : List Byte) : (measExtend m i v).fix = m.fix := by simp only [measExtend]
@[simp] theorem measExtend_ftest (m : Dg) (i : Nat) (v : List Byte) : (measExtend m i v).ftest = m.ftest := by simp only [measExtend]
@[simp] theorem measExtend_sec (m : Dg) (i : Nat) (v : List Byte) : (measExtend m i v).sec = m.sec := by simp only [measExtend]
@[simp] theorem measExtend_net (m : Dg) (i : Nat) (v : List Byte) : (measExtend m i v).net = m.net := by simp only [measExtend]
@[simp] theorem measExtend_pwr (m : Dg) (i : Nat) (v : List Byte) : (measExtend m i v).pwr = m.pwr := by simp only [measExtend]
@[simp] theorem measExtend_bistExp (m : Dg) (i : Nat) (v : List Byte) : (measExtend m i v).bistExp = m.bistExp := by simp only [measExtend]
@[simp] theorem measExtend_now (m : Dg) (i : Nat) (v : List Byte) : (measExtend m i v).now = m.now := by simp only [measExtend]
@[simp] theorem measExtend_freeCount (m : Dg) (i : Nat) (v : List Byte) : (measExtend m i v).freeCount = m.freeCount := by simp only [measExtend]

@[simp] theorem updFcr_fcr (m : Dg) (f : Fcr → Fcr) : (updFcr m f).fcr = f m.fcr := rfl
@[simp] theorem updFcr_part (m : Dg) (f : Fcr → Fcr) : (updFcr m f).part = m.part := rfl
@[simp] theorem updFcr_ctx (m : Dg) (f : Fcr → Fcr) : (updFcr m f).ctx = m.ctx := rfl
@[simp] theorem updFcr_mem (m : Dg) (f : Fcr → Fcr) : (updFcr m f).mem = m.mem := rfl
@[simp] theorem updFcr_errs (m : Dg) (f : Fcr → Fcr) : (updFcr m f).errs = m.errs := rfl
@[simp] theorem updFcr_cfg (m : Dg) (f : Fcr → Fcr) : (updFcr m f).cfg = m.cfg := rfl
@[simp] theorem updFcr_stu (m : Dg) (f : Fcr → Fcr) : (updFcr m f).stu = m.stu := rfl
@[simp] theorem updFcr_mbx (m : Dg) (f : Fcr → Fcr) : (updFcr m f).mbx = m.mbx := rfl
@[simp] theorem updFcr_easel (m : Dg) (f : Fcr → Fcr) : (updFcr m f).easel = m.easel := rfl
@[simp] theorem updFcr_boot (m : Dg) (f : Fcr → Fcr) : (updFcr m f).boot = m.boot := rfl
@[simp] theorem updFcr_fab (m : Dg) (f : Fcr → Fcr) : (updFcr m f).fab = m.fab := rfl
@[simp] theorem updFcr_cnv (m : Dg) (f : Fcr → Fcr) : (updFcr m f).cnv = m.cnv := rfl
@[simp] theorem updFcr_drc (m : Dg) (f : Fcr → Fcr) : (updFcr m f).drc = m.drc := rfl
@[simp] theorem updFcr_dma (m : Dg) (f : Fcr → Fcr) : (updFcr m f).dma = m.dma := rfl
@[simp] theorem updFcr_srcs (m : Dg) (f : Fcr → Fcr) : (updFcr m f).srcs = m.srcs := rfl
@[simp] theorem updFcr_wdg (m : Dg) (f : Fcr → Fcr) : (updFcr m f).wdg = m.wdg := rfl
@[simp] theorem updFcr_supWdg (m : Dg) (f : Fcr → Fcr) : (updFcr m f).supWdg = m.supWdg := rfl
@[simp] theorem updFcr_fix (m : Dg) (f : Fcr → Fcr) : (updFcr m f).fix = m.fix := rfl
@[simp] theorem updFcr_ftest (m : Dg) (f : Fcr → Fcr) : (updFcr m f).ftest = m.ftest := rfl
@[simp] theorem updFcr_sec (m : Dg) (f : Fcr → Fcr) : (updFcr m f).sec = m.sec := rfl
@[simp] theorem updFcr_net (m : Dg) (f : Fcr → Fcr) : (updFcr m f).net = m.net := rfl
@[simp] theorem updFcr_pwr (m : Dg) (f : Fcr → Fcr) : (updFcr m f).pwr = m.pwr := rfl
@[simp] theorem updFcr_bistExp (m : Dg) (f : Fcr → Fcr) : (updFcr m f).bistExp = m.bistExp := rfl
@[simp] theorem updFcr_now (m : Dg) (f : Fcr → Fcr) : (updFcr m f).now = m.now := rfl
@[simp] theorem updFcr_freeCount (m : Dg) (f : Fcr → Fcr) : (updFcr m f).freeCount = m.freeCount := rfl

@[simp] theorem reportI_part (m : Dg) (j : Bool) (src kind detail addr subject : Nat) : (reportI m j src kind detail addr subject).part = m.part := rfl
@[simp] theorem reportI_ctx (m : Dg) (j : Bool) (src kind detail addr subject : Nat) : (reportI m j src kind detail addr subject).ctx = m.ctx := rfl
@[simp] theorem reportI_mem (m : Dg) (j : Bool) (src kind detail addr subject : Nat) : (reportI m j src kind detail addr subject).mem = m.mem := rfl
@[simp] theorem reportI_errs (m : Dg) (j : Bool) (src kind detail addr subject : Nat) : (reportI m j src kind detail addr subject).errs = m.errs := rfl
@[simp] theorem reportI_cfg (m : Dg) (j : Bool) (src kind detail addr subject : Nat) : (reportI m j src kind detail addr subject).cfg = m.cfg := rfl
@[simp] theorem reportI_stu (m : Dg) (j : Bool) (src kind detail addr subject : Nat) : (reportI m j src kind detail addr subject).stu = m.stu := rfl
@[simp] theorem reportI_mbx (m : Dg) (j : Bool) (src kind detail addr subject : Nat) : (reportI m j src kind detail addr subject).mbx = m.mbx := rfl
@[simp] theorem reportI_easel (m : Dg) (j : Bool) (src kind detail addr subject : Nat) : (reportI m j src kind detail addr subject).easel = m.easel := rfl
@[simp] theorem reportI_boot (m : Dg) (j : Bool) (src kind detail addr subject : Nat) : (reportI m j src kind detail addr subject).boot = m.boot := rfl
@[simp] theorem reportI_fab (m : Dg) (j : Bool) (src kind detail addr subject : Nat) : (reportI m j src kind detail addr subject).fab = m.fab := rfl
@[simp] theorem reportI_cnv (m : Dg) (j : Bool) (src kind detail addr subject : Nat) : (reportI m j src kind detail addr subject).cnv = m.cnv := rfl
@[simp] theorem reportI_drc (m : Dg) (j : Bool) (src kind detail addr subject : Nat) : (reportI m j src kind detail addr subject).drc = m.drc := rfl
@[simp] theorem reportI_dma (m : Dg) (j : Bool) (src kind detail addr subject : Nat) : (reportI m j src kind detail addr subject).dma = m.dma := rfl
@[simp] theorem reportI_fcr (m : Dg) (j : Bool) (src kind detail addr subject : Nat) : (reportI m j src kind detail addr subject).fcr = m.fcr := rfl
@[simp] theorem reportI_wdg (m : Dg) (j : Bool) (src kind detail addr subject : Nat) : (reportI m j src kind detail addr subject).wdg = m.wdg := rfl
@[simp] theorem reportI_supWdg (m : Dg) (j : Bool) (src kind detail addr subject : Nat) : (reportI m j src kind detail addr subject).supWdg = m.supWdg := rfl
@[simp] theorem reportI_fix (m : Dg) (j : Bool) (src kind detail addr subject : Nat) : (reportI m j src kind detail addr subject).fix = m.fix := rfl
@[simp] theorem reportI_ftest (m : Dg) (j : Bool) (src kind detail addr subject : Nat) : (reportI m j src kind detail addr subject).ftest = m.ftest := rfl
@[simp] theorem reportI_sec (m : Dg) (j : Bool) (src kind detail addr subject : Nat) : (reportI m j src kind detail addr subject).sec = m.sec := rfl
@[simp] theorem reportI_net (m : Dg) (j : Bool) (src kind detail addr subject : Nat) : (reportI m j src kind detail addr subject).net = m.net := rfl
@[simp] theorem reportI_pwr (m : Dg) (j : Bool) (src kind detail addr subject : Nat) : (reportI m j src kind detail addr subject).pwr = m.pwr := rfl
@[simp] theorem reportI_bistExp (m : Dg) (j : Bool) (src kind detail addr subject : Nat) : (reportI m j src kind detail addr subject).bistExp = m.bistExp := rfl
@[simp] theorem reportI_now (m : Dg) (j : Bool) (src kind detail addr subject : Nat) : (reportI m j src kind detail addr subject).now = m.now := rfl
@[simp] theorem reportI_freeCount (m : Dg) (j : Bool) (src kind detail addr subject : Nat) : (reportI m j src kind detail addr subject).freeCount = m.freeCount := rfl

@[simp] theorem report_part (m : Dg) (src kind detail addr subject : Nat) : (report m src kind detail addr subject).part = m.part := rfl
@[simp] theorem report_ctx (m : Dg) (src kind detail addr subject : Nat) : (report m src kind detail addr subject).ctx = m.ctx := rfl
@[simp] theorem report_mem (m : Dg) (src kind detail addr subject : Nat) : (report m src kind detail addr subject).mem = m.mem := rfl
@[simp] theorem report_errs (m : Dg) (src kind detail addr subject : Nat) : (report m src kind detail addr subject).errs = m.errs := rfl
@[simp] theorem report_cfg (m : Dg) (src kind detail addr subject : Nat) : (report m src kind detail addr subject).cfg = m.cfg := rfl
@[simp] theorem report_stu (m : Dg) (src kind detail addr subject : Nat) : (report m src kind detail addr subject).stu = m.stu := rfl
@[simp] theorem report_mbx (m : Dg) (src kind detail addr subject : Nat) : (report m src kind detail addr subject).mbx = m.mbx := rfl
@[simp] theorem report_easel (m : Dg) (src kind detail addr subject : Nat) : (report m src kind detail addr subject).easel = m.easel := rfl
@[simp] theorem report_boot (m : Dg) (src kind detail addr subject : Nat) : (report m src kind detail addr subject).boot = m.boot := rfl
@[simp] theorem report_fab (m : Dg) (src kind detail addr subject : Nat) : (report m src kind detail addr subject).fab = m.fab := rfl
@[simp] theorem report_cnv (m : Dg) (src kind detail addr subject : Nat) : (report m src kind detail addr subject).cnv = m.cnv := rfl
@[simp] theorem report_drc (m : Dg) (src kind detail addr subject : Nat) : (report m src kind detail addr subject).drc = m.drc := rfl
@[simp] theorem report_dma (m : Dg) (src kind detail addr subject : Nat) : (report m src kind detail addr subject).dma = m.dma := rfl
@[simp] theorem report_fcr (m : Dg) (src kind detail addr subject : Nat) : (report m src kind detail addr subject).fcr = m.fcr := rfl
@[simp] theorem report_wdg (m : Dg) (src kind detail addr subject : Nat) : (report m src kind detail addr subject).wdg = m.wdg := rfl
@[simp] theorem report_supWdg (m : Dg) (src kind detail addr subject : Nat) : (report m src kind detail addr subject).supWdg = m.supWdg := rfl
@[simp] theorem report_fix (m : Dg) (src kind detail addr subject : Nat) : (report m src kind detail addr subject).fix = m.fix := rfl
@[simp] theorem report_ftest (m : Dg) (src kind detail addr subject : Nat) : (report m src kind detail addr subject).ftest = m.ftest := rfl
@[simp] theorem report_sec (m : Dg) (src kind detail addr subject : Nat) : (report m src kind detail addr subject).sec = m.sec := rfl
@[simp] theorem report_net (m : Dg) (src kind detail addr subject : Nat) : (report m src kind detail addr subject).net = m.net := rfl
@[simp] theorem report_pwr (m : Dg) (src kind detail addr subject : Nat) : (report m src kind detail addr subject).pwr = m.pwr := rfl
@[simp] theorem report_bistExp (m : Dg) (src kind detail addr subject : Nat) : (report m src kind detail addr subject).bistExp = m.bistExp := rfl
@[simp] theorem report_now (m : Dg) (src kind detail addr subject : Nat) : (report m src kind detail addr subject).now = m.now := rfl
@[simp] theorem report_freeCount (m : Dg) (src kind detail addr subject : Nat) : (report m src kind detail addr subject).freeCount = m.freeCount := rfl

@[simp] theorem reportOwn_part (m : Dg) (src kind detail addr : Nat) : (reportOwn m src kind detail addr).part = m.part := rfl
@[simp] theorem reportOwn_ctx (m : Dg) (src kind detail addr : Nat) : (reportOwn m src kind detail addr).ctx = m.ctx := rfl
@[simp] theorem reportOwn_mem (m : Dg) (src kind detail addr : Nat) : (reportOwn m src kind detail addr).mem = m.mem := rfl
@[simp] theorem reportOwn_errs (m : Dg) (src kind detail addr : Nat) : (reportOwn m src kind detail addr).errs = m.errs := rfl
@[simp] theorem reportOwn_cfg (m : Dg) (src kind detail addr : Nat) : (reportOwn m src kind detail addr).cfg = m.cfg := rfl
@[simp] theorem reportOwn_stu (m : Dg) (src kind detail addr : Nat) : (reportOwn m src kind detail addr).stu = m.stu := rfl
@[simp] theorem reportOwn_mbx (m : Dg) (src kind detail addr : Nat) : (reportOwn m src kind detail addr).mbx = m.mbx := rfl
@[simp] theorem reportOwn_easel (m : Dg) (src kind detail addr : Nat) : (reportOwn m src kind detail addr).easel = m.easel := rfl
@[simp] theorem reportOwn_boot (m : Dg) (src kind detail addr : Nat) : (reportOwn m src kind detail addr).boot = m.boot := rfl
@[simp] theorem reportOwn_fab (m : Dg) (src kind detail addr : Nat) : (reportOwn m src kind detail addr).fab = m.fab := rfl
@[simp] theorem reportOwn_cnv (m : Dg) (src kind detail addr : Nat) : (reportOwn m src kind detail addr).cnv = m.cnv := rfl
@[simp] theorem reportOwn_drc (m : Dg) (src kind detail addr : Nat) : (reportOwn m src kind detail addr).drc = m.drc := rfl
@[simp] theorem reportOwn_dma (m : Dg) (src kind detail addr : Nat) : (reportOwn m src kind detail addr).dma = m.dma := rfl
@[simp] theorem reportOwn_fcr (m : Dg) (src kind detail addr : Nat) : (reportOwn m src kind detail addr).fcr = m.fcr := rfl
@[simp] theorem reportOwn_wdg (m : Dg) (src kind detail addr : Nat) : (reportOwn m src kind detail addr).wdg = m.wdg := rfl
@[simp] theorem reportOwn_supWdg (m : Dg) (src kind detail addr : Nat) : (reportOwn m src kind detail addr).supWdg = m.supWdg := rfl
@[simp] theorem reportOwn_fix (m : Dg) (src kind detail addr : Nat) : (reportOwn m src kind detail addr).fix = m.fix := rfl
@[simp] theorem reportOwn_ftest (m : Dg) (src kind detail addr : Nat) : (reportOwn m src kind detail addr).ftest = m.ftest := rfl
@[simp] theorem reportOwn_sec (m : Dg) (src kind detail addr : Nat) : (reportOwn m src kind detail addr).sec = m.sec := rfl
@[simp] theorem reportOwn_net (m : Dg) (src kind detail addr : Nat) : (reportOwn m src kind detail addr).net = m.net := rfl
@[simp] theorem reportOwn_pwr (m : Dg) (src kind detail addr : Nat) : (reportOwn m src kind detail addr).pwr = m.pwr := rfl
@[simp] theorem reportOwn_bistExp (m : Dg) (src kind detail addr : Nat) : (reportOwn m src kind detail addr).bistExp = m.bistExp := rfl
@[simp] theorem reportOwn_now (m : Dg) (src kind detail addr : Nat) : (reportOwn m src kind detail addr).now = m.now := rfl
@[simp] theorem reportOwn_freeCount (m : Dg) (src kind detail addr : Nat) : (reportOwn m src kind detail addr).freeCount = m.freeCount := rfl

@[simp] theorem reportOpen_part (m : Dg) (src kind addr : Nat) : (reportOpen m src kind addr).part = m.part := rfl
@[simp] theorem reportOpen_ctx (m : Dg) (src kind addr : Nat) : (reportOpen m src kind addr).ctx = m.ctx := rfl
@[simp] theorem reportOpen_mem (m : Dg) (src kind addr : Nat) : (reportOpen m src kind addr).mem = m.mem := rfl
@[simp] theorem reportOpen_errs (m : Dg) (src kind addr : Nat) : (reportOpen m src kind addr).errs = m.errs := rfl
@[simp] theorem reportOpen_cfg (m : Dg) (src kind addr : Nat) : (reportOpen m src kind addr).cfg = m.cfg := rfl
@[simp] theorem reportOpen_stu (m : Dg) (src kind addr : Nat) : (reportOpen m src kind addr).stu = m.stu := rfl
@[simp] theorem reportOpen_mbx (m : Dg) (src kind addr : Nat) : (reportOpen m src kind addr).mbx = m.mbx := rfl
@[simp] theorem reportOpen_easel (m : Dg) (src kind addr : Nat) : (reportOpen m src kind addr).easel = m.easel := rfl
@[simp] theorem reportOpen_boot (m : Dg) (src kind addr : Nat) : (reportOpen m src kind addr).boot = m.boot := rfl
@[simp] theorem reportOpen_fab (m : Dg) (src kind addr : Nat) : (reportOpen m src kind addr).fab = m.fab := rfl
@[simp] theorem reportOpen_cnv (m : Dg) (src kind addr : Nat) : (reportOpen m src kind addr).cnv = m.cnv := rfl
@[simp] theorem reportOpen_drc (m : Dg) (src kind addr : Nat) : (reportOpen m src kind addr).drc = m.drc := rfl
@[simp] theorem reportOpen_dma (m : Dg) (src kind addr : Nat) : (reportOpen m src kind addr).dma = m.dma := rfl
@[simp] theorem reportOpen_fcr (m : Dg) (src kind addr : Nat) : (reportOpen m src kind addr).fcr = m.fcr := rfl
@[simp] theorem reportOpen_wdg (m : Dg) (src kind addr : Nat) : (reportOpen m src kind addr).wdg = m.wdg := rfl
@[simp] theorem reportOpen_supWdg (m : Dg) (src kind addr : Nat) : (reportOpen m src kind addr).supWdg = m.supWdg := rfl
@[simp] theorem reportOpen_fix (m : Dg) (src kind addr : Nat) : (reportOpen m src kind addr).fix = m.fix := rfl
@[simp] theorem reportOpen_ftest (m : Dg) (src kind addr : Nat) : (reportOpen m src kind addr).ftest = m.ftest := rfl
@[simp] theorem reportOpen_sec (m : Dg) (src kind addr : Nat) : (reportOpen m src kind addr).sec = m.sec := rfl
@[simp] theorem reportOpen_net (m : Dg) (src kind addr : Nat) : (reportOpen m src kind addr).net = m.net := rfl
@[simp] theorem reportOpen_pwr (m : Dg) (src kind addr : Nat) : (reportOpen m src kind addr).pwr = m.pwr := rfl
@[simp] theorem reportOpen_bistExp (m : Dg) (src kind addr : Nat) : (reportOpen m src kind addr).bistExp = m.bistExp := rfl
@[simp] theorem reportOpen_now (m : Dg) (src kind addr : Nat) : (reportOpen m src kind addr).now = m.now := rfl
@[simp] theorem reportOpen_freeCount (m : Dg) (src kind addr : Nat) : (reportOpen m src kind addr).freeCount = m.freeCount := rfl

@[simp] theorem endCondIf_part (m : Dg) (src kind : Nat) (p : FaultMsg → Bool) : (endCondIf m src kind p).part = m.part := rfl
@[simp] theorem endCondIf_ctx (m : Dg) (src kind : Nat) (p : FaultMsg → Bool) : (endCondIf m src kind p).ctx = m.ctx := rfl
@[simp] theorem endCondIf_mem (m : Dg) (src kind : Nat) (p : FaultMsg → Bool) : (endCondIf m src kind p).mem = m.mem := rfl
@[simp] theorem endCondIf_errs (m : Dg) (src kind : Nat) (p : FaultMsg → Bool) : (endCondIf m src kind p).errs = m.errs := rfl
@[simp] theorem endCondIf_cfg (m : Dg) (src kind : Nat) (p : FaultMsg → Bool) : (endCondIf m src kind p).cfg = m.cfg := rfl
@[simp] theorem endCondIf_stu (m : Dg) (src kind : Nat) (p : FaultMsg → Bool) : (endCondIf m src kind p).stu = m.stu := rfl
@[simp] theorem endCondIf_mbx (m : Dg) (src kind : Nat) (p : FaultMsg → Bool) : (endCondIf m src kind p).mbx = m.mbx := rfl
@[simp] theorem endCondIf_easel (m : Dg) (src kind : Nat) (p : FaultMsg → Bool) : (endCondIf m src kind p).easel = m.easel := rfl
@[simp] theorem endCondIf_boot (m : Dg) (src kind : Nat) (p : FaultMsg → Bool) : (endCondIf m src kind p).boot = m.boot := rfl
@[simp] theorem endCondIf_fab (m : Dg) (src kind : Nat) (p : FaultMsg → Bool) : (endCondIf m src kind p).fab = m.fab := rfl
@[simp] theorem endCondIf_cnv (m : Dg) (src kind : Nat) (p : FaultMsg → Bool) : (endCondIf m src kind p).cnv = m.cnv := rfl
@[simp] theorem endCondIf_drc (m : Dg) (src kind : Nat) (p : FaultMsg → Bool) : (endCondIf m src kind p).drc = m.drc := rfl
@[simp] theorem endCondIf_dma (m : Dg) (src kind : Nat) (p : FaultMsg → Bool) : (endCondIf m src kind p).dma = m.dma := rfl
@[simp] theorem endCondIf_wdg (m : Dg) (src kind : Nat) (p : FaultMsg → Bool) : (endCondIf m src kind p).wdg = m.wdg := rfl
@[simp] theorem endCondIf_supWdg (m : Dg) (src kind : Nat) (p : FaultMsg → Bool) : (endCondIf m src kind p).supWdg = m.supWdg := rfl
@[simp] theorem endCondIf_fix (m : Dg) (src kind : Nat) (p : FaultMsg → Bool) : (endCondIf m src kind p).fix = m.fix := rfl
@[simp] theorem endCondIf_ftest (m : Dg) (src kind : Nat) (p : FaultMsg → Bool) : (endCondIf m src kind p).ftest = m.ftest := rfl
@[simp] theorem endCondIf_sec (m : Dg) (src kind : Nat) (p : FaultMsg → Bool) : (endCondIf m src kind p).sec = m.sec := rfl
@[simp] theorem endCondIf_net (m : Dg) (src kind : Nat) (p : FaultMsg → Bool) : (endCondIf m src kind p).net = m.net := rfl
@[simp] theorem endCondIf_pwr (m : Dg) (src kind : Nat) (p : FaultMsg → Bool) : (endCondIf m src kind p).pwr = m.pwr := rfl
@[simp] theorem endCondIf_bistExp (m : Dg) (src kind : Nat) (p : FaultMsg → Bool) : (endCondIf m src kind p).bistExp = m.bistExp := rfl
@[simp] theorem endCondIf_now (m : Dg) (src kind : Nat) (p : FaultMsg → Bool) : (endCondIf m src kind p).now = m.now := rfl
@[simp] theorem endCondIf_freeCount (m : Dg) (src kind : Nat) (p : FaultMsg → Bool) : (endCondIf m src kind p).freeCount = m.freeCount := rfl

@[simp] theorem endCond_part (m : Dg) (src kind : Nat) : (endCond m src kind).part = m.part := rfl
@[simp] theorem endCond_ctx (m : Dg) (src kind : Nat) : (endCond m src kind).ctx = m.ctx := rfl
@[simp] theorem endCond_mem (m : Dg) (src kind : Nat) : (endCond m src kind).mem = m.mem := rfl
@[simp] theorem endCond_errs (m : Dg) (src kind : Nat) : (endCond m src kind).errs = m.errs := rfl
@[simp] theorem endCond_cfg (m : Dg) (src kind : Nat) : (endCond m src kind).cfg = m.cfg := rfl
@[simp] theorem endCond_stu (m : Dg) (src kind : Nat) : (endCond m src kind).stu = m.stu := rfl
@[simp] theorem endCond_mbx (m : Dg) (src kind : Nat) : (endCond m src kind).mbx = m.mbx := rfl
@[simp] theorem endCond_easel (m : Dg) (src kind : Nat) : (endCond m src kind).easel = m.easel := rfl
@[simp] theorem endCond_boot (m : Dg) (src kind : Nat) : (endCond m src kind).boot = m.boot := rfl
@[simp] theorem endCond_fab (m : Dg) (src kind : Nat) : (endCond m src kind).fab = m.fab := rfl
@[simp] theorem endCond_cnv (m : Dg) (src kind : Nat) : (endCond m src kind).cnv = m.cnv := rfl
@[simp] theorem endCond_drc (m : Dg) (src kind : Nat) : (endCond m src kind).drc = m.drc := rfl
@[simp] theorem endCond_dma (m : Dg) (src kind : Nat) : (endCond m src kind).dma = m.dma := rfl
@[simp] theorem endCond_wdg (m : Dg) (src kind : Nat) : (endCond m src kind).wdg = m.wdg := rfl
@[simp] theorem endCond_supWdg (m : Dg) (src kind : Nat) : (endCond m src kind).supWdg = m.supWdg := rfl
@[simp] theorem endCond_fix (m : Dg) (src kind : Nat) : (endCond m src kind).fix = m.fix := rfl
@[simp] theorem endCond_ftest (m : Dg) (src kind : Nat) : (endCond m src kind).ftest = m.ftest := rfl
@[simp] theorem endCond_sec (m : Dg) (src kind : Nat) : (endCond m src kind).sec = m.sec := rfl
@[simp] theorem endCond_net (m : Dg) (src kind : Nat) : (endCond m src kind).net = m.net := rfl
@[simp] theorem endCond_pwr (m : Dg) (src kind : Nat) : (endCond m src kind).pwr = m.pwr := rfl
@[simp] theorem endCond_bistExp (m : Dg) (src kind : Nat) : (endCond m src kind).bistExp = m.bistExp := rfl
@[simp] theorem endCond_now (m : Dg) (src kind : Nat) : (endCond m src kind).now = m.now := rfl
@[simp] theorem endCond_freeCount (m : Dg) (src kind : Nat) : (endCond m src kind).freeCount = m.freeCount := rfl

@[simp] theorem updWdg_part (m : Dg) (n : Nat) (f : Wdg → Wdg) : (updWdg m n f).part = m.part := rfl
@[simp] theorem updWdg_ctx (m : Dg) (n : Nat) (f : Wdg → Wdg) : (updWdg m n f).ctx = m.ctx := rfl
@[simp] theorem updWdg_mem (m : Dg) (n : Nat) (f : Wdg → Wdg) : (updWdg m n f).mem = m.mem := rfl
@[simp] theorem updWdg_errs (m : Dg) (n : Nat) (f : Wdg → Wdg) : (updWdg m n f).errs = m.errs := rfl
@[simp] theorem updWdg_cfg (m : Dg) (n : Nat) (f : Wdg → Wdg) : (updWdg m n f).cfg = m.cfg := rfl
@[simp] theorem updWdg_stu (m : Dg) (n : Nat) (f : Wdg → Wdg) : (updWdg m n f).stu = m.stu := rfl
@[simp] theorem updWdg_mbx (m : Dg) (n : Nat) (f : Wdg → Wdg) : (updWdg m n f).mbx = m.mbx := rfl
@[simp] theorem updWdg_easel (m : Dg) (n : Nat) (f : Wdg → Wdg) : (updWdg m n f).easel = m.easel := rfl
@[simp] theorem updWdg_boot (m : Dg) (n : Nat) (f : Wdg → Wdg) : (updWdg m n f).boot = m.boot := rfl
@[simp] theorem updWdg_fab (m : Dg) (n : Nat) (f : Wdg → Wdg) : (updWdg m n f).fab = m.fab := rfl
@[simp] theorem updWdg_cnv (m : Dg) (n : Nat) (f : Wdg → Wdg) : (updWdg m n f).cnv = m.cnv := rfl
@[simp] theorem updWdg_drc (m : Dg) (n : Nat) (f : Wdg → Wdg) : (updWdg m n f).drc = m.drc := rfl
@[simp] theorem updWdg_dma (m : Dg) (n : Nat) (f : Wdg → Wdg) : (updWdg m n f).dma = m.dma := rfl
@[simp] theorem updWdg_srcs (m : Dg) (n : Nat) (f : Wdg → Wdg) : (updWdg m n f).srcs = m.srcs := rfl
@[simp] theorem updWdg_fcr (m : Dg) (n : Nat) (f : Wdg → Wdg) : (updWdg m n f).fcr = m.fcr := rfl
@[simp] theorem updWdg_supWdg (m : Dg) (n : Nat) (f : Wdg → Wdg) : (updWdg m n f).supWdg = m.supWdg := rfl
@[simp] theorem updWdg_fix (m : Dg) (n : Nat) (f : Wdg → Wdg) : (updWdg m n f).fix = m.fix := rfl
@[simp] theorem updWdg_ftest (m : Dg) (n : Nat) (f : Wdg → Wdg) : (updWdg m n f).ftest = m.ftest := rfl
@[simp] theorem updWdg_sec (m : Dg) (n : Nat) (f : Wdg → Wdg) : (updWdg m n f).sec = m.sec := rfl
@[simp] theorem updWdg_net (m : Dg) (n : Nat) (f : Wdg → Wdg) : (updWdg m n f).net = m.net := rfl
@[simp] theorem updWdg_pwr (m : Dg) (n : Nat) (f : Wdg → Wdg) : (updWdg m n f).pwr = m.pwr := rfl
@[simp] theorem updWdg_bistExp (m : Dg) (n : Nat) (f : Wdg → Wdg) : (updWdg m n f).bistExp = m.bistExp := rfl
@[simp] theorem updWdg_now (m : Dg) (n : Nat) (f : Wdg → Wdg) : (updWdg m n f).now = m.now := rfl
@[simp] theorem updWdg_freeCount (m : Dg) (n : Nat) (f : Wdg → Wdg) : (updWdg m n f).freeCount = m.freeCount := rfl

@[simp] theorem updWdgs_part (m : Dg) (pid : Nat) (f : Wdg → Wdg) : (updWdgs m pid f).part = m.part := rfl
@[simp] theorem updWdgs_ctx (m : Dg) (pid : Nat) (f : Wdg → Wdg) : (updWdgs m pid f).ctx = m.ctx := rfl
@[simp] theorem updWdgs_mem (m : Dg) (pid : Nat) (f : Wdg → Wdg) : (updWdgs m pid f).mem = m.mem := rfl
@[simp] theorem updWdgs_errs (m : Dg) (pid : Nat) (f : Wdg → Wdg) : (updWdgs m pid f).errs = m.errs := rfl
@[simp] theorem updWdgs_cfg (m : Dg) (pid : Nat) (f : Wdg → Wdg) : (updWdgs m pid f).cfg = m.cfg := rfl
@[simp] theorem updWdgs_stu (m : Dg) (pid : Nat) (f : Wdg → Wdg) : (updWdgs m pid f).stu = m.stu := rfl
@[simp] theorem updWdgs_mbx (m : Dg) (pid : Nat) (f : Wdg → Wdg) : (updWdgs m pid f).mbx = m.mbx := rfl
@[simp] theorem updWdgs_easel (m : Dg) (pid : Nat) (f : Wdg → Wdg) : (updWdgs m pid f).easel = m.easel := rfl
@[simp] theorem updWdgs_boot (m : Dg) (pid : Nat) (f : Wdg → Wdg) : (updWdgs m pid f).boot = m.boot := rfl
@[simp] theorem updWdgs_fab (m : Dg) (pid : Nat) (f : Wdg → Wdg) : (updWdgs m pid f).fab = m.fab := rfl
@[simp] theorem updWdgs_cnv (m : Dg) (pid : Nat) (f : Wdg → Wdg) : (updWdgs m pid f).cnv = m.cnv := rfl
@[simp] theorem updWdgs_drc (m : Dg) (pid : Nat) (f : Wdg → Wdg) : (updWdgs m pid f).drc = m.drc := rfl
@[simp] theorem updWdgs_dma (m : Dg) (pid : Nat) (f : Wdg → Wdg) : (updWdgs m pid f).dma = m.dma := rfl
@[simp] theorem updWdgs_srcs (m : Dg) (pid : Nat) (f : Wdg → Wdg) : (updWdgs m pid f).srcs = m.srcs := rfl
@[simp] theorem updWdgs_fcr (m : Dg) (pid : Nat) (f : Wdg → Wdg) : (updWdgs m pid f).fcr = m.fcr := rfl
@[simp] theorem updWdgs_supWdg (m : Dg) (pid : Nat) (f : Wdg → Wdg) : (updWdgs m pid f).supWdg = m.supWdg := rfl
@[simp] theorem updWdgs_fix (m : Dg) (pid : Nat) (f : Wdg → Wdg) : (updWdgs m pid f).fix = m.fix := rfl
@[simp] theorem updWdgs_ftest (m : Dg) (pid : Nat) (f : Wdg → Wdg) : (updWdgs m pid f).ftest = m.ftest := rfl
@[simp] theorem updWdgs_sec (m : Dg) (pid : Nat) (f : Wdg → Wdg) : (updWdgs m pid f).sec = m.sec := rfl
@[simp] theorem updWdgs_net (m : Dg) (pid : Nat) (f : Wdg → Wdg) : (updWdgs m pid f).net = m.net := rfl
@[simp] theorem updWdgs_pwr (m : Dg) (pid : Nat) (f : Wdg → Wdg) : (updWdgs m pid f).pwr = m.pwr := rfl
@[simp] theorem updWdgs_bistExp (m : Dg) (pid : Nat) (f : Wdg → Wdg) : (updWdgs m pid f).bistExp = m.bistExp := rfl
@[simp] theorem updWdgs_now (m : Dg) (pid : Nat) (f : Wdg → Wdg) : (updWdgs m pid f).now = m.now := rfl
@[simp] theorem updWdgs_freeCount (m : Dg) (pid : Nat) (f : Wdg → Wdg) : (updWdgs m pid f).freeCount = m.freeCount := rfl

@[simp] theorem updFix_fix (m : Dg) (f : Fix → Fix) : (updFix m f).fix = f m.fix := rfl
@[simp] theorem updFix_part (m : Dg) (f : Fix → Fix) : (updFix m f).part = m.part := rfl
@[simp] theorem updFix_ctx (m : Dg) (f : Fix → Fix) : (updFix m f).ctx = m.ctx := rfl
@[simp] theorem updFix_mem (m : Dg) (f : Fix → Fix) : (updFix m f).mem = m.mem := rfl
@[simp] theorem updFix_errs (m : Dg) (f : Fix → Fix) : (updFix m f).errs = m.errs := rfl
@[simp] theorem updFix_cfg (m : Dg) (f : Fix → Fix) : (updFix m f).cfg = m.cfg := rfl
@[simp] theorem updFix_stu (m : Dg) (f : Fix → Fix) : (updFix m f).stu = m.stu := rfl
@[simp] theorem updFix_mbx (m : Dg) (f : Fix → Fix) : (updFix m f).mbx = m.mbx := rfl
@[simp] theorem updFix_easel (m : Dg) (f : Fix → Fix) : (updFix m f).easel = m.easel := rfl
@[simp] theorem updFix_boot (m : Dg) (f : Fix → Fix) : (updFix m f).boot = m.boot := rfl
@[simp] theorem updFix_fab (m : Dg) (f : Fix → Fix) : (updFix m f).fab = m.fab := rfl
@[simp] theorem updFix_cnv (m : Dg) (f : Fix → Fix) : (updFix m f).cnv = m.cnv := rfl
@[simp] theorem updFix_drc (m : Dg) (f : Fix → Fix) : (updFix m f).drc = m.drc := rfl
@[simp] theorem updFix_dma (m : Dg) (f : Fix → Fix) : (updFix m f).dma = m.dma := rfl
@[simp] theorem updFix_srcs (m : Dg) (f : Fix → Fix) : (updFix m f).srcs = m.srcs := rfl
@[simp] theorem updFix_fcr (m : Dg) (f : Fix → Fix) : (updFix m f).fcr = m.fcr := rfl
@[simp] theorem updFix_wdg (m : Dg) (f : Fix → Fix) : (updFix m f).wdg = m.wdg := rfl
@[simp] theorem updFix_supWdg (m : Dg) (f : Fix → Fix) : (updFix m f).supWdg = m.supWdg := rfl
@[simp] theorem updFix_ftest (m : Dg) (f : Fix → Fix) : (updFix m f).ftest = m.ftest := rfl
@[simp] theorem updFix_sec (m : Dg) (f : Fix → Fix) : (updFix m f).sec = m.sec := rfl
@[simp] theorem updFix_net (m : Dg) (f : Fix → Fix) : (updFix m f).net = m.net := rfl
@[simp] theorem updFix_pwr (m : Dg) (f : Fix → Fix) : (updFix m f).pwr = m.pwr := rfl
@[simp] theorem updFix_bistExp (m : Dg) (f : Fix → Fix) : (updFix m f).bistExp = m.bistExp := rfl
@[simp] theorem updFix_now (m : Dg) (f : Fix → Fix) : (updFix m f).now = m.now := rfl
@[simp] theorem updFix_freeCount (m : Dg) (f : Fix → Fix) : (updFix m f).freeCount = m.freeCount := rfl

@[simp] theorem updFixCh_part (m : Dg) (n : Nat) (f : FixCh → FixCh) : (updFixCh m n f).part = m.part := rfl
@[simp] theorem updFixCh_ctx (m : Dg) (n : Nat) (f : FixCh → FixCh) : (updFixCh m n f).ctx = m.ctx := rfl
@[simp] theorem updFixCh_mem (m : Dg) (n : Nat) (f : FixCh → FixCh) : (updFixCh m n f).mem = m.mem := rfl
@[simp] theorem updFixCh_errs (m : Dg) (n : Nat) (f : FixCh → FixCh) : (updFixCh m n f).errs = m.errs := rfl
@[simp] theorem updFixCh_cfg (m : Dg) (n : Nat) (f : FixCh → FixCh) : (updFixCh m n f).cfg = m.cfg := rfl
@[simp] theorem updFixCh_stu (m : Dg) (n : Nat) (f : FixCh → FixCh) : (updFixCh m n f).stu = m.stu := rfl
@[simp] theorem updFixCh_mbx (m : Dg) (n : Nat) (f : FixCh → FixCh) : (updFixCh m n f).mbx = m.mbx := rfl
@[simp] theorem updFixCh_easel (m : Dg) (n : Nat) (f : FixCh → FixCh) : (updFixCh m n f).easel = m.easel := rfl
@[simp] theorem updFixCh_boot (m : Dg) (n : Nat) (f : FixCh → FixCh) : (updFixCh m n f).boot = m.boot := rfl
@[simp] theorem updFixCh_fab (m : Dg) (n : Nat) (f : FixCh → FixCh) : (updFixCh m n f).fab = m.fab := rfl
@[simp] theorem updFixCh_cnv (m : Dg) (n : Nat) (f : FixCh → FixCh) : (updFixCh m n f).cnv = m.cnv := rfl
@[simp] theorem updFixCh_drc (m : Dg) (n : Nat) (f : FixCh → FixCh) : (updFixCh m n f).drc = m.drc := rfl
@[simp] theorem updFixCh_dma (m : Dg) (n : Nat) (f : FixCh → FixCh) : (updFixCh m n f).dma = m.dma := rfl
@[simp] theorem updFixCh_srcs (m : Dg) (n : Nat) (f : FixCh → FixCh) : (updFixCh m n f).srcs = m.srcs := rfl
@[simp] theorem updFixCh_fcr (m : Dg) (n : Nat) (f : FixCh → FixCh) : (updFixCh m n f).fcr = m.fcr := rfl
@[simp] theorem updFixCh_wdg (m : Dg) (n : Nat) (f : FixCh → FixCh) : (updFixCh m n f).wdg = m.wdg := rfl
@[simp] theorem updFixCh_supWdg (m : Dg) (n : Nat) (f : FixCh → FixCh) : (updFixCh m n f).supWdg = m.supWdg := rfl
@[simp] theorem updFixCh_ftest (m : Dg) (n : Nat) (f : FixCh → FixCh) : (updFixCh m n f).ftest = m.ftest := rfl
@[simp] theorem updFixCh_sec (m : Dg) (n : Nat) (f : FixCh → FixCh) : (updFixCh m n f).sec = m.sec := rfl
@[simp] theorem updFixCh_net (m : Dg) (n : Nat) (f : FixCh → FixCh) : (updFixCh m n f).net = m.net := rfl
@[simp] theorem updFixCh_pwr (m : Dg) (n : Nat) (f : FixCh → FixCh) : (updFixCh m n f).pwr = m.pwr := rfl
@[simp] theorem updFixCh_bistExp (m : Dg) (n : Nat) (f : FixCh → FixCh) : (updFixCh m n f).bistExp = m.bistExp := rfl
@[simp] theorem updFixCh_now (m : Dg) (n : Nat) (f : FixCh → FixCh) : (updFixCh m n f).now = m.now := rfl
@[simp] theorem updFixCh_freeCount (m : Dg) (n : Nat) (f : FixCh → FixCh) : (updFixCh m n f).freeCount = m.freeCount := rfl

@[simp] theorem updFixFr_part (m : Dg) (n : Nat) (f : FixFr → FixFr) : (updFixFr m n f).part = m.part := rfl
@[simp] theorem updFixFr_ctx (m : Dg) (n : Nat) (f : FixFr → FixFr) : (updFixFr m n f).ctx = m.ctx := rfl
@[simp] theorem updFixFr_mem (m : Dg) (n : Nat) (f : FixFr → FixFr) : (updFixFr m n f).mem = m.mem := rfl
@[simp] theorem updFixFr_errs (m : Dg) (n : Nat) (f : FixFr → FixFr) : (updFixFr m n f).errs = m.errs := rfl
@[simp] theorem updFixFr_cfg (m : Dg) (n : Nat) (f : FixFr → FixFr) : (updFixFr m n f).cfg = m.cfg := rfl
@[simp] theorem updFixFr_stu (m : Dg) (n : Nat) (f : FixFr → FixFr) : (updFixFr m n f).stu = m.stu := rfl
@[simp] theorem updFixFr_mbx (m : Dg) (n : Nat) (f : FixFr → FixFr) : (updFixFr m n f).mbx = m.mbx := rfl
@[simp] theorem updFixFr_easel (m : Dg) (n : Nat) (f : FixFr → FixFr) : (updFixFr m n f).easel = m.easel := rfl
@[simp] theorem updFixFr_boot (m : Dg) (n : Nat) (f : FixFr → FixFr) : (updFixFr m n f).boot = m.boot := rfl
@[simp] theorem updFixFr_fab (m : Dg) (n : Nat) (f : FixFr → FixFr) : (updFixFr m n f).fab = m.fab := rfl
@[simp] theorem updFixFr_cnv (m : Dg) (n : Nat) (f : FixFr → FixFr) : (updFixFr m n f).cnv = m.cnv := rfl
@[simp] theorem updFixFr_drc (m : Dg) (n : Nat) (f : FixFr → FixFr) : (updFixFr m n f).drc = m.drc := rfl
@[simp] theorem updFixFr_dma (m : Dg) (n : Nat) (f : FixFr → FixFr) : (updFixFr m n f).dma = m.dma := rfl
@[simp] theorem updFixFr_srcs (m : Dg) (n : Nat) (f : FixFr → FixFr) : (updFixFr m n f).srcs = m.srcs := rfl
@[simp] theorem updFixFr_fcr (m : Dg) (n : Nat) (f : FixFr → FixFr) : (updFixFr m n f).fcr = m.fcr := rfl
@[simp] theorem updFixFr_wdg (m : Dg) (n : Nat) (f : FixFr → FixFr) : (updFixFr m n f).wdg = m.wdg := rfl
@[simp] theorem updFixFr_supWdg (m : Dg) (n : Nat) (f : FixFr → FixFr) : (updFixFr m n f).supWdg = m.supWdg := rfl
@[simp] theorem updFixFr_ftest (m : Dg) (n : Nat) (f : FixFr → FixFr) : (updFixFr m n f).ftest = m.ftest := rfl
@[simp] theorem updFixFr_sec (m : Dg) (n : Nat) (f : FixFr → FixFr) : (updFixFr m n f).sec = m.sec := rfl
@[simp] theorem updFixFr_net (m : Dg) (n : Nat) (f : FixFr → FixFr) : (updFixFr m n f).net = m.net := rfl
@[simp] theorem updFixFr_pwr (m : Dg) (n : Nat) (f : FixFr → FixFr) : (updFixFr m n f).pwr = m.pwr := rfl
@[simp] theorem updFixFr_bistExp (m : Dg) (n : Nat) (f : FixFr → FixFr) : (updFixFr m n f).bistExp = m.bistExp := rfl
@[simp] theorem updFixFr_now (m : Dg) (n : Nat) (f : FixFr → FixFr) : (updFixFr m n f).now = m.now := rfl
@[simp] theorem updFixFr_freeCount (m : Dg) (n : Nat) (f : FixFr → FixFr) : (updFixFr m n f).freeCount = m.freeCount := rfl

@[simp] theorem updSec_sec (m : Dg) (f : Sec → Sec) : (updSec m f).sec = f m.sec := rfl
@[simp] theorem updSec_part (m : Dg) (f : Sec → Sec) : (updSec m f).part = m.part := rfl
@[simp] theorem updSec_ctx (m : Dg) (f : Sec → Sec) : (updSec m f).ctx = m.ctx := rfl
@[simp] theorem updSec_mem (m : Dg) (f : Sec → Sec) : (updSec m f).mem = m.mem := rfl
@[simp] theorem updSec_errs (m : Dg) (f : Sec → Sec) : (updSec m f).errs = m.errs := rfl
@[simp] theorem updSec_cfg (m : Dg) (f : Sec → Sec) : (updSec m f).cfg = m.cfg := rfl
@[simp] theorem updSec_stu (m : Dg) (f : Sec → Sec) : (updSec m f).stu = m.stu := rfl
@[simp] theorem updSec_mbx (m : Dg) (f : Sec → Sec) : (updSec m f).mbx = m.mbx := rfl
@[simp] theorem updSec_easel (m : Dg) (f : Sec → Sec) : (updSec m f).easel = m.easel := rfl
@[simp] theorem updSec_boot (m : Dg) (f : Sec → Sec) : (updSec m f).boot = m.boot := rfl
@[simp] theorem updSec_fab (m : Dg) (f : Sec → Sec) : (updSec m f).fab = m.fab := rfl
@[simp] theorem updSec_cnv (m : Dg) (f : Sec → Sec) : (updSec m f).cnv = m.cnv := rfl
@[simp] theorem updSec_drc (m : Dg) (f : Sec → Sec) : (updSec m f).drc = m.drc := rfl
@[simp] theorem updSec_dma (m : Dg) (f : Sec → Sec) : (updSec m f).dma = m.dma := rfl
@[simp] theorem updSec_srcs (m : Dg) (f : Sec → Sec) : (updSec m f).srcs = m.srcs := rfl
@[simp] theorem updSec_fcr (m : Dg) (f : Sec → Sec) : (updSec m f).fcr = m.fcr := rfl
@[simp] theorem updSec_wdg (m : Dg) (f : Sec → Sec) : (updSec m f).wdg = m.wdg := rfl
@[simp] theorem updSec_supWdg (m : Dg) (f : Sec → Sec) : (updSec m f).supWdg = m.supWdg := rfl
@[simp] theorem updSec_fix (m : Dg) (f : Sec → Sec) : (updSec m f).fix = m.fix := rfl
@[simp] theorem updSec_ftest (m : Dg) (f : Sec → Sec) : (updSec m f).ftest = m.ftest := rfl
@[simp] theorem updSec_net (m : Dg) (f : Sec → Sec) : (updSec m f).net = m.net := rfl
@[simp] theorem updSec_pwr (m : Dg) (f : Sec → Sec) : (updSec m f).pwr = m.pwr := rfl
@[simp] theorem updSec_bistExp (m : Dg) (f : Sec → Sec) : (updSec m f).bistExp = m.bistExp := rfl
@[simp] theorem updSec_now (m : Dg) (f : Sec → Sec) : (updSec m f).now = m.now := rfl
@[simp] theorem updSec_freeCount (m : Dg) (f : Sec → Sec) : (updSec m f).freeCount = m.freeCount := rfl

@[simp] theorem updCard_part (m : Dg) (n : Nat) (f : CardSlot → CardSlot) : (updCard m n f).part = m.part := rfl
@[simp] theorem updCard_ctx (m : Dg) (n : Nat) (f : CardSlot → CardSlot) : (updCard m n f).ctx = m.ctx := rfl
@[simp] theorem updCard_mem (m : Dg) (n : Nat) (f : CardSlot → CardSlot) : (updCard m n f).mem = m.mem := rfl
@[simp] theorem updCard_errs (m : Dg) (n : Nat) (f : CardSlot → CardSlot) : (updCard m n f).errs = m.errs := rfl
@[simp] theorem updCard_cfg (m : Dg) (n : Nat) (f : CardSlot → CardSlot) : (updCard m n f).cfg = m.cfg := rfl
@[simp] theorem updCard_stu (m : Dg) (n : Nat) (f : CardSlot → CardSlot) : (updCard m n f).stu = m.stu := rfl
@[simp] theorem updCard_mbx (m : Dg) (n : Nat) (f : CardSlot → CardSlot) : (updCard m n f).mbx = m.mbx := rfl
@[simp] theorem updCard_easel (m : Dg) (n : Nat) (f : CardSlot → CardSlot) : (updCard m n f).easel = m.easel := rfl
@[simp] theorem updCard_boot (m : Dg) (n : Nat) (f : CardSlot → CardSlot) : (updCard m n f).boot = m.boot := rfl
@[simp] theorem updCard_fab (m : Dg) (n : Nat) (f : CardSlot → CardSlot) : (updCard m n f).fab = m.fab := rfl
@[simp] theorem updCard_cnv (m : Dg) (n : Nat) (f : CardSlot → CardSlot) : (updCard m n f).cnv = m.cnv := rfl
@[simp] theorem updCard_drc (m : Dg) (n : Nat) (f : CardSlot → CardSlot) : (updCard m n f).drc = m.drc := rfl
@[simp] theorem updCard_dma (m : Dg) (n : Nat) (f : CardSlot → CardSlot) : (updCard m n f).dma = m.dma := rfl
@[simp] theorem updCard_srcs (m : Dg) (n : Nat) (f : CardSlot → CardSlot) : (updCard m n f).srcs = m.srcs := rfl
@[simp] theorem updCard_fcr (m : Dg) (n : Nat) (f : CardSlot → CardSlot) : (updCard m n f).fcr = m.fcr := rfl
@[simp] theorem updCard_wdg (m : Dg) (n : Nat) (f : CardSlot → CardSlot) : (updCard m n f).wdg = m.wdg := rfl
@[simp] theorem updCard_supWdg (m : Dg) (n : Nat) (f : CardSlot → CardSlot) : (updCard m n f).supWdg = m.supWdg := rfl
@[simp] theorem updCard_fix (m : Dg) (n : Nat) (f : CardSlot → CardSlot) : (updCard m n f).fix = m.fix := rfl
@[simp] theorem updCard_ftest (m : Dg) (n : Nat) (f : CardSlot → CardSlot) : (updCard m n f).ftest = m.ftest := rfl
@[simp] theorem updCard_net (m : Dg) (n : Nat) (f : CardSlot → CardSlot) : (updCard m n f).net = m.net := rfl
@[simp] theorem updCard_pwr (m : Dg) (n : Nat) (f : CardSlot → CardSlot) : (updCard m n f).pwr = m.pwr := rfl
@[simp] theorem updCard_bistExp (m : Dg) (n : Nat) (f : CardSlot → CardSlot) : (updCard m n f).bistExp = m.bistExp := rfl
@[simp] theorem updCard_now (m : Dg) (n : Nat) (f : CardSlot → CardSlot) : (updCard m n f).now = m.now := rfl
@[simp] theorem updCard_freeCount (m : Dg) (n : Nat) (f : CardSlot → CardSlot) : (updCard m n f).freeCount = m.freeCount := rfl

@[simp] theorem updNet_net (m : Dg) (f : Net → Net) : (updNet m f).net = f m.net := rfl
@[simp] theorem updNet_part (m : Dg) (f : Net → Net) : (updNet m f).part = m.part := rfl
@[simp] theorem updNet_ctx (m : Dg) (f : Net → Net) : (updNet m f).ctx = m.ctx := rfl
@[simp] theorem updNet_mem (m : Dg) (f : Net → Net) : (updNet m f).mem = m.mem := rfl
@[simp] theorem updNet_errs (m : Dg) (f : Net → Net) : (updNet m f).errs = m.errs := rfl
@[simp] theorem updNet_cfg (m : Dg) (f : Net → Net) : (updNet m f).cfg = m.cfg := rfl
@[simp] theorem updNet_stu (m : Dg) (f : Net → Net) : (updNet m f).stu = m.stu := rfl
@[simp] theorem updNet_mbx (m : Dg) (f : Net → Net) : (updNet m f).mbx = m.mbx := rfl
@[simp] theorem updNet_easel (m : Dg) (f : Net → Net) : (updNet m f).easel = m.easel := rfl
@[simp] theorem updNet_boot (m : Dg) (f : Net → Net) : (updNet m f).boot = m.boot := rfl
@[simp] theorem updNet_fab (m : Dg) (f : Net → Net) : (updNet m f).fab = m.fab := rfl
@[simp] theorem updNet_cnv (m : Dg) (f : Net → Net) : (updNet m f).cnv = m.cnv := rfl
@[simp] theorem updNet_drc (m : Dg) (f : Net → Net) : (updNet m f).drc = m.drc := rfl
@[simp] theorem updNet_dma (m : Dg) (f : Net → Net) : (updNet m f).dma = m.dma := rfl
@[simp] theorem updNet_srcs (m : Dg) (f : Net → Net) : (updNet m f).srcs = m.srcs := rfl
@[simp] theorem updNet_fcr (m : Dg) (f : Net → Net) : (updNet m f).fcr = m.fcr := rfl
@[simp] theorem updNet_wdg (m : Dg) (f : Net → Net) : (updNet m f).wdg = m.wdg := rfl
@[simp] theorem updNet_supWdg (m : Dg) (f : Net → Net) : (updNet m f).supWdg = m.supWdg := rfl
@[simp] theorem updNet_fix (m : Dg) (f : Net → Net) : (updNet m f).fix = m.fix := rfl
@[simp] theorem updNet_ftest (m : Dg) (f : Net → Net) : (updNet m f).ftest = m.ftest := rfl
@[simp] theorem updNet_sec (m : Dg) (f : Net → Net) : (updNet m f).sec = m.sec := rfl
@[simp] theorem updNet_pwr (m : Dg) (f : Net → Net) : (updNet m f).pwr = m.pwr := rfl
@[simp] theorem updNet_bistExp (m : Dg) (f : Net → Net) : (updNet m f).bistExp = m.bistExp := rfl
@[simp] theorem updNet_now (m : Dg) (f : Net → Net) : (updNet m f).now = m.now := rfl
@[simp] theorem updNet_freeCount (m : Dg) (f : Net → Net) : (updNet m f).freeCount = m.freeCount := rfl

@[simp] theorem updCan_part (m : Dg) (n : Nat) (f : CanCtl → CanCtl) : (updCan m n f).part = m.part := rfl
@[simp] theorem updCan_ctx (m : Dg) (n : Nat) (f : CanCtl → CanCtl) : (updCan m n f).ctx = m.ctx := rfl
@[simp] theorem updCan_mem (m : Dg) (n : Nat) (f : CanCtl → CanCtl) : (updCan m n f).mem = m.mem := rfl
@[simp] theorem updCan_errs (m : Dg) (n : Nat) (f : CanCtl → CanCtl) : (updCan m n f).errs = m.errs := rfl
@[simp] theorem updCan_cfg (m : Dg) (n : Nat) (f : CanCtl → CanCtl) : (updCan m n f).cfg = m.cfg := rfl
@[simp] theorem updCan_stu (m : Dg) (n : Nat) (f : CanCtl → CanCtl) : (updCan m n f).stu = m.stu := rfl
@[simp] theorem updCan_mbx (m : Dg) (n : Nat) (f : CanCtl → CanCtl) : (updCan m n f).mbx = m.mbx := rfl
@[simp] theorem updCan_easel (m : Dg) (n : Nat) (f : CanCtl → CanCtl) : (updCan m n f).easel = m.easel := rfl
@[simp] theorem updCan_boot (m : Dg) (n : Nat) (f : CanCtl → CanCtl) : (updCan m n f).boot = m.boot := rfl
@[simp] theorem updCan_fab (m : Dg) (n : Nat) (f : CanCtl → CanCtl) : (updCan m n f).fab = m.fab := rfl
@[simp] theorem updCan_cnv (m : Dg) (n : Nat) (f : CanCtl → CanCtl) : (updCan m n f).cnv = m.cnv := rfl
@[simp] theorem updCan_drc (m : Dg) (n : Nat) (f : CanCtl → CanCtl) : (updCan m n f).drc = m.drc := rfl
@[simp] theorem updCan_dma (m : Dg) (n : Nat) (f : CanCtl → CanCtl) : (updCan m n f).dma = m.dma := rfl
@[simp] theorem updCan_srcs (m : Dg) (n : Nat) (f : CanCtl → CanCtl) : (updCan m n f).srcs = m.srcs := rfl
@[simp] theorem updCan_fcr (m : Dg) (n : Nat) (f : CanCtl → CanCtl) : (updCan m n f).fcr = m.fcr := rfl
@[simp] theorem updCan_wdg (m : Dg) (n : Nat) (f : CanCtl → CanCtl) : (updCan m n f).wdg = m.wdg := rfl
@[simp] theorem updCan_supWdg (m : Dg) (n : Nat) (f : CanCtl → CanCtl) : (updCan m n f).supWdg = m.supWdg := rfl
@[simp] theorem updCan_fix (m : Dg) (n : Nat) (f : CanCtl → CanCtl) : (updCan m n f).fix = m.fix := rfl
@[simp] theorem updCan_ftest (m : Dg) (n : Nat) (f : CanCtl → CanCtl) : (updCan m n f).ftest = m.ftest := rfl
@[simp] theorem updCan_sec (m : Dg) (n : Nat) (f : CanCtl → CanCtl) : (updCan m n f).sec = m.sec := rfl
@[simp] theorem updCan_pwr (m : Dg) (n : Nat) (f : CanCtl → CanCtl) : (updCan m n f).pwr = m.pwr := rfl
@[simp] theorem updCan_bistExp (m : Dg) (n : Nat) (f : CanCtl → CanCtl) : (updCan m n f).bistExp = m.bistExp := rfl
@[simp] theorem updCan_now (m : Dg) (n : Nat) (f : CanCtl → CanCtl) : (updCan m n f).now = m.now := rfl
@[simp] theorem updCan_freeCount (m : Dg) (n : Nat) (f : CanCtl → CanCtl) : (updCan m n f).freeCount = m.freeCount := rfl

@[simp] theorem updLin_part (m : Dg) (n : Nat) (f : LinCtl → LinCtl) : (updLin m n f).part = m.part := rfl
@[simp] theorem updLin_ctx (m : Dg) (n : Nat) (f : LinCtl → LinCtl) : (updLin m n f).ctx = m.ctx := rfl
@[simp] theorem updLin_mem (m : Dg) (n : Nat) (f : LinCtl → LinCtl) : (updLin m n f).mem = m.mem := rfl
@[simp] theorem updLin_errs (m : Dg) (n : Nat) (f : LinCtl → LinCtl) : (updLin m n f).errs = m.errs := rfl
@[simp] theorem updLin_cfg (m : Dg) (n : Nat) (f : LinCtl → LinCtl) : (updLin m n f).cfg = m.cfg := rfl
@[simp] theorem updLin_stu (m : Dg) (n : Nat) (f : LinCtl → LinCtl) : (updLin m n f).stu = m.stu := rfl
@[simp] theorem updLin_mbx (m : Dg) (n : Nat) (f : LinCtl → LinCtl) : (updLin m n f).mbx = m.mbx := rfl
@[simp] theorem updLin_easel (m : Dg) (n : Nat) (f : LinCtl → LinCtl) : (updLin m n f).easel = m.easel := rfl
@[simp] theorem updLin_boot (m : Dg) (n : Nat) (f : LinCtl → LinCtl) : (updLin m n f).boot = m.boot := rfl
@[simp] theorem updLin_fab (m : Dg) (n : Nat) (f : LinCtl → LinCtl) : (updLin m n f).fab = m.fab := rfl
@[simp] theorem updLin_cnv (m : Dg) (n : Nat) (f : LinCtl → LinCtl) : (updLin m n f).cnv = m.cnv := rfl
@[simp] theorem updLin_drc (m : Dg) (n : Nat) (f : LinCtl → LinCtl) : (updLin m n f).drc = m.drc := rfl
@[simp] theorem updLin_dma (m : Dg) (n : Nat) (f : LinCtl → LinCtl) : (updLin m n f).dma = m.dma := rfl
@[simp] theorem updLin_srcs (m : Dg) (n : Nat) (f : LinCtl → LinCtl) : (updLin m n f).srcs = m.srcs := rfl
@[simp] theorem updLin_fcr (m : Dg) (n : Nat) (f : LinCtl → LinCtl) : (updLin m n f).fcr = m.fcr := rfl
@[simp] theorem updLin_wdg (m : Dg) (n : Nat) (f : LinCtl → LinCtl) : (updLin m n f).wdg = m.wdg := rfl
@[simp] theorem updLin_supWdg (m : Dg) (n : Nat) (f : LinCtl → LinCtl) : (updLin m n f).supWdg = m.supWdg := rfl
@[simp] theorem updLin_fix (m : Dg) (n : Nat) (f : LinCtl → LinCtl) : (updLin m n f).fix = m.fix := rfl
@[simp] theorem updLin_ftest (m : Dg) (n : Nat) (f : LinCtl → LinCtl) : (updLin m n f).ftest = m.ftest := rfl
@[simp] theorem updLin_sec (m : Dg) (n : Nat) (f : LinCtl → LinCtl) : (updLin m n f).sec = m.sec := rfl
@[simp] theorem updLin_pwr (m : Dg) (n : Nat) (f : LinCtl → LinCtl) : (updLin m n f).pwr = m.pwr := rfl
@[simp] theorem updLin_bistExp (m : Dg) (n : Nat) (f : LinCtl → LinCtl) : (updLin m n f).bistExp = m.bistExp := rfl
@[simp] theorem updLin_now (m : Dg) (n : Nat) (f : LinCtl → LinCtl) : (updLin m n f).now = m.now := rfl
@[simp] theorem updLin_freeCount (m : Dg) (n : Nat) (f : LinCtl → LinCtl) : (updLin m n f).freeCount = m.freeCount := rfl

@[simp] theorem updEth_part (m : Dg) (n : Nat) (f : EthPort → EthPort) : (updEth m n f).part = m.part := rfl
@[simp] theorem updEth_ctx (m : Dg) (n : Nat) (f : EthPort → EthPort) : (updEth m n f).ctx = m.ctx := rfl
@[simp] theorem updEth_mem (m : Dg) (n : Nat) (f : EthPort → EthPort) : (updEth m n f).mem = m.mem := rfl
@[simp] theorem updEth_errs (m : Dg) (n : Nat) (f : EthPort → EthPort) : (updEth m n f).errs = m.errs := rfl
@[simp] theorem updEth_cfg (m : Dg) (n : Nat) (f : EthPort → EthPort) : (updEth m n f).cfg = m.cfg := rfl
@[simp] theorem updEth_stu (m : Dg) (n : Nat) (f : EthPort → EthPort) : (updEth m n f).stu = m.stu := rfl
@[simp] theorem updEth_mbx (m : Dg) (n : Nat) (f : EthPort → EthPort) : (updEth m n f).mbx = m.mbx := rfl
@[simp] theorem updEth_easel (m : Dg) (n : Nat) (f : EthPort → EthPort) : (updEth m n f).easel = m.easel := rfl
@[simp] theorem updEth_boot (m : Dg) (n : Nat) (f : EthPort → EthPort) : (updEth m n f).boot = m.boot := rfl
@[simp] theorem updEth_fab (m : Dg) (n : Nat) (f : EthPort → EthPort) : (updEth m n f).fab = m.fab := rfl
@[simp] theorem updEth_cnv (m : Dg) (n : Nat) (f : EthPort → EthPort) : (updEth m n f).cnv = m.cnv := rfl
@[simp] theorem updEth_drc (m : Dg) (n : Nat) (f : EthPort → EthPort) : (updEth m n f).drc = m.drc := rfl
@[simp] theorem updEth_dma (m : Dg) (n : Nat) (f : EthPort → EthPort) : (updEth m n f).dma = m.dma := rfl
@[simp] theorem updEth_srcs (m : Dg) (n : Nat) (f : EthPort → EthPort) : (updEth m n f).srcs = m.srcs := rfl
@[simp] theorem updEth_fcr (m : Dg) (n : Nat) (f : EthPort → EthPort) : (updEth m n f).fcr = m.fcr := rfl
@[simp] theorem updEth_wdg (m : Dg) (n : Nat) (f : EthPort → EthPort) : (updEth m n f).wdg = m.wdg := rfl
@[simp] theorem updEth_supWdg (m : Dg) (n : Nat) (f : EthPort → EthPort) : (updEth m n f).supWdg = m.supWdg := rfl
@[simp] theorem updEth_fix (m : Dg) (n : Nat) (f : EthPort → EthPort) : (updEth m n f).fix = m.fix := rfl
@[simp] theorem updEth_ftest (m : Dg) (n : Nat) (f : EthPort → EthPort) : (updEth m n f).ftest = m.ftest := rfl
@[simp] theorem updEth_sec (m : Dg) (n : Nat) (f : EthPort → EthPort) : (updEth m n f).sec = m.sec := rfl
@[simp] theorem updEth_pwr (m : Dg) (n : Nat) (f : EthPort → EthPort) : (updEth m n f).pwr = m.pwr := rfl
@[simp] theorem updEth_bistExp (m : Dg) (n : Nat) (f : EthPort → EthPort) : (updEth m n f).bistExp = m.bistExp := rfl
@[simp] theorem updEth_now (m : Dg) (n : Nat) (f : EthPort → EthPort) : (updEth m n f).now = m.now := rfl
@[simp] theorem updEth_freeCount (m : Dg) (n : Nat) (f : EthPort → EthPort) : (updEth m n f).freeCount = m.freeCount := rfl

@[simp] theorem updTmr_part (m : Dg) (n : Nat) (f : Timer → Timer) : (updTmr m n f).part = m.part := rfl
@[simp] theorem updTmr_ctx (m : Dg) (n : Nat) (f : Timer → Timer) : (updTmr m n f).ctx = m.ctx := rfl
@[simp] theorem updTmr_mem (m : Dg) (n : Nat) (f : Timer → Timer) : (updTmr m n f).mem = m.mem := rfl
@[simp] theorem updTmr_errs (m : Dg) (n : Nat) (f : Timer → Timer) : (updTmr m n f).errs = m.errs := rfl
@[simp] theorem updTmr_cfg (m : Dg) (n : Nat) (f : Timer → Timer) : (updTmr m n f).cfg = m.cfg := rfl
@[simp] theorem updTmr_stu (m : Dg) (n : Nat) (f : Timer → Timer) : (updTmr m n f).stu = m.stu := rfl
@[simp] theorem updTmr_mbx (m : Dg) (n : Nat) (f : Timer → Timer) : (updTmr m n f).mbx = m.mbx := rfl
@[simp] theorem updTmr_easel (m : Dg) (n : Nat) (f : Timer → Timer) : (updTmr m n f).easel = m.easel := rfl
@[simp] theorem updTmr_boot (m : Dg) (n : Nat) (f : Timer → Timer) : (updTmr m n f).boot = m.boot := rfl
@[simp] theorem updTmr_fab (m : Dg) (n : Nat) (f : Timer → Timer) : (updTmr m n f).fab = m.fab := rfl
@[simp] theorem updTmr_cnv (m : Dg) (n : Nat) (f : Timer → Timer) : (updTmr m n f).cnv = m.cnv := rfl
@[simp] theorem updTmr_drc (m : Dg) (n : Nat) (f : Timer → Timer) : (updTmr m n f).drc = m.drc := rfl
@[simp] theorem updTmr_dma (m : Dg) (n : Nat) (f : Timer → Timer) : (updTmr m n f).dma = m.dma := rfl
@[simp] theorem updTmr_srcs (m : Dg) (n : Nat) (f : Timer → Timer) : (updTmr m n f).srcs = m.srcs := rfl
@[simp] theorem updTmr_fcr (m : Dg) (n : Nat) (f : Timer → Timer) : (updTmr m n f).fcr = m.fcr := rfl
@[simp] theorem updTmr_wdg (m : Dg) (n : Nat) (f : Timer → Timer) : (updTmr m n f).wdg = m.wdg := rfl
@[simp] theorem updTmr_supWdg (m : Dg) (n : Nat) (f : Timer → Timer) : (updTmr m n f).supWdg = m.supWdg := rfl
@[simp] theorem updTmr_fix (m : Dg) (n : Nat) (f : Timer → Timer) : (updTmr m n f).fix = m.fix := rfl
@[simp] theorem updTmr_ftest (m : Dg) (n : Nat) (f : Timer → Timer) : (updTmr m n f).ftest = m.ftest := rfl
@[simp] theorem updTmr_sec (m : Dg) (n : Nat) (f : Timer → Timer) : (updTmr m n f).sec = m.sec := rfl
@[simp] theorem updTmr_pwr (m : Dg) (n : Nat) (f : Timer → Timer) : (updTmr m n f).pwr = m.pwr := rfl
@[simp] theorem updTmr_bistExp (m : Dg) (n : Nat) (f : Timer → Timer) : (updTmr m n f).bistExp = m.bistExp := rfl
@[simp] theorem updTmr_now (m : Dg) (n : Nat) (f : Timer → Timer) : (updTmr m n f).now = m.now := rfl
@[simp] theorem updTmr_freeCount (m : Dg) (n : Nat) (f : Timer → Timer) : (updTmr m n f).freeCount = m.freeCount := rfl

@[simp] theorem updGpio_part (m : Dg) (n : Nat) (f : Gpio → Gpio) : (updGpio m n f).part = m.part := rfl
@[simp] theorem updGpio_ctx (m : Dg) (n : Nat) (f : Gpio → Gpio) : (updGpio m n f).ctx = m.ctx := rfl
@[simp] theorem updGpio_mem (m : Dg) (n : Nat) (f : Gpio → Gpio) : (updGpio m n f).mem = m.mem := rfl
@[simp] theorem updGpio_errs (m : Dg) (n : Nat) (f : Gpio → Gpio) : (updGpio m n f).errs = m.errs := rfl
@[simp] theorem updGpio_cfg (m : Dg) (n : Nat) (f : Gpio → Gpio) : (updGpio m n f).cfg = m.cfg := rfl
@[simp] theorem updGpio_stu (m : Dg) (n : Nat) (f : Gpio → Gpio) : (updGpio m n f).stu = m.stu := rfl
@[simp] theorem updGpio_mbx (m : Dg) (n : Nat) (f : Gpio → Gpio) : (updGpio m n f).mbx = m.mbx := rfl
@[simp] theorem updGpio_easel (m : Dg) (n : Nat) (f : Gpio → Gpio) : (updGpio m n f).easel = m.easel := rfl
@[simp] theorem updGpio_boot (m : Dg) (n : Nat) (f : Gpio → Gpio) : (updGpio m n f).boot = m.boot := rfl
@[simp] theorem updGpio_fab (m : Dg) (n : Nat) (f : Gpio → Gpio) : (updGpio m n f).fab = m.fab := rfl
@[simp] theorem updGpio_cnv (m : Dg) (n : Nat) (f : Gpio → Gpio) : (updGpio m n f).cnv = m.cnv := rfl
@[simp] theorem updGpio_drc (m : Dg) (n : Nat) (f : Gpio → Gpio) : (updGpio m n f).drc = m.drc := rfl
@[simp] theorem updGpio_dma (m : Dg) (n : Nat) (f : Gpio → Gpio) : (updGpio m n f).dma = m.dma := rfl
@[simp] theorem updGpio_srcs (m : Dg) (n : Nat) (f : Gpio → Gpio) : (updGpio m n f).srcs = m.srcs := rfl
@[simp] theorem updGpio_fcr (m : Dg) (n : Nat) (f : Gpio → Gpio) : (updGpio m n f).fcr = m.fcr := rfl
@[simp] theorem updGpio_wdg (m : Dg) (n : Nat) (f : Gpio → Gpio) : (updGpio m n f).wdg = m.wdg := rfl
@[simp] theorem updGpio_supWdg (m : Dg) (n : Nat) (f : Gpio → Gpio) : (updGpio m n f).supWdg = m.supWdg := rfl
@[simp] theorem updGpio_fix (m : Dg) (n : Nat) (f : Gpio → Gpio) : (updGpio m n f).fix = m.fix := rfl
@[simp] theorem updGpio_ftest (m : Dg) (n : Nat) (f : Gpio → Gpio) : (updGpio m n f).ftest = m.ftest := rfl
@[simp] theorem updGpio_sec (m : Dg) (n : Nat) (f : Gpio → Gpio) : (updGpio m n f).sec = m.sec := rfl
@[simp] theorem updGpio_pwr (m : Dg) (n : Nat) (f : Gpio → Gpio) : (updGpio m n f).pwr = m.pwr := rfl
@[simp] theorem updGpio_bistExp (m : Dg) (n : Nat) (f : Gpio → Gpio) : (updGpio m n f).bistExp = m.bistExp := rfl
@[simp] theorem updGpio_now (m : Dg) (n : Nat) (f : Gpio → Gpio) : (updGpio m n f).now = m.now := rfl
@[simp] theorem updGpio_freeCount (m : Dg) (n : Nat) (f : Gpio → Gpio) : (updGpio m n f).freeCount = m.freeCount := rfl

@[simp] theorem updPwr_pwr (m : Dg) (f : Pwr → Pwr) : (updPwr m f).pwr = f m.pwr := rfl
@[simp] theorem updPwr_part (m : Dg) (f : Pwr → Pwr) : (updPwr m f).part = m.part := rfl
@[simp] theorem updPwr_ctx (m : Dg) (f : Pwr → Pwr) : (updPwr m f).ctx = m.ctx := rfl
@[simp] theorem updPwr_mem (m : Dg) (f : Pwr → Pwr) : (updPwr m f).mem = m.mem := rfl
@[simp] theorem updPwr_errs (m : Dg) (f : Pwr → Pwr) : (updPwr m f).errs = m.errs := rfl
@[simp] theorem updPwr_cfg (m : Dg) (f : Pwr → Pwr) : (updPwr m f).cfg = m.cfg := rfl
@[simp] theorem updPwr_stu (m : Dg) (f : Pwr → Pwr) : (updPwr m f).stu = m.stu := rfl
@[simp] theorem updPwr_mbx (m : Dg) (f : Pwr → Pwr) : (updPwr m f).mbx = m.mbx := rfl
@[simp] theorem updPwr_easel (m : Dg) (f : Pwr → Pwr) : (updPwr m f).easel = m.easel := rfl
@[simp] theorem updPwr_boot (m : Dg) (f : Pwr → Pwr) : (updPwr m f).boot = m.boot := rfl
@[simp] theorem updPwr_fab (m : Dg) (f : Pwr → Pwr) : (updPwr m f).fab = m.fab := rfl
@[simp] theorem updPwr_cnv (m : Dg) (f : Pwr → Pwr) : (updPwr m f).cnv = m.cnv := rfl
@[simp] theorem updPwr_drc (m : Dg) (f : Pwr → Pwr) : (updPwr m f).drc = m.drc := rfl
@[simp] theorem updPwr_dma (m : Dg) (f : Pwr → Pwr) : (updPwr m f).dma = m.dma := rfl
@[simp] theorem updPwr_srcs (m : Dg) (f : Pwr → Pwr) : (updPwr m f).srcs = m.srcs := rfl
@[simp] theorem updPwr_fcr (m : Dg) (f : Pwr → Pwr) : (updPwr m f).fcr = m.fcr := rfl
@[simp] theorem updPwr_wdg (m : Dg) (f : Pwr → Pwr) : (updPwr m f).wdg = m.wdg := rfl
@[simp] theorem updPwr_supWdg (m : Dg) (f : Pwr → Pwr) : (updPwr m f).supWdg = m.supWdg := rfl
@[simp] theorem updPwr_fix (m : Dg) (f : Pwr → Pwr) : (updPwr m f).fix = m.fix := rfl
@[simp] theorem updPwr_ftest (m : Dg) (f : Pwr → Pwr) : (updPwr m f).ftest = m.ftest := rfl
@[simp] theorem updPwr_sec (m : Dg) (f : Pwr → Pwr) : (updPwr m f).sec = m.sec := rfl
@[simp] theorem updPwr_net (m : Dg) (f : Pwr → Pwr) : (updPwr m f).net = m.net := rfl
@[simp] theorem updPwr_bistExp (m : Dg) (f : Pwr → Pwr) : (updPwr m f).bistExp = m.bistExp := rfl
@[simp] theorem updPwr_now (m : Dg) (f : Pwr → Pwr) : (updPwr m f).now = m.now := rfl
@[simp] theorem updPwr_freeCount (m : Dg) (f : Pwr → Pwr) : (updPwr m f).freeCount = m.freeCount := rfl

@[simp] theorem updDom_part (m : Dg) (d : Nat) (f : Domain → Domain) : (updDom m d f).part = m.part := rfl
@[simp] theorem updDom_ctx (m : Dg) (d : Nat) (f : Domain → Domain) : (updDom m d f).ctx = m.ctx := rfl
@[simp] theorem updDom_mem (m : Dg) (d : Nat) (f : Domain → Domain) : (updDom m d f).mem = m.mem := rfl
@[simp] theorem updDom_errs (m : Dg) (d : Nat) (f : Domain → Domain) : (updDom m d f).errs = m.errs := rfl
@[simp] theorem updDom_cfg (m : Dg) (d : Nat) (f : Domain → Domain) : (updDom m d f).cfg = m.cfg := rfl
@[simp] theorem updDom_stu (m : Dg) (d : Nat) (f : Domain → Domain) : (updDom m d f).stu = m.stu := rfl
@[simp] theorem updDom_mbx (m : Dg) (d : Nat) (f : Domain → Domain) : (updDom m d f).mbx = m.mbx := rfl
@[simp] theorem updDom_easel (m : Dg) (d : Nat) (f : Domain → Domain) : (updDom m d f).easel = m.easel := rfl
@[simp] theorem updDom_boot (m : Dg) (d : Nat) (f : Domain → Domain) : (updDom m d f).boot = m.boot := rfl
@[simp] theorem updDom_fab (m : Dg) (d : Nat) (f : Domain → Domain) : (updDom m d f).fab = m.fab := rfl
@[simp] theorem updDom_cnv (m : Dg) (d : Nat) (f : Domain → Domain) : (updDom m d f).cnv = m.cnv := rfl
@[simp] theorem updDom_drc (m : Dg) (d : Nat) (f : Domain → Domain) : (updDom m d f).drc = m.drc := rfl
@[simp] theorem updDom_dma (m : Dg) (d : Nat) (f : Domain → Domain) : (updDom m d f).dma = m.dma := rfl
@[simp] theorem updDom_srcs (m : Dg) (d : Nat) (f : Domain → Domain) : (updDom m d f).srcs = m.srcs := rfl
@[simp] theorem updDom_fcr (m : Dg) (d : Nat) (f : Domain → Domain) : (updDom m d f).fcr = m.fcr := rfl
@[simp] theorem updDom_wdg (m : Dg) (d : Nat) (f : Domain → Domain) : (updDom m d f).wdg = m.wdg := rfl
@[simp] theorem updDom_supWdg (m : Dg) (d : Nat) (f : Domain → Domain) : (updDom m d f).supWdg = m.supWdg := rfl
@[simp] theorem updDom_fix (m : Dg) (d : Nat) (f : Domain → Domain) : (updDom m d f).fix = m.fix := rfl
@[simp] theorem updDom_ftest (m : Dg) (d : Nat) (f : Domain → Domain) : (updDom m d f).ftest = m.ftest := rfl
@[simp] theorem updDom_sec (m : Dg) (d : Nat) (f : Domain → Domain) : (updDom m d f).sec = m.sec := rfl
@[simp] theorem updDom_net (m : Dg) (d : Nat) (f : Domain → Domain) : (updDom m d f).net = m.net := rfl
@[simp] theorem updDom_bistExp (m : Dg) (d : Nat) (f : Domain → Domain) : (updDom m d f).bistExp = m.bistExp := rfl
@[simp] theorem updDom_now (m : Dg) (d : Nat) (f : Domain → Domain) : (updDom m d f).now = m.now := rfl
@[simp] theorem updDom_freeCount (m : Dg) (d : Nat) (f : Domain → Domain) : (updDom m d f).freeCount = m.freeCount := rfl

/-! ### An entry changed, and the others -/

@[simp] theorem getQ_updQ (m : Dg) (q : Nat) (f : Queue → Queue) : getQ (updQ m q f) q = f (getQ m q) := by
  simp [getQ, updQ, setQ]
theorem getQ_updQ_other (m : Dg) (q : Nat) (f : Queue → Queue) {j : Nat} (h : j ≠ q) : getQ (updQ m q f) j = getQ m j := by
  simp [getQ, updQ, setQ, SMap.get_set_other _ _ _ h]
@[simp] theorem getGrp_updGrp (m : Dg) (g : Nat) (f : Group → Group) : getGrp (updGrp m g f) g = f (getGrp m g) := by
  simp [getGrp, updGrp]
theorem getGrp_updGrp_other (m : Dg) (g : Nat) (f : Group → Group) {j : Nat} (h : j ≠ g) : getGrp (updGrp m g f) j = getGrp m j := by
  simp [getGrp, updGrp, SMap.get_upd_other _ _ _ h]
@[simp] theorem getCore_updCore (m : Dg) (c : Nat) (f : Core → Core) : getCore (updCore m c f) c = f (getCore m c) := by
  simp [getCore, updCore]
theorem getCore_updCore_other (m : Dg) (c : Nat) (f : Core → Core) {j : Nat} (h : j ≠ c) : getCore (updCore m c f) j = getCore m j := by
  simp [getCore, updCore, SMap.get_upd_other _ _ _ h]
@[simp] theorem getStudio_updStudio (m : Dg) (i : Nat) (f : Studio → Studio) : getStudio (updStudio m i f) i = f (getStudio m i) := by
  simp [getStudio, updStudio]
theorem getStudio_updStudio_other (m : Dg) (i : Nat) (f : Studio → Studio) {j : Nat} (h : j ≠ i) : getStudio (updStudio m i f) j = getStudio m j := by
  simp [getStudio, updStudio, SMap.get_upd_other _ _ _ h]
@[simp] theorem getPart_updPart (m : Dg) (p : Nat) (f : Partn → Partn) : getPart (updPart m p f) p = f (getPart m p) := by
  simp [getPart, updPart]
theorem getPart_updPart_other (m : Dg) (p : Nat) (f : Partn → Partn) {j : Nat} (h : j ≠ p) : getPart (updPart m p f) j = getPart m j := by
  simp [getPart, updPart, SMap.get_upd_other _ _ _ h]
@[simp] theorem getCan_updCan (m : Dg) (n : Nat) (f : CanCtl → CanCtl) : getCan (updCan m n f) n = f (getCan m n) := by
  simp [getCan, updCan, updNet]
theorem getCan_updCan_other (m : Dg) (n : Nat) (f : CanCtl → CanCtl) {j : Nat} (h : j ≠ n) : getCan (updCan m n f) j = getCan m j := by
  simp [getCan, updCan, updNet, SMap.get_upd_other _ _ _ h]
@[simp] theorem getLin_updLin (m : Dg) (n : Nat) (f : LinCtl → LinCtl) : getLin (updLin m n f) n = f (getLin m n) := by
  simp [getLin, updLin, updNet]
theorem getLin_updLin_other (m : Dg) (n : Nat) (f : LinCtl → LinCtl) {j : Nat} (h : j ≠ n) : getLin (updLin m n f) j = getLin m j := by
  simp [getLin, updLin, updNet, SMap.get_upd_other _ _ _ h]
@[simp] theorem getEth_updEth (m : Dg) (n : Nat) (f : EthPort → EthPort) : getEth (updEth m n f) n = f (getEth m n) := by
  simp [getEth, updEth, updNet]
theorem getEth_updEth_other (m : Dg) (n : Nat) (f : EthPort → EthPort) {j : Nat} (h : j ≠ n) : getEth (updEth m n f) j = getEth m j := by
  simp [getEth, updEth, updNet, SMap.get_upd_other _ _ _ h]
@[simp] theorem getImg_updImg (m : Dg) (b : Nat) (f : CodeBank → CodeBank) : getImg (updImg m b f) b = f (getImg m b) := by
  simp [getImg, updImg]
theorem getImg_updImg_other (m : Dg) (b : Nat) (f : CodeBank → CodeBank) {j : Nat} (h : j ≠ b) : getImg (updImg m b f) j = getImg m j := by
  simp [getImg, updImg, SMap.get_upd_other _ _ _ h]
@[simp] theorem getQuad_updQuad (m : Dg) (q : Nat) (f : Quadrant → Quadrant) : getQuad (updQuad m q f) q = f (getQuad m q) := by
  simp [getQuad, updQuad]
theorem getQuad_updQuad_other (m : Dg) (q : Nat) (f : Quadrant → Quadrant) {j : Nat} (h : j ≠ q) : getQuad (updQuad m q f) j = getQuad m j := by
  simp [getQuad, updQuad, SMap.get_upd_other _ _ _ h]

/-! Stores that leave through the PCIe root port, lines of the fetch, and the bucket of a queue. -/

@[simp] theorem pcieWrote_part (m : Dg) (l : List (Nat × List Byte)) : (pcieWrote m l).part = m.part := rfl
@[simp] theorem pcieWrote_ctx (m : Dg) (l : List (Nat × List Byte)) : (pcieWrote m l).ctx = m.ctx := rfl
@[simp] theorem pcieWrote_mem (m : Dg) (l : List (Nat × List Byte)) : (pcieWrote m l).mem = m.mem := rfl
@[simp] theorem pcieWrote_errs (m : Dg) (l : List (Nat × List Byte)) : (pcieWrote m l).errs = m.errs := rfl
@[simp] theorem pcieWrote_cfg (m : Dg) (l : List (Nat × List Byte)) : (pcieWrote m l).cfg = m.cfg := rfl
@[simp] theorem pcieWrote_stu (m : Dg) (l : List (Nat × List Byte)) : (pcieWrote m l).stu = m.stu := rfl
@[simp] theorem pcieWrote_mbx (m : Dg) (l : List (Nat × List Byte)) : (pcieWrote m l).mbx = m.mbx := rfl
@[simp] theorem pcieWrote_easel (m : Dg) (l : List (Nat × List Byte)) : (pcieWrote m l).easel = m.easel := rfl
@[simp] theorem pcieWrote_boot (m : Dg) (l : List (Nat × List Byte)) : (pcieWrote m l).boot = m.boot := rfl
@[simp] theorem pcieWrote_fab (m : Dg) (l : List (Nat × List Byte)) : (pcieWrote m l).fab = m.fab := rfl
@[simp] theorem pcieWrote_cnv (m : Dg) (l : List (Nat × List Byte)) : (pcieWrote m l).cnv = m.cnv := rfl
@[simp] theorem pcieWrote_drc (m : Dg) (l : List (Nat × List Byte)) : (pcieWrote m l).drc = m.drc := rfl
@[simp] theorem pcieWrote_dma (m : Dg) (l : List (Nat × List Byte)) : (pcieWrote m l).dma = m.dma := rfl
@[simp] theorem pcieWrote_srcs (m : Dg) (l : List (Nat × List Byte)) : (pcieWrote m l).srcs = m.srcs := rfl
@[simp] theorem pcieWrote_fcr (m : Dg) (l : List (Nat × List Byte)) : (pcieWrote m l).fcr = m.fcr := rfl
@[simp] theorem pcieWrote_wdg (m : Dg) (l : List (Nat × List Byte)) : (pcieWrote m l).wdg = m.wdg := rfl
@[simp] theorem pcieWrote_supWdg (m : Dg) (l : List (Nat × List Byte)) : (pcieWrote m l).supWdg = m.supWdg := rfl
@[simp] theorem pcieWrote_fix (m : Dg) (l : List (Nat × List Byte)) : (pcieWrote m l).fix = m.fix := rfl
@[simp] theorem pcieWrote_ftest (m : Dg) (l : List (Nat × List Byte)) : (pcieWrote m l).ftest = m.ftest := rfl
@[simp] theorem pcieWrote_sec (m : Dg) (l : List (Nat × List Byte)) : (pcieWrote m l).sec = m.sec := rfl
@[simp] theorem pcieWrote_pwr (m : Dg) (l : List (Nat × List Byte)) : (pcieWrote m l).pwr = m.pwr := rfl
@[simp] theorem pcieWrote_bistExp (m : Dg) (l : List (Nat × List Byte)) : (pcieWrote m l).bistExp = m.bistExp := rfl
@[simp] theorem pcieWrote_now (m : Dg) (l : List (Nat × List Byte)) : (pcieWrote m l).now = m.now := rfl
@[simp] theorem pcieWrote_freeCount (m : Dg) (l : List (Nat × List Byte)) : (pcieWrote m l).freeCount = m.freeCount := rfl
@[simp] theorem hold_r (x : Ctx) (l : Nat) : (x.hold l).r = x.r := rfl
@[simp] theorem hold_load (x : Ctx) (l : Nat) : (x.hold l).load = x.load := rfl
@[simp] theorem hold_pcie (x : Ctx) (l : Nat) : (x.hold l).pcie = x.pcie := rfl
@[simp] theorem hold_sb (x : Ctx) (l : Nat) : (x.hold l).sb = x.sb := rfl
@[simp] theorem hold_btb (x : Ctx) (l : Nat) : (x.hold l).btb = x.btb := rfl
@[simp] theorem hold_ras (x : Ctx) (l : Nat) : (x.hold l).ras = x.ras := rfl
@[simp] theorem hold_dir (x : Ctx) (l : Nat) : (x.hold l).dir = x.dir := rfl
@[simp] theorem hold_dcache (x : Ctx) (l : Nat) : (x.hold l).dcache = x.dcache := rfl
@[simp] theorem hold_dirty (x : Ctx) (l : Nat) : (x.hold l).dirty = x.dirty := rfl
@[simp] theorem hold_curLine (x : Ctx) (l : Nat) : (x.hold l).curLine = x.curLine := rfl
@[simp] theorem hold_irqPend (x : Ctx) (l : Nat) : (x.hold l).irqPend = x.irqPend := rfl
@[simp] theorem hold_irqCfg (x : Ctx) (l : Nat) : (x.hold l).irqCfg = x.irqCfg := rfl
@[simp] theorem hold_nmi (x : Ctx) (l : Nat) : (x.hold l).nmi = x.nmi := rfl
@[simp] theorem hold_waiting (x : Ctx) (l : Nat) : (x.hold l).waiting = x.waiting := rfl
@[simp] theorem hold_stopped (x : Ctx) (l : Nat) : (x.hold l).stopped = x.stopped := rfl
@[simp] theorem hold_pid (x : Ctx) (l : Nat) : (x.hold l).pid = x.pid := rfl
@[simp] theorem hold_windows (x : Ctx) (l : Nat) : (x.hold l).windows = x.windows := rfl
@[simp] theorem hold_appWin (x : Ctx) (l : Nat) : (x.hold l).appWin = x.appWin := rfl
@[simp] theorem hold_lineReq (x : Ctx) (l : Nat) : (x.hold l).lineReq = x.lineReq.filter (· != l) := rfl
@[simp] theorem flushLine_r (x : Ctx) (l : Nat) : (x.flushLine l).r = x.r := rfl
@[simp] theorem flushLine_load (x : Ctx) (l : Nat) : (x.flushLine l).load = x.load := rfl
@[simp] theorem flushLine_pcie (x : Ctx) (l : Nat) : (x.flushLine l).pcie = x.pcie := rfl
@[simp] theorem flushLine_sb (x : Ctx) (l : Nat) : (x.flushLine l).sb = x.sb := rfl
@[simp] theorem flushLine_ras (x : Ctx) (l : Nat) : (x.flushLine l).ras = x.ras := rfl
@[simp] theorem flushLine_dir (x : Ctx) (l : Nat) : (x.flushLine l).dir = x.dir := rfl
@[simp] theorem flushLine_dcache (x : Ctx) (l : Nat) : (x.flushLine l).dcache = x.dcache := rfl
@[simp] theorem flushLine_dirty (x : Ctx) (l : Nat) : (x.flushLine l).dirty = x.dirty := rfl
@[simp] theorem flushLine_curLine (x : Ctx) (l : Nat) : (x.flushLine l).curLine = x.curLine := rfl
@[simp] theorem flushLine_irqPend (x : Ctx) (l : Nat) : (x.flushLine l).irqPend = x.irqPend := rfl
@[simp] theorem flushLine_irqCfg (x : Ctx) (l : Nat) : (x.flushLine l).irqCfg = x.irqCfg := rfl
@[simp] theorem flushLine_nmi (x : Ctx) (l : Nat) : (x.flushLine l).nmi = x.nmi := rfl
@[simp] theorem flushLine_waiting (x : Ctx) (l : Nat) : (x.flushLine l).waiting = x.waiting := rfl
@[simp] theorem flushLine_stopped (x : Ctx) (l : Nat) : (x.flushLine l).stopped = x.stopped := rfl
@[simp] theorem flushLine_pid (x : Ctx) (l : Nat) : (x.flushLine l).pid = x.pid := rfl
@[simp] theorem flushLine_windows (x : Ctx) (l : Nat) : (x.flushLine l).windows = x.windows := rfl
@[simp] theorem flushLine_appWin (x : Ctx) (l : Nat) : (x.flushLine l).appWin = x.appWin := rfl
@[simp] theorem flushLine_lines (x : Ctx) (l : Nat) : (x.flushLine l).lines = x.lines.filter (· != l) := rfl
@[simp] theorem flushLine_lineReq (x : Ctx) (l : Nat) : (x.flushLine l).lineReq = x.lineReq.filter (· != l) := rfl
@[simp] theorem flushLine_l1i (x : Ctx) (l : Nat) : (x.flushLine l).l1i = x.l1i.filter (· != l) := rfl
@[simp] theorem filled_valid (m : Dg) (x : Queue) : (filled m x).valid = x.valid := rfl
@[simp] theorem filled_cls (m : Dg) (x : Queue) : (filled m x).cls = x.cls := rfl
@[simp] theorem filled_slotLog (m : Dg) (x : Queue) : (filled m x).slotLog = x.slotLog := rfl
@[simp] theorem filled_depthLog (m : Dg) (x : Queue) : (filled m x).depthLog = x.depthLog := rfl
@[simp] theorem filled_dram (m : Dg) (x : Queue) : (filled m x).dram = x.dram := rfl
@[simp] theorem filled_check (m : Dg) (x : Queue) : (filled m x).check = x.check := rfl
@[simp] theorem filled_notify (m : Dg) (x : Queue) : (filled m x).notify = x.notify := rfl
@[simp] theorem filled_base (m : Dg) (x : Queue) : (filled m x).base = x.base := rfl
@[simp] theorem filled_flipgrp (m : Dg) (x : Queue) : (filled m x).flipgrp = x.flipgrp := rfl
@[simp] theorem filled_prod0 (m : Dg) (x : Queue) : (filled m x).prod0 = x.prod0 := rfl
@[simp] theorem filled_cons0 (m : Dg) (x : Queue) : (filled m x).cons0 = x.cons0 := rfl
@[simp] theorem filled_prod1 (m : Dg) (x : Queue) : (filled m x).prod1 = x.prod1 := rfl
@[simp] theorem filled_cons1 (m : Dg) (x : Queue) : (filled m x).cons1 = x.cons1 := rfl
@[simp] theorem filled_link (m : Dg) (x : Queue) : (filled m x).link = x.link := rfl
@[simp] theorem filled_linkmode (m : Dg) (x : Queue) : (filled m x).linkmode = x.linkmode := rfl
@[simp] theorem filled_digest (m : Dg) (x : Queue) : (filled m x).digest = x.digest := rfl
@[simp] theorem filled_digidx (m : Dg) (x : Queue) : (filled m x).digidx = x.digidx := rfl
@[simp] theorem filled_twin (m : Dg) (x : Queue) : (filled m x).twin = x.twin := rfl
@[simp] theorem filled_wr (m : Dg) (x : Queue) : (filled m x).wr = x.wr := rfl
@[simp] theorem filled_vis (m : Dg) (x : Queue) : (filled m x).vis = x.vis := rfl
@[simp] theorem filled_rd (m : Dg) (x : Queue) : (filled m x).rd = x.rd := rfl
@[simp] theorem filled_rel (m : Dg) (x : Queue) : (filled m x).rel = x.rel := rfl
@[simp] theorem filled_seq (m : Dg) (x : Queue) : (filled m x).seq = x.seq := rfl
@[simp] theorem filled_budget (m : Dg) (x : Queue) : (filled m x).budget = x.budget := rfl
@[simp] theorem filled_budgetWin (m : Dg) (x : Queue) : (filled m x).budgetWin = x.budgetWin := rfl
@[simp] theorem filled_crcErr (m : Dg) (x : Queue) : (filled m x).crcErr = x.crcErr := rfl
@[simp] theorem filled_seqErr (m : Dg) (x : Queue) : (filled m x).seqErr = x.seqErr := rfl
@[simp] theorem filled_otherErr (m : Dg) (x : Queue) : (filled m x).otherErr = x.otherErr := rfl
@[simp] theorem filled_broken (m : Dg) (x : Queue) : (filled m x).broken = x.broken := rfl
@[simp] theorem filled_pubs (m : Dg) (x : Queue) : (filled m x).pubs = x.pubs := rfl
@[simp] theorem filled_voids (m : Dg) (x : Queue) : (filled m x).voids = x.voids := rfl
@[simp] theorem filled_mirror (m : Dg) (x : Queue) : (filled m x).mirror = x.mirror := rfl
@[simp] theorem filled_credits (m : Dg) (x : Queue) : (filled m x).credits = x.budget := rfl
@[simp] theorem filled_filledAt (m : Dg) (x : Queue) : (filled m x).filledAt = m.now := rfl
@[simp] theorem filled_refills (m : Dg) (x : Queue) : (filled m x).refills = 0 := rfl

end Sys2Proof.Machine
end

