-- ==== Sys2Proof/Laws/Mem.lean ====
section
/-! SUPPORT. Laws of memory: bytes read after a write, ranges cleared, and that every operation of memory keeps the
canonical form. -/
namespace Sys2Proof.Machine

@[simp] theorem peek_poke_self (m : Dg) (a : Nat) (b : Byte) : peek (poke m a b) a = b := by simp [peek, poke]

theorem peek_poke_other (m : Dg) (a : Nat) (b : Byte) {x : Nat} (h : x ≠ a) : peek (poke m a b) x = peek m x := by
  simp [peek, poke, SMap.get_set_other _ _ _ h]

/-- Bytes stored one after the other leave every byte below them. -/
theorem peek_pokes_below (l : List Byte) (m : Dg) (a x : Nat) (h : x < a) : peek (pokes m a l) x = peek m x := by
  induction l generalizing m a with
  | nil => rfl
  | cons b r ih => rw [pokes, ih _ _ (by omega), peek_poke_other _ _ _ (by omega)]

theorem peek_pokes_above (l : List Byte) (m : Dg) (a x : Nat) (h : a + l.length ≤ x) :
    peek (pokes m a l) x = peek m x := by
  induction l generalizing m a with
  | nil => rfl
  | cons b r ih =>
    simp only [List.length_cons] at h
    rw [pokes, ih _ _ (by omega), peek_poke_other _ _ _ (by omega)]

theorem peek_pokes_at (l : List Byte) (m : Dg) (a i : Nat) (h : i < l.length) :
    peek (pokes m a l) (a + i) = l.getD i 0 := by
  induction l generalizing m a i with
  | nil => simp at h
  | cons b r ih =>
    rw [pokes]
    cases i with
    | zero => simp [peek_pokes_below]
    | succ i =>
      have e : a + (i + 1) = a + 1 + i := by omega
      rw [e, ih _ _ _ (by simpa using h)]
      simp

theorem peek_clearRange (m : Dg) (a len x : Nat) :
    peek (clearRange m a len) x = if a ≤ x ∧ x < a + len then 0 else peek m x := by
  unfold peek clearRange
  simp only
  induction m.mem with
  | nil => simp only [List.filter_nil, SMap.get]; split <;> rfl
  | cons e r ih =>
    obtain ⟨k, v⟩ := e
    by_cases hk : a ≤ k ∧ k < a + len
    · rw [List.filter_cons_of_neg (by simp [hk.1, hk.2]), ih]
      split
      · rfl
      · rename_i hx
        have : k ≠ x := by rintro rfl; exact hx hk
        simp [SMap.get, this]
    · rw [List.filter_cons_of_pos (by simp only [not_and, Nat.not_lt] at hk; simp; omega)]
      simp only [SMap.get]
      split
      · rename_i e; subst e; simp [hk]
      · exact ih

/-! ### The canonical form -/

theorem poke_wf (m : Dg) (a : Nat) (b : Byte) (h : Memory.wf m.mem = true) : Memory.wf (poke m a b).mem = true :=
  SMap.wf_set _ _ _ h

theorem pokes_wf (l : List Byte) (m : Dg) (a : Nat) (h : Memory.wf m.mem = true) : Memory.wf (pokes m a l).mem = true := by
  induction l generalizing m a with
  | nil => exact h
  | cons b r ih => exact ih _ _ (poke_wf _ _ _ h)

theorem clearRange_wf (m : Dg) (a len : Nat) (h : Memory.wf m.mem = true) : Memory.wf (clearRange m a len).mem = true :=
  SMap.wf_filter _ _ h

@[simp] theorem wordReport_mem (m : Dg) (src kind detail wa copy : Nat) : (wordReport m src kind detail wa copy).mem = m.mem := rfl
@[simp] theorem canvasReport_mem (m : Dg) (v : Via) (kind wa : Nat) : (canvasReport m v kind wa).mem = m.mem := rfl
@[simp] theorem dramReport_mem (m : Dg) (kind wa copy : Nat) : (dramReport m kind wa copy).mem = m.mem := rfl

theorem pokeWord_wf (m : Dg) (wa n : Nat) (h : Memory.wf m.mem = true) : Memory.wf (pokeWord m wa n).mem = true :=
  pokes_wf _ _ _ h

theorem storeClean_wf (m : Dg) (wa n : Nat) (h : Memory.wf m.mem = true) : Memory.wf (storeClean m wa n).mem = true := by
  unfold storeClean
  exact pokeWord_wf _ _ _ (by simpa only [setErr_mem] using h)

theorem restore_wf (m : Dg) (wa n : Nat) (h : Memory.wf m.mem = true) : Memory.wf (restore m wa n).mem = true := by
  unfold restore
  split
  · exact h
  · exact pokeWord_wf _ _ _ h

theorem readCanvas_wf (m : Dg) (v : Via) (w : Bool) (wa : Nat) (h : Memory.wf m.mem = true) :
    Memory.wf (readCanvas m v w wa).1.mem = true := by
  have hp (n : Nat) := pokeWord_wf m wa n h
  unfold readCanvas
  generalize pokeWord m wa = p at hp ⊢
  cases w
  · cases eccOf (getErr m wa 0) with
    | wrong x =>
      simp only [Bool.false_eq_true, if_false, updBank_mem, setErr_mem, canvasReport_mem]
      exact hp _
    | _ => simpa only [Bool.false_eq_true, if_false, updBank_mem, setErr_mem, canvasReport_mem] using h
  · simpa only [if_true, updBank_mem, canvasReport_mem] using h

theorem readDramCopy_mem (m : Dg) (wa copy : Nat) : (readDramCopy m wa copy).1.mem = m.mem := by
  unfold readDramCopy
  dsimp only
  split <;> rfl

theorem voteDram_wf (m : Dg) (wa : Nat) (a b c : Option Nat) (h : Memory.wf m.mem = true) :
    Memory.wf (voteDram m wa a b c).1.mem = true := by
  unfold voteDram
  dsimp only
  split
  · exact h
  · split
    · exact h
    · simp only [reportI_mem, updDrc_mem]
      exact restore_wf _ _ _ (by simpa only [setErr_mem] using h)

theorem readDram_wf (m : Dg) (wa : Nat) (h : Memory.wf m.mem = true) : Memory.wf (readDram m wa).1.mem = true := by
  have h0 : Memory.wf (readDramCopy m wa 0).1.mem = true := by rw [readDramCopy_mem]; exact h
  simp only [readDram]
  split
  · refine voteDram_wf _ _ _ _ _ ?_
    rw [readDramCopy_mem, readDramCopy_mem]; exact h0
  · split
    · rw [restore_wf _ _ _ h0]
    · simpa only [dramReport_mem, updDrc_mem] using h0

/-- A code-store read changes no byte. -/
theorem readStore_mem (m : Dg) (v : Via) (wa : Nat) : (readStore m v wa).1.mem = m.mem := by
  unfold readStore
  split <;> try rfl
  dsimp only
  split <;> rfl

theorem readWord_wf (m : Dg) (v : Via) (a : Nat) (h : Memory.wf m.mem = true) : Memory.wf (readWord m v a).1.mem = true := by
  unfold readWord
  split
  · split
    · exact h
    · exact readCanvas_wf _ _ _ _ h
  · split
    · exact readDram_wf _ _ h
    · exact h
  · split
    · rw [readStore_mem]; exact h
    · exact h
  all_goals exact h

theorem writePalette_mem (m : Dg) (a n : Nat) : (writePalette m a n).mem = m.mem := by
  unfold writePalette
  dsimp only
  split <;> rfl

theorem writeWord_wf (m : Dg) (v : Via) (a : Nat) (mask : BitVec 16) (d : Nat) (h : Memory.wf m.mem = true) :
    Memory.wf (writeWord m v a mask d).1.mem = true := by
  unfold writeWord
  dsimp only
  split
  · exact pokeWord_wf _ _ _ h
  · split
    · exact h
    · split
      · exact storeClean_wf _ _ _ h
      · have hr := readCanvas_wf m v false (wordOf a) h
        split
        · rename_i e; rw [e] at hr; exact storeClean_wf _ _ _ hr
        · rename_i e; rw [e] at hr; exact hr
  · split
    · exact h
    · split
      · exact storeClean_wf _ _ _ h
      · have hr := readDram_wf m (wordOf a) h
        split
        · rename_i e; rw [e] at hr; exact storeClean_wf _ _ _ hr
        · rename_i e; rw [e] at hr; exact hr
  · split
    · exact storeClean_wf _ _ _ h
    · exact h
  · split
    · rw [writePalette_mem]; exact h
    · exact h
  · exact h

theorem readWords_wf (l : List Nat) (m : Dg) (v : Via) (h : Memory.wf m.mem = true) :
    Memory.wf (readWords m v l).1.mem = true := by
  induction l generalizing m with
  | nil => exact h
  | cons a r ih =>
    have hr := readWord_wf m v a h
    unfold readWords
    split
    · rename_i e; rw [e] at hr; exact hr
    · rename_i m1 n e
      rw [e] at hr
      have h2 := ih m1 hr
      split
      · rename_i e2; rw [e2] at h2; exact h2
      · rename_i e2; rw [e2] at h2; exact h2

theorem readSpan_wf (m : Dg) (v : Via) (a len : Nat) (h : Memory.wf m.mem = true) :
    Memory.wf (readSpan m v a len).1.mem = true := by
  have hr := readWords_wf (spanWords a len) m v h
  unfold readSpan
  split
  · rename_i e; rw [e] at hr; exact hr
  · rename_i e; rw [e] at hr; exact hr

theorem writeWords_wf (l : List Nat) (m : Dg) (v : Via) (a : Nat) (bs : List Byte) (h : Memory.wf m.mem = true) :
    Memory.wf (writeWords m v a bs l).1.mem = true := by
  induction l generalizing m with
  | nil => exact h
  | cons wa r ih =>
    unfold writeWords
    have hr := writeWord_wf m v wa (sliceWord a bs wa).1 (sliceWord a bs wa).2 h
    dsimp only
    split
    · rename_i e; rw [e] at hr; exact hr
    · rename_i e; rw [e] at hr; exact ih _ hr

theorem writeSpan_wf (m : Dg) (v : Via) (a : Nat) (bs : List Byte) (h : Memory.wf m.mem = true) :
    Memory.wf (writeSpan m v a bs).1.mem = true := writeWords_wf _ _ _ _ _ h

theorem banksDown_wf (m : Dg) (park : Bool) (h : Memory.wf m.mem = true) : Memory.wf (banksDown m park).mem = true :=
  SMap.wf_filter _ _ h

theorem reset_memOk : State.reset.memOk = true := rfl

end Sys2Proof.Machine
end

