-- ==== Sys2Proof/Laws/Ops.lean ====
section
/-! SUPPORT. Laws of the operations that every instruction goes through: contexts read and written, and what an
instruction does in a context that is ready. -/
namespace Sys2Proof.Machine

@[simp] theorem getCtx_setCtx (m : Dg) (c : CtxId) (x : Ctx) : getCtx (setCtx m c x) c = x := by
  simp [getCtx, setCtx]

theorem getCtx_setCtx_other (m : Dg) (c : CtxId) (x : Ctx) {d : CtxId} (h : d ≠ c) :
    getCtx (setCtx m c x) d = getCtx m d := by
  simp [getCtx, setCtx, SMap.get_set_other _ _ _ h]

@[simp] theorem getCtx_updCtx (m : Dg) (c : CtxId) (f : Ctx → Ctx) : getCtx (updCtx m c f) c = f (getCtx m c) := by
  simp [updCtx]

theorem getCtx_updCtx_other (m : Dg) (c : CtxId) (f : Ctx → Ctx) {d : CtxId} (h : d ≠ c) :
    getCtx (updCtx m c f) d = getCtx m d := getCtx_setCtx_other m c _ h

@[simp] theorem regsOf_updCtx (m : Dg) (c : CtxId) (f : Ctx → Ctx) : regsOf (updCtx m c f) c = (f (getCtx m c)).r := by
  simp [regsOf]

/-- No counter is enabled, so no event is counted. -/
theorem countEv_off (m : Dg) (c : CtxId) (ev : Nat) (h : (regsOf m c).pmctl = 0) : countEv m c ev = m := by
  unfold countEv
  have h' : (getCtx m c).r.pmctl = 0 := h
  simp [h']

theorem countAll_off (m : Dg) (c : CtxId) (l : List Nat) (h : (regsOf m c).pmctl = 0) :
    l.foldl (fun m e => countEv m c e) m = m := by
  induction l with
  | nil => rfl
  | cons e r ih => simp [countEv_off m c e h, ih]

theorem stepped_off (m : Dg) (c : CtxId) (h : stepping m c = false) : stepped m c = m := by
  unfold stepped
  have h' : (SMap.get m.easel.step c).left = 0 := by simpa [stepping] using h
  simp [h']

theorem traceBranch_off {m : Dg} {c : CtxId} (f : Ctx → Ctx) (d : CtxId) (t : Addr)
    (h : (SMap.get m.easel.trace c).enable = false) : traceBranch (updCtx m d f) c t = updCtx m d f := by
  have h' : (SMap.get (updCtx m d f).easel.trace c).enable = false := h
  unfold traceBranch
  exact if_neg fun e => Bool.noConfusion (h'.symm.trans e.1)

/-! ### What a fetch can do -/

/-- A part of the module that reads of the memories leave: everything but the stored words, their error marks and counters,
and the reports about them. -/
structure ReadKeeps (m m' : Dg) : Prop where
  part : m'.part = m.part
  ctx : m'.ctx = m.ctx
  cfg : m'.cfg = m.cfg
  stu : m'.stu = m.stu
  mbx : m'.mbx = m.mbx
  easel : m'.easel = m.easel
  boot : { m'.boot with rewrite := m.boot.rewrite } = m.boot
  fab : m'.fab = m.fab
  dma : m'.dma = m.dma
  fcr : m'.fcr = m.fcr
  wdg : m'.wdg = m.wdg
  supWdg : m'.supWdg = m.supWdg
  fix : m'.fix = m.fix
  sec : m'.sec = m.sec
  net : m'.net = m.net
  pwr : m'.pwr = m.pwr
  bistExp : m'.bistExp = m.bistExp
  now : m'.now = m.now
  freeCount : m'.freeCount = m.freeCount

theorem ReadKeeps.refl (m : Dg) : ReadKeeps m m := by constructor <;> rfl

theorem ReadKeeps.trans {m n o : Dg} (h : ReadKeeps m n) (k : ReadKeeps n o) : ReadKeeps m o where
  part := k.part.trans h.part
  ctx := k.ctx.trans h.ctx
  cfg := k.cfg.trans h.cfg
  stu := k.stu.trans h.stu
  mbx := k.mbx.trans h.mbx
  easel := k.easel.trans h.easel
  boot := by rw [← h.boot, ← k.boot]
  fab := k.fab.trans h.fab
  dma := k.dma.trans h.dma
  fcr := k.fcr.trans h.fcr
  wdg := k.wdg.trans h.wdg
  supWdg := k.supWdg.trans h.supWdg
  fix := k.fix.trans h.fix
  sec := k.sec.trans h.sec
  net := k.net.trans h.net
  pwr := k.pwr.trans h.pwr
  bistExp := k.bistExp.trans h.bistExp
  now := k.now.trans h.now
  freeCount := k.freeCount.trans h.freeCount

theorem pokes_keeps (l : List Byte) (m : Dg) (a : Nat) : ReadKeeps m (pokes m a l) := by
  induction l generalizing m a with
  | nil => exact .refl m
  | cons b r ih => exact .trans (by constructor <;> rfl) (ih (poke m a b) (a + 1))

theorem pokeWord_keeps (m : Dg) (wa n : Nat) : ReadKeeps m (pokeWord m wa n) := pokes_keeps _ _ _

theorem restore_keeps (m : Dg) (wa n : Nat) : ReadKeeps m (restore m wa n) := by
  unfold restore
  split
  · exact .refl m
  · exact pokeWord_keeps m wa n

theorem updBank_keeps (m : Dg) (k : Nat) (f : Bank → Bank) : ReadKeeps m (updBank m k f) := by constructor <;> rfl

theorem setErr_keeps (m : Dg) (wa copy : Nat) (e : BitVec 144) : ReadKeeps m (setErr m wa copy e) := by
  constructor <;> rfl

theorem canvasReport_keeps (m : Dg) (v : Via) (k wa : Nat) : ReadKeeps m (canvasReport m v k wa) := by
  constructor <;> rfl

theorem readCanvas_keeps (m : Dg) (v : Via) (w : Bool) (wa : Nat) : ReadKeeps m (readCanvas m v w wa).1 := by
  have bad (k : Nat) (f : Bank → Bank) : ReadKeeps m (updBank (canvasReport m v k wa) (bankOf wa) f) :=
    (canvasReport_keeps m v k wa).trans (updBank_keeps _ _ _)
  have fixed (m : Dg) (f : Bank → Bank) :
      ReadKeeps m (updBank (setErr (canvasReport m v kCanvasCorrected wa) wa 0 0) (bankOf wa) f) :=
    ((canvasReport_keeps m v _ wa).trans (setErr_keeps _ _ _ _)).trans (updBank_keeps _ _ _)
  unfold readCanvas
  cases w
  · cases eccOf (getErr m wa 0) with
    | clean => exact .refl m
    | corrected => exact fixed m _
    | wrong x => exact (pokeWord_keeps m wa _).trans (fixed _ _)
    | uncorrectable => exact bad _ _
  · exact bad _ _

theorem updDrc_keeps (m : Dg) (f : Drc → Drc) : ReadKeeps m (updDrc m f) := by constructor <;> rfl

theorem dramReport_keeps (m : Dg) (k wa copy : Nat) : ReadKeeps m (dramReport m k wa copy) := by constructor <;> rfl

theorem readDramCopy_keeps (m : Dg) (wa copy : Nat) : ReadKeeps m (readDramCopy m wa copy).1 := by
  have fixed (f : Drc → Drc) : ReadKeeps m (setErr (dramReport (updDrc m f) kDramCorrected wa copy) wa copy 0) :=
    ((updDrc_keeps m f).trans (dramReport_keeps _ _ _ _)).trans (setErr_keeps _ _ _ _)
  unfold readDramCopy
  dsimp only
  split
  · exact .refl m
  · exact fixed _
  · exact fixed _
  · exact .refl m

theorem reportI_keeps (m : Dg) (j : Bool) (src k d a t : Nat) : ReadKeeps m (reportI m j src k d a t) := by
  constructor <;> rfl

theorem voteDram_keeps (m : Dg) (wa : Nat) (a b c : Option Nat) : ReadKeeps m (voteDram m wa a b c).1 := by
  unfold voteDram
  dsimp only
  split
  · exact reportI_keeps _ _ _ _ _ _ _
  · split
    · exact .refl m
    · refine .trans (.trans ?_ (updDrc_keeps _ _)) (reportI_keeps _ _ _ _ _ _ _)
      exact (((setErr_keeps _ _ _ _).trans (setErr_keeps _ _ _ _)).trans (setErr_keeps _ _ _ _)).trans (restore_keeps _ _ _)

theorem readDram_keeps (m : Dg) (wa : Nat) : ReadKeeps m (readDram m wa).1 := by
  have h0 := readDramCopy_keeps m wa 0
  unfold readDram
  generalize readDramCopy m wa 0 = p at h0 ⊢
  obtain ⟨m0, a⟩ := p
  have h1 := readDramCopy_keeps m0 wa 1
  dsimp only
  generalize readDramCopy m0 wa 1 = p at h1 ⊢
  obtain ⟨m1, b⟩ := p
  have h2 := readDramCopy_keeps m1 wa 2
  dsimp only
  generalize readDramCopy m1 wa 2 = p at h2 ⊢
  obtain ⟨m2, c⟩ := p
  split
  · exact ((h0.trans h1).trans h2).trans (voteDram_keeps _ _ _ _ _)
  · cases a
    · exact (h0.trans (updDrc_keeps _ _)).trans (dramReport_keeps _ _ _ _)
    · rename_i x
      have hr := restore_keeps m0 wa x
      dsimp only at h0 ⊢
      exact h0.trans hr

theorem reportOpen_keeps (m : Dg) (src k a : Nat) : ReadKeeps m (reportOpen m src k a) := by constructor <;> rfl

theorem readStore_keeps (m : Dg) (v : Via) (wa : Nat) : ReadKeeps m (readStore m v wa).1 := by
  unfold readStore
  split
  · exact .refl m
  · exact reportOpen_keeps _ _ _ _
  · exact reportOpen_keeps _ _ _ _
  · have h := reportOpen_keeps m (storeSrc v) kCstUncorrectable (wordOf wa)
    dsimp only
    split
    · exact { h with boot := rfl }
    · exact h

theorem readWord_keeps (m : Dg) (v : Via) (a : Nat) : ReadKeeps m (readWord m v a).1 := by
  unfold readWord
  split
  · split
    · exact .refl m
    · exact readCanvas_keeps _ _ _ _
  · split
    · exact readDram_keeps _ _
    · exact .refl m
  · split
    · exact readStore_keeps _ _ _
    · exact .refl m
  all_goals exact .refl m

theorem readWords_keeps (l : List Nat) (m : Dg) (v : Via) : ReadKeeps m (readWords m v l).1 := by
  induction l generalizing m with
  | nil => exact .refl m
  | cons a r ih =>
    have hr := readWord_keeps m v a
    unfold readWords
    split
    · rename_i e; rw [e] at hr; exact hr
    · rename_i m1 n e
      rw [e] at hr
      have h2 := ih m1
      split
      · rename_i e2; rw [e2] at h2; exact hr.trans h2
      · rename_i e2; rw [e2] at h2; exact hr.trans h2

theorem readSpan_keeps (m : Dg) (v : Via) (a len : Nat) : ReadKeeps m (readSpan m v a len).1 := by
  have hr := readWords_keeps (spanWords a len) m v
  unfold readSpan
  split
  · rename_i e; rw [e] at hr; exact hr
  · rename_i e; rw [e] at hr; exact hr

/-- What a fetch of a context whose counters are off can do: its line buffers change, and memory as reads change it. -/
structure FetchKeeps (c : CtxId) (m m' : Dg) : Prop where
  own : ∃ ls rq l1 cur, getCtx m' c = { getCtx m c with lines := ls, lineReq := rq, l1i := l1, curLine := cur }
  others : ∀ d, d ≠ c → getCtx m' d = getCtx m d
  rest : ∀ x, ReadKeeps { m with ctx := x } { m' with ctx := x }
  memory : Memory.wf m.mem = true → Memory.wf m'.mem = true

theorem FetchKeeps.refl (c : CtxId) (m : Dg) : FetchKeeps c m m where
  own := ⟨_, _, _, _, rfl⟩
  others _ _ := rfl
  rest _ := .refl _
  memory := id

theorem FetchKeeps.trans {c : CtxId} {m n o : Dg} (h : FetchKeeps c m n) (k : FetchKeeps c n o) : FetchKeeps c m o where
  own := by
    obtain ⟨_, _, _, _, e⟩ := h.own
    obtain ⟨_, _, _, _, e'⟩ := k.own
    rw [e'] at *
    exact ⟨_, _, _, _, by rw [e]⟩
  others d hd := (k.others d hd).trans (h.others d hd)
  rest x := (h.rest x).trans (k.rest x)
  memory := k.memory ∘ h.memory

theorem FetchKeeps.regs {c : CtxId} {m m' : Dg} (h : FetchKeeps c m m') : regsOf m' c = regsOf m c := by
  obtain ⟨_, _, _, _, e⟩ := h.own
  simp [regsOf, e]

theorem FetchKeeps.load {c : CtxId} {m m' : Dg} (h : FetchKeeps c m m') : (getCtx m' c).load = (getCtx m c).load := by
  obtain ⟨_, _, _, _, e⟩ := h.own
  simp [e]

theorem FetchKeeps.easel {c : CtxId} {m m' : Dg} (h : FetchKeeps c m m') : m'.easel = m.easel := (h.rest []).easel

/-- A change of the own context's lines. -/
theorem FetchKeeps.of_lines (m : Dg) (c : CtxId) (x : Ctx)
    (h : ∃ ls rq l1 cur, x = { getCtx m c with lines := ls, lineReq := rq, l1i := l1, curLine := cur }) : FetchKeeps c m (setCtx m c x) where
  own := by rw [getCtx_setCtx]; exact h
  others _ hd := getCtx_setCtx_other m c x hd
  rest _ := .refl _
  memory := id

theorem FetchKeeps.of_read {m m' : Dg} (c : CtxId) (h : ReadKeeps m m')
    (hm : Memory.wf m.mem = true → Memory.wf m'.mem = true) : FetchKeeps c m m' where
  own := ⟨_, _, _, _, by show SMap.get m'.ctx c = _; rw [h.ctx]; rfl⟩
  others d _ := by show SMap.get m'.ctx d = SMap.get m.ctx d; rw [h.ctx]
  rest x := { h with ctx := rfl }
  memory := hm

theorem useLine_lines (x : Ctx) (l : Nat) : ∃ ls rq l1 cur, x.useLine l = { x with lines := ls, lineReq := rq, l1i := l1, curLine := cur } := by
  unfold Ctx.useLine
  split
  · exact ⟨_, _, _, _, rfl⟩
  · exact ⟨_, _, _, _, rfl⟩

theorem requestLine_keeps {m : Dg} {c : CtxId} (l : Nat) (hp : (regsOf m c).pmctl = 0) : FetchKeeps c m (requestLine m c l) := by
  unfold requestLine
  dsimp only
  split
  · exact .refl c m
  · split
    · rw [countEv_off _ _ _ (by simpa [regsOf] using hp)]
      exact .of_lines m c _ ⟨_, _, _, _, rfl⟩
    · exact .of_lines m c _ ⟨_, _, _, _, rfl⟩

theorem fillLine_keeps (m : Dg) (c : CtxId) (l : Nat) : FetchKeeps c m (fillLine m c l).1 := by
  unfold fillLine
  dsimp only
  split
  · exact .of_lines m c _ ⟨_, _, _, _, rfl⟩
  split
  · exact .refl c m
  · have hr := readSpan_keeps m (viaCtx c) (busAddr m c (l * 128)) 128
    have hw := readSpan_wf m (viaCtx c) (busAddr m c (l * 128)) 128
    generalize readSpan m (viaCtx c) (busAddr m c (l * 128)) 128 = p at hr hw ⊢
    obtain ⟨m1, o⟩ := p
    have h1 : FetchKeeps c m m1 := .of_read c hr hw
    cases o
    · exact h1.trans (.of_lines m1 c _ ⟨_, _, _, _, rfl⟩)
    · exact h1.trans (.of_lines m1 c _ ⟨_, _, _, _, rfl⟩)

theorem fillLines_keeps (l : List Nat) (m : Dg) (c : CtxId) :
    FetchKeeps c m (l.foldl (fun m k => (fillLine m c k).1) m) := by
  induction l generalizing m with
  | nil => exact .refl c m
  | cons k r ih => exact (fillLine_keeps m c k).trans (ih _)

theorem demandLine_keeps {m : Dg} {c : CtxId} (l : Nat) (hp : (regsOf m c).pmctl = 0) :
    FetchKeeps c m (demandLine m c l).1 := by
  have h1 := fillLines_keeps (getCtx m c).lineReq m c
  have hp1 := hp
  rw [← h1.regs] at hp1
  unfold demandLine
  split
  · exact .of_lines m c _ (useLine_lines _ _)
  · generalize (getCtx m c).lineReq.foldl (fun m k => (fillLine m c k).1) m = m1 at h1 hp1 ⊢
    dsimp only
    split
    · exact h1.trans (.of_lines m1 c _ (useLine_lines _ _))
    · exact (h1.trans (requestLine_keeps l hp1)).trans (fillLine_keeps _ c l)

theorem beginLine_keeps {m : Dg} {c : CtxId} (l : Nat) (hp : (regsOf m c).pmctl = 0) : FetchKeeps c m (beginLine m c l) := by
  have h1 : FetchKeeps c m (updCtx m c fun x => { x with curLine := some l }) := .of_lines m c _ ⟨_, _, _, _, rfl⟩
  have hp1 := hp
  rw [← h1.regs] at hp1
  have h2 := requestLine_keeps (l + 1) hp1
  have hp2 := hp1
  rw [← h2.regs] at hp2
  unfold beginLine
  dsimp only
  split
  · split
    · exact h1.trans h2
    · exact h1
  · exact (h1.trans h2).trans (requestLine_keeps _ hp2)

theorem fetch_keeps {m : Dg} {c : CtxId} (len : Nat) (hp : (regsOf m c).pmctl = 0) : FetchKeeps c m (fetch m c len).1 := by
  unfold fetch
  dsimp only
  split
  · exact .refl c m
  · split
    · exact .refl c m
    · have h1 := demandLine_keeps ((getCtx m c).r.pc.toNat / 128) hp
      generalize demandLine m c ((getCtx m c).r.pc.toNat / 128) = p at h1 ⊢
      obtain ⟨m1, b⟩ := p
      have hp1 : (regsOf m1 c).pmctl = 0 := by rw [h1.regs]; exact hp
      cases b
      · exact h1
      · have h2 := beginLine_keeps ((getCtx m c).r.pc.toNat / 128) hp1
        have hp2 := hp1
        rw [← h2.regs] at hp2
        dsimp only
        split
        · exact h1.trans h2
        · exact (h1.trans h2).trans (demandLine_keeps _ hp2)

/-- The module with the break armed again. -/
def armed (m : Dg) (c : CtxId) : Dg := { m with easel := { m.easel with pass := SMap.set m.easel.pass c false } }

theorem fetched_keeps {m : Dg} {c : CtxId} (len : Nat) (hp : (regsOf m c).pmctl = 0) :
    FetchKeeps c (armed m c) (fetched m c len) := fetch_keeps (m := armed m c) len hp

theorem regsOf_fetched {m : Dg} {c : CtxId} (len : Nat) (hp : (regsOf m c).pmctl = 0) :
    regsOf (fetched m c len) c = regsOf m c := (fetched_keeps len hp).regs

/-! ### What an instruction does in a quiet context -/

/-- What `quiet` says, part by part. -/
theorem quiet_parts {m : Dg} {c : CtxId} {len : Nat} (h : quiet m c len = true) :
    runnable m c = true ∧ irqDue (getCtx m c) = false ∧ breakHit m c (regsOf m c).pc.toNat = false ∧
    awake m c len = true ∧ (fetches m c len).2 = true ∧ (getCtx m c).load = none ∧ (regsOf m c).rep = none ∧ (regsOf m c).pmctl = 0 ∧
    stepping m c = false ∧ (SMap.get m.easel.trace c).enable = false := by
  simpa [quiet, and_assoc] using h

theorem ready_quiet {m : Dg} {c : CtxId} {len : Nat} (h : ready m c len = true) : quiet m c len = true := by
  simp only [ready, Bool.and_eq_true] at h
  exact h.1

theorem ready_ldepth {m : Dg} {c : CtxId} {len : Nat} (h : ready m c len = true) : (regsOf m c).ldepth = 0 := by
  simp only [ready, Bool.and_eq_true, beq_iff_eq] at h
  exact h.2

theorem quiet_pmctl {m : Dg} {c : CtxId} {len : Nat} (h : quiet m c len = true) : (regsOf m c).pmctl = 0 :=
  (quiet_parts h).2.2.2.2.2.2.2.1

theorem ready_pmctl {m : Dg} {c : CtxId} {len : Nat} (h : ready m c len = true) : (regsOf m c).pmctl = 0 :=
  quiet_pmctl (ready_quiet h)

theorem quiet_fetched {m : Dg} {c : CtxId} {len : Nat} (h : quiet m c len = true) :
    FetchKeeps c (armed m c) (fetched m c len) := fetched_keeps len (quiet_pmctl h)

theorem quiet_regs {m : Dg} {c : CtxId} {len : Nat} (h : quiet m c len = true) :
    regsOf (fetched m c len) c = regsOf m c := regsOf_fetched len (quiet_pmctl h)

/-- A context without an outstanding load works from its registers. -/
theorem withLoad_none {x : Ctx} (h : x.load = none) : withLoad x = x.r := by simp [withLoad, h]

/-- What `awake` says: the fetch does not wait, nor does the entry of an exception. -/
theorem awake_parts {m : Dg} {c : CtxId} {len : Nat} (h : awake m c len = true) :
    fetchWaits m c len = false ∧ ∀ v, v < 32 → entryWaits m c v = false := by
  simpa [awake] using h

/-- An instruction of a quiet context is its own work, done on the module as fetched. -/
theorem instr_quiet {m : Dg} {c : CtxId} {len : Nat} (body : Dg → Regs → Regs → IRes) (h : quiet m c len = true) :
    instr m c len body =
      match body (fetched m c len) (regsOf m c) (regsOf m c) with
      | .trap m' e => if entryWaits (armed m c) c e.vec then armed m c else takeExn m' c e
      | .hold m' => m'
      | .branch m' r next kind =>
        let n := noteBranch (retire m' c len r next none (regsOf m c)) c (regsOf m c).pc
          ((regsOf m c).pc + BitVec.ofNat 48 len) kind next
        if kind = .call ∨ kind = .callr ∨ kind = .ret then countEv n c 0x12 else n
      | .done m' r next ld evs =>
        evs.foldl (fun m e => countEv m c e) (retire m' c len r next ld (regsOf m c)) := by
  obtain ⟨h1, h2, h3, ha, h4, h5, h6, -, -, -⟩ := quiet_parts h
  have hk := quiet_fetched h
  have hr : (getCtx (fetched m c len) c).r = regsOf m c := quiet_regs h
  have hl : (getCtx (fetched m c len) c).load = none := hk.load.trans h5
  have h3' : breakHit m c (getCtx m c).r.pc.toNat = false := h3
  have hf : fetch (armed m c) c len = (fetched m c len, true) := Prod.ext rfl h4
  have hw : fetchWaits (armed m c) c len = false := (awake_parts ha).1
  unfold armed at hf hw
  unfold instr armed
  simp only [h1, h2, h3', hf, hw, Bool.not_true, Bool.false_and, Bool.false_eq_true, if_false, hr, withLoad_none hl]
  cases body (fetched m c len) (regsOf m c) (regsOf m c) <;> simp only [h6, Option.isSome_none, Bool.false_eq_true, if_false]

theorem passTime_off (m : Dg) (c : CtxId) (h : (regsOf m c).pmctl = 0) : passTime m c = m := if_pos h

/-- Retirement outside loops, with no deferred dequeue, counter, trace or single step: the registers with the next pc, and
the load, if the instruction is one. -/
theorem retire_plain {m : Dg} {c : CtxId} {len : Nat} {r : Regs} {next : Option Addr} {ld : Option Pend} {before : Regs}
    (hload : (getCtx m c).load = none) (hstep : stepping m c = false) (htr : (SMap.get m.easel.trace c).enable = false)
    (hd : r.ldepth = 0) (hp : r.pmctl = 0) :
    retire m c len r next ld before =
      ranOn m c r (next.getD (r.pc + BitVec.ofNat 48 len)) (ld.map fun p => ⟨p.isA, p.reg, p.value, p.wait, before, p.deq⟩) := by
  have hl : ∀ p nx, endLoops p 4 r nx = (r, nx) := by
    intro p nx; unfold endLoops; simp [hd]
  simp only [retire, hload, Option.map_none, Option.getD_none, applyDeq, hl, countLoad]
  rw [countEv_off _ _ _ (by simp [hp]), ite_self, passTime_off _ _ (by simp [hp]), traceBranch_off _ _ _ htr, ite_self]
  exact stepped_off _ _ hstep

theorem calm_parts {m : Dg} {c : CtxId} (h : calm m c = true) :
    (getCtx m c).load = none ∧ stepping m c = false ∧ (SMap.get m.easel.trace c).enable = false := by
  simpa [calm, and_assoc] using h

/-- An instruction of a quiet context whose work leaves the module `m'`, outside loops. -/
theorem instr_done_on {m m' : Dg} {c : CtxId} {len : Nat} {body : Dg → Regs → Regs → IRes} {r : Regs} {next : Option Addr}
    {ld : Option Pend} {evs : List Nat} (h : quiet m c len = true)
    (hb : body (fetched m c len) (regsOf m c) (regsOf m c) = .done m' r next ld evs)
    (hc : calm m' c = true) (hp : r.pmctl = 0) (hd : r.ldepth = 0) :
    instr m c len body = ranOn m' c r (next.getD (r.pc + BitVec.ofNat 48 len))
      (ld.map fun p => ⟨p.isA, p.reg, p.value, p.wait, regsOf m c, p.deq⟩) := by
  obtain ⟨h1, h2, h3⟩ := calm_parts hc
  rw [instr_quiet body h, hb]
  simp only [retire_plain h1 h2 h3 hd hp]
  exact countAll_off _ _ _ (by simp [ranOn, hp])

/-- Taking note of a branch enables no counter. -/
theorem noteBranch_pmctl {m : Dg} {c : CtxId} (pc seq : Addr) (kind : BrKind) (t : Option Addr)
    (h : (regsOf m c).pmctl = 0) : (regsOf (noteBranch m c pc seq kind t) c).pmctl = 0 := by
  have key : ∀ (b : Bool) (x : Ctx), x.r.pmctl = 0 →
      (regsOf (if b = true then setCtx m c x else countEv (setCtx m c x) c 0x07) c).pmctl = 0 := by
    intro b x hx
    rw [countEv_off _ _ _ (by simpa [regsOf] using hx), ite_self]
    simpa [regsOf] using hx
  unfold noteBranch
  dsimp only
  split
  · exact h
  · split
    · split <;> simpa [regsOf] using h
    · exact key _ _ (by split <;> exact h)

/-- A branch of a quiet context whose work leaves the module `m'`, outside loops. -/
theorem instr_branch_on {m m' : Dg} {c : CtxId} {len : Nat} {body : Dg → Regs → Regs → IRes} {r : Regs} {next : Option Addr}
    {kind : BrKind} (h : quiet m c len = true)
    (hb : body (fetched m c len) (regsOf m c) (regsOf m c) = .branch m' r next kind) (hpc : r.pc = (regsOf m c).pc)
    (hc : calm m' c = true) (hp : r.pmctl = 0) (hd : r.ldepth = 0) :
    instr m c len body = branched m' c len r kind next := by
  obtain ⟨h1, h2, h3⟩ := calm_parts hc
  rw [instr_quiet body h, hb]
  simp only [retire_plain h1 h2 h3 hd hp, hpc, Option.map_none]
  rw [countEv_off _ _ _ (noteBranch_pmctl _ _ _ _ (by simpa [ranOn] using hp)), ite_self]
  simp only [branched, hpc]

/-- Fetching leaves a quiet context calm. -/
theorem calm_fetched {m : Dg} {c : CtxId} {len : Nat} (h : quiet m c len = true) : calm (fetched m c len) c = true := by
  obtain ⟨-, -, -, -, -, h5, -, -, h8, h9⟩ := quiet_parts h
  have hk := quiet_fetched h
  have e8 : stepping (fetched m c len) c = stepping m c := by unfold stepping; rw [hk.easel]; rfl
  have e9 : (fetched m c len).easel.trace = m.easel.trace := by rw [hk.easel]; rfl
  have e5 : (getCtx (fetched m c len) c).load = none := hk.load.trans h5
  simp [calm, e5, e8, h8, e9, h9]

/-- An instruction of a ready context that only writes registers. -/
theorem instr_regs {m : Dg} {c : CtxId} {len : Nat} {body : Dg → Regs → Regs → IRes} {r : Regs} {evs : List Nat}
    (h : ready m c len = true)
    (hb : body (fetched m c len) (regsOf m c) (regsOf m c) = .done (fetched m c len) r none none evs)
    (hp : r.pmctl = 0) (hd : r.ldepth = 0) :
    instr m c len body = ranTo m c len r (r.pc + BitVec.ofNat 48 len) none :=
  instr_done_on (ready_quiet h) hb (calm_fetched (ready_quiet h)) hp hd

/-- A command that is an instruction retires with the registers its work gives; `pmctl` and `ldepth` are as before. -/
theorem retires_of {s : State} {c : CtxId} {len : Nat} {i : Instr} {body : Dg → Regs → Regs → IRes} {r : Regs} {evs : List Nat}
    (h : ready s.dg c len = true) (hi : exec i s = run s fun m => instr m c len body)
    (hb : body (fetched s.dg c len) (regsOf s.dg c) (regsOf s.dg c) = .done (fetched s.dg c len) r none none evs)
    (hp : r.pmctl = (regsOf s.dg c).pmctl) (hd : r.ldepth = (regsOf s.dg c).ldepth) : Retires i s c len r := by
  unfold Retires
  rw [hi]
  unfold run
  simp only [instr_regs h hb (hp.trans (ready_pmctl h)) (hd.trans (ready_ldepth h))]

/-- A command that is an instruction takes the exception that its work raises. -/
theorem traps_of {s : State} {c : CtxId} {len : Nat} {i : Instr} {body : Dg → Regs → Regs → IRes} {e : Exn}
    (h : quiet s.dg c len = true) (hi : exec i s = run s fun m => instr m c len body)
    (hb : body (fetched s.dg c len) (regsOf s.dg c) (regsOf s.dg c) = .trap (fetched s.dg c len) e)
    (hv : e.vec < 32 := by decide) : Traps i s c len e := by
  have hw : entryWaits (armed s.dg c) c e.vec = false := (awake_parts (quiet_parts h).2.2.2.1).2 _ hv
  unfold Traps
  rw [hi]
  unfold run
  simp only [instr_quiet body h, hb, hw, Bool.false_eq_true, if_false]

/-- No check of an encoding applies. -/
theorem checked_pass {l : List (Bool × Nat)} {k : Dg → Regs → Regs → IRes} {m : Dg} {src base : Regs}
    (h : ∀ e ∈ l, e.1 = false) : checked l k m src base = k m src base := by
  have : l.find? (·.1) = none := by simpa using h
  simp [checked, lowest, this]

@[simp] theorem setD_pmctl (r : Regs) (i : Nat) (v : Quad) : (r.setD i v).pmctl = r.pmctl := rfl
@[simp] theorem setD_ldepth (r : Regs) (i : Nat) (v : Quad) : (r.setD i v).ldepth = r.ldepth := rfl
@[simp] theorem setD_pc (r : Regs) (i : Nat) (v : Quad) : (r.setD i v).pc = r.pc := rfl
@[simp] theorem getD_setD (r : Regs) (i : Nat) (v : Quad) : (r.setD i v).getD i = v := SMap.get_set_self _ _ _
theorem getD_setD_other (r : Regs) (i : Nat) (v : Quad) {j : Nat} (h : j ≠ i) : (r.setD i v).getD j = r.getD j :=
  SMap.get_set_other _ _ _ h

/-- The registers that an exception or interrupt sets before the frame is stored. -/
def Regs.entered (r : Regs) (e : Entry) : Regs :=
  { r with ecause := e.cause, eaddr := match e.eaddr with
                                      | some a => BitVec.ofNat 64 a
                                      | none => r.eaddr }

/-- An entry that can be made. -/
theorem enter_of {m m' : Dg} {c : CtxId} {r : Regs} {e : Entry} {h : Addr}
    (hf : frameAndHandler (updCtx m c fun x => { x with r := (r.entered e).withCounts x.r, load := none }) c r e.vec e.pc
      (statusWord { r with repact := e.repact }) = some (m', h)) :
    enter m c r e = handlerAt m' c { r.entered e with
        a15s := r.a15s - 176, mode := if r.mode = .str then .str else .supervisor,
        ie := e.ie, ipl := e.ipl, pc := h, repact := false, rep := none, holdoff := 2 } := by
  unfold Regs.entered at hf
  unfold enter
  dsimp only
  split
  · rename_i h0
    cases h0.symm.trans hf
  · rename_i h0
    cases h0.symm.trans hf
    rfl

/-! ### Dirty words of the L1 (R218) -/

theorem writeBack_wf (m : Dg) (c : CtxId) (k : Nat) (h : Memory.wf m.mem = true) : Memory.wf (writeBack m c k).mem = true := by
  unfold writeBack
  dsimp only
  split
  · exact h
  · split
    · exact writeWord_wf _ _ _ _ _ h
    · exact h

theorem writeBackAll_wf (m : Dg) (c : CtxId) (h : Memory.wf m.mem = true) : Memory.wf (writeBackAll m c).mem = true := by
  unfold writeBackAll
  generalize SMap.keysWhere (getCtx m c).dirty id = l
  induction l generalizing m with
  | nil => exact h
  | cons k r ih =>
    rw [List.foldl_cons]
    exact ih _ (writeBack_wf m c k h)

theorem writeBackLine_wf (m : Dg) (c : CtxId) (l : Nat) (h : Memory.wf m.mem = true) :
    Memory.wf (writeBackLine m c l).mem = true := by
  unfold writeBackLine
  generalize List.range 8 = ks
  induction ks generalizing m with
  | nil => exact h
  | cons i r ih =>
    rw [List.foldl_cons]
    exact ih _ (writeBack_wf m c (8 * l + i) h)

end Sys2Proof.Machine
end

