-- ==== Sys2Proof/Laws/Sec.lean ====
section
/-! SUPPORT. Laws of SEC's key records and monotonic counters: what a line that SEC writes changes, what three copies that were
written together hold, and what reading them leaves. -/
namespace Sys2Proof.Machine

@[simp] theorem getErr_setErr_self (m : Dg) (wa copy : Nat) (e : BitVec 144) : getErr (setErr m wa copy e) wa copy = e :=
  SMap.get_set_self _ _ _

theorem getErr_setErr (m : Dg) (wa copy : Nat) (e : BitVec 144) (a k : Nat) :
    getErr (setErr m wa copy e) a k = if errKey a k = errKey wa copy then e else getErr m a k := SMap.get_set _ _ _ _

theorem leBytes_length (n v : Nat) : (leBytes n v).length = n := by
  induction n generalizing v with
  | zero => rfl
  | succ n ih => simp [leBytes]

theorem pokes_eq (l : List Byte) (m : Dg) (a : Nat) : ∃ x, pokes m a l = { m with mem := x } := by
  induction l generalizing m a with
  | nil => exact ⟨m.mem, rfl⟩
  | cons b r ih =>
    obtain ⟨x, h⟩ := ih (poke m a b) (a + 1)
    exact ⟨x, h⟩

/-! ### A line written by SEC (R342, R524) -/

/-- A word written whole changes its bytes and its error marks only. -/
theorem storeClean_eq (m : Dg) (wa n : Nat) :
    ∃ x z, storeClean m wa n = { m with mem := x, ftest := z, errs := (setErr (setErr (setErr m wa 0 0) wa 1 0) wa 2 0).errs } := by
  unfold storeClean pokeWord
  obtain ⟨x, h⟩ := pokes_eq (leBytes 16 n) (setErr (setErr (setErr m wa 0 0) wa 1 0) wa 2 0) (wordOf wa)
  rw [h]
  exact ⟨x, _, rfl⟩

theorem storeClean_getErr (m : Dg) (wa n a : Nat) : getErr (storeClean m wa n) a 0 = if a / 16 = wa / 16 then 0 else getErr m a 0 := by
  obtain ⟨x, z, e⟩ := storeClean_eq m wa n
  have h : getErr (storeClean m wa n) a 0 = getErr (setErr (setErr (setErr m wa 0 0) wa 1 0) wa 2 0) a 0 := by rw [e]; rfl
  have h1 : ¬ errKey a 0 = errKey wa 2 := by unfold errKey; omega
  have h2 : ¬ errKey a 0 = errKey wa 1 := by unfold errKey; omega
  rw [h, getErr_setErr, getErr_setErr, getErr_setErr, if_neg h1, if_neg h2]
  have h3 : (errKey a 0 = errKey wa 0) = (a / 16 = wa / 16) := by unfold errKey; exact propext (by omega)
  simp only [h3]

theorem peek_storeClean_other (m : Dg) (wa n x : Nat) (h : x / 16 ≠ wa / 16) : peek (storeClean m wa n) x = peek m x := by
  have e : peek (setErr (setErr (setErr m wa 0 0) wa 1 0) wa 2 0) x = peek m x := rfl
  rw [← e]
  unfold storeClean pokeWord wordOf
  by_cases hx : x < wa / 16 * 16
  · exact peek_pokes_below _ _ _ _ hx
  · exact peek_pokes_above _ _ _ _ (by rw [leBytes_length]; omega)

/-- What every word of a line keeps, the line keeps. -/
theorem storeLine_ind {P : Dg → Prop} (m : Dg) (a : Nat) (bs : List Byte) (h0 : P m)
    (hs : ∀ d j n, j < 8 → P d → P (storeClean d (a + 16 * j) n)) : P (storeLine m a bs) := by
  unfold storeLine
  have hl : ∀ j, j ∈ List.range 8 → j < 8 := fun j hj => List.mem_range.mp hj
  generalize List.range 8 = l at hl
  induction l generalizing m with
  | nil => exact h0
  | cons j r ih =>
    rw [List.foldl_cons]
    exact ih _ (hs m j _ (hl j List.mem_cons_self) h0) fun k hk => hl k (List.mem_cons_of_mem _ hk)

/-- A line changes its bytes and its error marks only. -/
theorem storeLine_eq (m : Dg) (a : Nat) (bs : List Byte) :
    ∃ x y z, storeLine m a bs = { m with mem := x, errs := y, ftest := z } := by
  refine storeLine_ind (P := fun d => ∃ x y z, d = { m with mem := x, errs := y, ftest := z }) m a bs ⟨_, _, _, rfl⟩ ?_
  rintro d j n - ⟨x, y, z, rfl⟩
  obtain ⟨x', z', h⟩ := storeClean_eq { m with mem := x, errs := y, ftest := z } (a + 16 * j) n
  exact ⟨x', _, z', h⟩

theorem peek_storeLine_other (m : Dg) (a : Nat) (bs : List Byte) (x : Nat) (ha : a % 16 = 0) (h : x < a ∨ a + 128 ≤ x) :
    peek (storeLine m a bs) x = peek m x :=
  storeLine_ind (P := fun d => peek d x = peek m x) m a bs rfl
    fun d j n hj hd => (peek_storeClean_other d _ n x (by omega)).trans hd

theorem storeLine_wf (m : Dg) (a : Nat) (bs : List Byte) (h : Memory.wf m.mem = true) : Memory.wf (storeLine m a bs).mem = true :=
  storeLine_ind (P := fun d => Memory.wf d.mem = true) m a bs h fun d _ n _ hd => storeClean_wf d _ n hd

theorem storeRecord_wf (m : Dg) (a : Nat) (bs : List Byte) (h : Memory.wf m.mem = true) :
    Memory.wf (storeRecord m a bs).mem = true := by
  unfold storeRecord
  generalize (pieces 128 bs).zipIdx = l
  induction l generalizing m with
  | nil => exact h
  | cons e r ih =>
    rw [List.foldl_cons]
    exact ih _ (storeLine_wf m _ _ h)

/-- A line carries no error mark behind its write, and no mark of another word is made. -/
theorem storeLine_getErr (m : Dg) (a : Nat) (bs : List Byte) (ha : a % 16 = 0) (x : Nat) :
    getErr (storeLine m a bs) x 0 = if a / 16 ≤ x / 16 ∧ x / 16 < a / 16 + 8 then 0 else getErr m x 0 := by
  unfold storeLine
  generalize 8 = n
  induction n with
  | zero => rw [List.range_zero, List.foldl_nil, if_neg (by omega)]
  | succ n ih =>
    rw [List.range_succ, List.foldl_append, List.foldl_cons, List.foldl_nil, storeClean_getErr, ih]
    have e : (a + 16 * n) / 16 = a / 16 + n := by omega
    rw [e]
    by_cases h : x / 16 = a / 16 + n
    · rw [if_pos h, if_pos (by omega)]
    · rw [if_neg h]
      by_cases h' : a / 16 ≤ x / 16 ∧ x / 16 < a / 16 + n
      · rw [if_pos h', if_pos (by omega)]
      · rw [if_neg h', if_neg (by omega)]

/-! ### Counters (R524, R525) -/

theorem copyAddr_aligned (i k : Nat) : copyAddr i k % 128 = 0 := by unfold copyAddr keyRecBase; omega

/-- A copy's write changes the copy, its line and the error marks of this. -/
theorem copyPut_eq (m : Dg) (i v k : Nat) : ∃ x y z, copyPut m i v k =
    { m with mem := x, errs := y, ftest := z,
             sec := { m.sec with ctr := SMap.set m.sec.ctr (3 * i + k) ⟨v % 2 ^ 64, false⟩ } } := by
  unfold copyPut
  obtain ⟨x, y, z, h⟩ := storeLine_eq m (copyAddr i k) (copyBytes i (v % 2 ^ 64))
  rw [h]
  exact ⟨x, y, z, rfl⟩

/-- The copies of counter `i` with value `v` in all three. -/
def ctrAll (t : SMap CtrCopy) (i v : Nat) : SMap CtrCopy :=
  SMap.set (SMap.set (SMap.set t (3 * i + 0) ⟨v, false⟩) (3 * i + 1) ⟨v, false⟩) (3 * i + 2) ⟨v, false⟩

/-- Writing a counter changes its copies, their lines and the error marks of these, and nothing else. -/
theorem ctrPut_eq (m : Dg) (i v : Nat) : ∃ x y z, ctrPut m i v =
    { m with mem := x, errs := y, ftest := z, sec := { m.sec with ctr := ctrAll m.sec.ctr i (v % 2 ^ 64) } } := by
  unfold ctrPut
  rw [List.foldl_cons, List.foldl_cons, List.foldl_cons, List.foldl_nil]
  obtain ⟨x0, y0, z0, h0⟩ := copyPut_eq m i v 0
  generalize copyPut m i v 0 = m1 at h0 ⊢
  obtain ⟨x1, y1, z1, h1⟩ := copyPut_eq m1 i v 1
  generalize copyPut m1 i v 1 = m2 at h1 ⊢
  obtain ⟨x2, y2, z2, h2⟩ := copyPut_eq m2 i v 2
  generalize copyPut m2 i v 2 = m3 at h2 ⊢
  subst h0 h1 h2
  exact ⟨x2, y2, z2, rfl⟩

theorem ctrPut_wf (m : Dg) (i v : Nat) (h : Memory.wf m.mem = true) : Memory.wf (ctrPut m i v).mem = true := by
  have one (d : Dg) (k : Nat) (hd : Memory.wf d.mem = true) : Memory.wf (copyPut d i v k).mem = true := by
    unfold copyPut
    rw [updSec_mem]
    exact storeLine_wf _ _ _ hd
  unfold ctrPut
  rw [List.foldl_cons, List.foldl_cons, List.foldl_cons, List.foldl_nil]
  exact one _ 2 (one _ 1 (one _ 0 h))

/-- A counter's write leaves every byte outside its three lines. -/
theorem peek_ctrPut_other (m : Dg) (i v x : Nat) (h : ∀ k, k < 3 → x < copyAddr i k ∨ copyAddr i k + 128 ≤ x) :
    peek (ctrPut m i v) x = peek m x := by
  have one (d : Dg) (k : Nat) (hk : k < 3) : peek (copyPut d i v k) x = peek d x := by
    have e := peek_storeLine_other d (copyAddr i k) (copyBytes i (v % 2 ^ 64)) x (by have := copyAddr_aligned i k; omega) (h k hk)
    unfold copyPut
    rw [← e]
    unfold peek
    rw [updSec_mem]
  unfold ctrPut
  rw [List.foldl_cons, List.foldl_cons, List.foldl_cons, List.foldl_nil]
  rw [one _ 2 (by decide), one _ 1 (by decide), one _ 0 (by decide)]

@[simp] theorem ctrPut_part (m : Dg) (i v : Nat) : (ctrPut m i v).part = m.part := by
  obtain ⟨x, y, z, h⟩ := ctrPut_eq m i v
  rw [h]
@[simp] theorem ctrPut_ctx (m : Dg) (i v : Nat) : (ctrPut m i v).ctx = m.ctx := by
  obtain ⟨x, y, z, h⟩ := ctrPut_eq m i v
  rw [h]
@[simp] theorem ctrPut_cfg (m : Dg) (i v : Nat) : (ctrPut m i v).cfg = m.cfg := by
  obtain ⟨x, y, z, h⟩ := ctrPut_eq m i v
  rw [h]
@[simp] theorem ctrPut_stu (m : Dg) (i v : Nat) : (ctrPut m i v).stu = m.stu := by
  obtain ⟨x, y, z, h⟩ := ctrPut_eq m i v
  rw [h]
@[simp] theorem ctrPut_mbx (m : Dg) (i v : Nat) : (ctrPut m i v).mbx = m.mbx := by
  obtain ⟨x, y, z, h⟩ := ctrPut_eq m i v
  rw [h]
@[simp] theorem ctrPut_easel (m : Dg) (i v : Nat) : (ctrPut m i v).easel = m.easel := by
  obtain ⟨x, y, z, h⟩ := ctrPut_eq m i v
  rw [h]
@[simp] theorem ctrPut_boot (m : Dg) (i v : Nat) : (ctrPut m i v).boot = m.boot := by
  obtain ⟨x, y, z, h⟩ := ctrPut_eq m i v
  rw [h]
@[simp] theorem ctrPut_fab (m : Dg) (i v : Nat) : (ctrPut m i v).fab = m.fab := by
  obtain ⟨x, y, z, h⟩ := ctrPut_eq m i v
  rw [h]
@[simp] theorem ctrPut_cnv (m : Dg) (i v : Nat) : (ctrPut m i v).cnv = m.cnv := by
  obtain ⟨x, y, z, h⟩ := ctrPut_eq m i v
  rw [h]
@[simp] theorem ctrPut_drc (m : Dg) (i v : Nat) : (ctrPut m i v).drc = m.drc := by
  obtain ⟨x, y, z, h⟩ := ctrPut_eq m i v
  rw [h]
@[simp] theorem ctrPut_dma (m : Dg) (i v : Nat) : (ctrPut m i v).dma = m.dma := by
  obtain ⟨x, y, z, h⟩ := ctrPut_eq m i v
  rw [h]
@[simp] theorem ctrPut_srcs (m : Dg) (i v : Nat) : (ctrPut m i v).srcs = m.srcs := by
  obtain ⟨x, y, z, h⟩ := ctrPut_eq m i v
  rw [h]
@[simp] theorem ctrPut_fcr (m : Dg) (i v : Nat) : (ctrPut m i v).fcr = m.fcr := by
  obtain ⟨x, y, z, h⟩ := ctrPut_eq m i v
  rw [h]
@[simp] theorem ctrPut_fix (m : Dg) (i v : Nat) : (ctrPut m i v).fix = m.fix := by
  obtain ⟨x, y, z, h⟩ := ctrPut_eq m i v
  rw [h]
@[simp] theorem ctrPut_net (m : Dg) (i v : Nat) : (ctrPut m i v).net = m.net := by
  obtain ⟨x, y, z, h⟩ := ctrPut_eq m i v
  rw [h]
@[simp] theorem ctrPut_pwr (m : Dg) (i v : Nat) : (ctrPut m i v).pwr = m.pwr := by
  obtain ⟨x, y, z, h⟩ := ctrPut_eq m i v
  rw [h]
@[simp] theorem ctrPut_now (m : Dg) (i v : Nat) : (ctrPut m i v).now = m.now := by
  obtain ⟨x, y, z, h⟩ := ctrPut_eq m i v
  rw [h]
@[simp] theorem ctrPut_freeCount (m : Dg) (i v : Nat) : (ctrPut m i v).freeCount = m.freeCount := by
  obtain ⟨x, y, z, h⟩ := ctrPut_eq m i v
  rw [h]

theorem copyPut_getErr (m : Dg) (i v k x : Nat) : getErr (copyPut m i v k) x 0 =
    if copyAddr i k / 16 ≤ x / 16 ∧ x / 16 < copyAddr i k / 16 + 8 then 0 else getErr m x 0 := by
  have e := storeLine_getErr m (copyAddr i k) (copyBytes i (v % 2 ^ 64)) (by have := copyAddr_aligned i k; omega) x
  unfold copyPut
  rw [← e]
  unfold getErr
  rw [updSec_errs]

/-- Behind a counter's write its three lines carry no error mark. -/
theorem ctrPut_getErr_in (m : Dg) (i v k x : Nat) (hk : k < 3)
    (h : copyAddr i k / 16 ≤ x / 16 ∧ x / 16 < copyAddr i k / 16 + 8) : getErr (ctrPut m i v) x 0 = 0 := by
  unfold ctrPut
  rw [List.foldl_cons, List.foldl_cons, List.foldl_cons, List.foldl_nil, copyPut_getErr, copyPut_getErr, copyPut_getErr]
  obtain rfl | rfl | rfl : k = 0 ∨ k = 1 ∨ k = 2 := by omega
  · simp only [if_pos h, ite_self]
  · simp only [if_pos h, ite_self]
  · rw [if_pos h]

/-- No mark of another word is made. -/
theorem ctrPut_getErr_out (m : Dg) (i v x : Nat)
    (h : ∀ k, k < 3 → ¬ (copyAddr i k / 16 ≤ x / 16 ∧ x / 16 < copyAddr i k / 16 + 8)) :
    getErr (ctrPut m i v) x 0 = getErr m x 0 := by
  unfold ctrPut
  rw [List.foldl_cons, List.foldl_cons, List.foldl_cons, List.foldl_nil, copyPut_getErr, copyPut_getErr, copyPut_getErr,
    if_neg (h 2 (by decide)), if_neg (h 1 (by decide)), if_neg (h 0 (by decide))]

/-- The words of a copy. -/
theorem mem_copyWords {i k wa : Nat} (h : wa ∈ spanWords (copyAddr i k) 56) :
    copyAddr i k / 16 ≤ wa / 16 ∧ wa / 16 < copyAddr i k / 16 + 4 := by
  have := copyAddr_aligned i k
  unfold spanWords at h
  rw [if_neg (by decide)] at h
  obtain ⟨j, hj, rfl⟩ := List.mem_map.mp h
  have := List.mem_range.mp hj
  omega

theorem recHurt_congr (m m' : Dg) (a len : Nat) (h : ∀ wa, wa ∈ spanWords a len → getErr m' wa 0 = getErr m wa 0) :
    recHurt m' a len = recHurt m a len := by
  unfold recHurt recWords
  generalize spanWords a len = l at h
  induction l with
  | nil => rfl
  | cons w r ih => rw [List.any_cons, List.any_cons, h w List.mem_cons_self, ih fun x hx => h x (List.mem_cons_of_mem _ hx)]

/-- A counter's copies behind its write hold its value, each valid. -/
theorem ctrCopy_ctrPut (m : Dg) (i v k : Nat) (hk : k < 3) : ctrCopy (ctrPut m i v) i k = ⟨v % 2 ^ 64, false⟩ := by
  have hurt : recHurt (ctrPut m i v) (copyAddr i k) 56 = false := by
    unfold recHurt recWords
    refine List.any_eq_false.mpr fun wa hw => ?_
    rw [ctrPut_getErr_in m i v k wa hk (by have := mem_copyWords hw; omega)]
    simp [eccOf]
  have held : SMap.get (ctrPut m i v).sec.ctr (3 * i + k) = ⟨v % 2 ^ 64, false⟩ := by
    obtain ⟨x, y, z, e⟩ := ctrPut_eq m i v
    rw [e]
    unfold ctrAll
    obtain rfl | rfl | rfl : k = 0 ∨ k = 1 ∨ k = 2 := by omega
    · rw [SMap.get_set_other _ _ _ (by omega), SMap.get_set_other _ _ _ (by omega), SMap.get_set_self]
    · rw [SMap.get_set_other _ _ _ (by omega), SMap.get_set_self]
    · rw [SMap.get_set_self]
  unfold ctrCopy
  rw [hurt, held]
  rfl

/-- Another counter's copies stand as before. -/
theorem ctrCopy_ctrPut_other (m : Dg) (i v j k : Nat) (h : j ≠ i) (hi : i < 6) (hj : j < 6) (hk : k < 3) :
    ctrCopy (ctrPut m i v) j k = ctrCopy m j k := by
  have hurt : recHurt (ctrPut m i v) (copyAddr j k) 56 = recHurt m (copyAddr j k) 56 := by
    refine recHurt_congr _ _ _ _ fun wa hw => ?_
    have hw := mem_copyWords hw
    refine ctrPut_getErr_out m i v wa fun k' hk' hx => ?_
    unfold copyAddr keyRecBase at hw hx
    omega
  have held : SMap.get (ctrPut m i v).sec.ctr (3 * j + k) = SMap.get m.sec.ctr (3 * j + k) := by
    obtain ⟨x, y, z, e⟩ := ctrPut_eq m i v
    rw [e]
    unfold ctrAll
    rw [SMap.get_set_other _ _ _ (by omega), SMap.get_set_other _ _ _ (by omega), SMap.get_set_other _ _ _ (by omega)]
  unfold ctrCopy
  rw [hurt, held]

theorem ctrAgree_ctrPut (m : Dg) (i v : Nat) : ctrAgree (ctrPut m i v) i (v % 2 ^ 64) = 3 := by
  unfold ctrAgree
  rw [List.filter_eq_self.mpr]
  · rfl
  · intro k hk
    simp only [List.mem_cons, List.not_mem_nil, or_false] at hk
    rw [ctrCopy_ctrPut m i v k (by omega)]
    exact beq_self_eq_true _

/-- Three copies that agree are read without an effect. -/
theorem ctrRead_of_agree (m : Dg) (i v : Nat) (h : ctrAgree m i v = 3) : ctrRead m i = (m, v) := by
  have all (k : Nat) (hk : k ∈ [0, 1, 2]) : ctrCopy m i k = ⟨v, false⟩ := by
    have hl : ([0, 1, 2].filter fun k => ctrCopy m i k == ⟨v, false⟩) = [0, 1, 2] :=
      List.filter_sublist.eq_of_length (by simpa [ctrAgree] using h)
    exact beq_iff_eq.mp (List.filter_eq_self.mp hl k hk)
  have h0 : (ctrCopy m i 0).value = v := congrArg CtrCopy.value (all 0 (by decide))
  unfold ctrRead
  rw [List.find?_cons_of_pos (by simp [h0, h])]
  simp [h0, h]

/-- The value a counter was written with is the one read. -/
theorem ctrRead_ctrPut (m : Dg) (i v : Nat) : ctrRead (ctrPut m i v) i = (ctrPut m i v, v % 2 ^ 64) :=
  ctrRead_of_agree _ _ _ (ctrAgree_ctrPut m i v)

end Sys2Proof.Machine
end

