-- ==== Sys2Proof/Tests/Slice0.lean ====
section
/-! SUPPORT. The model's own tests: an ill-formed command for each check of WellFormed, concrete states that meet the
hypotheses of each statement, and single steps whose results are worked out from the spec by hand. -/
namespace Sys2Proof.Tests
open Sys2Proof Sys2Proof.Machine

/-! ### States -/

/-- The module after reset, changed. -/
def with_ (f : Dg → Dg) : State := { dg := f Dg.reset, pending := [] }

/-- Labazor-S with registers changed; its pc is in the Gesso ROM. -/
def supRegs (f : Regs → Regs) : State := with_ fun m => updCtx m 56 fun x => { x with r := f x.r }

/-- Partition 1 runs on group slot 0, with the first Canvas bank as its window; its pc is at the start of that bank. -/
def appDg (f : Ctx → Ctx) : Dg :=
  { Dg.reset with
    ctx := SMap.set Dg.reset.ctx 0 (f { Ctx.reset with
      pid := 1, windows := [⟨canvasBase, 0x80000, true, true, true, false, 1⟩],
      r := { Regs.reset with mode := .supervisor, pc := 0x20000000 } })
    stu := { (default : Stu) with
      grp := [(0, { (default : Group) with state := .full, under := .full, pid := 1, laneA := some 0, laneB := some 1,
                                           laneC := some 2 })],
      part := [(1, { (default : Partn) with state := .running })] }
    cnv := { (default : Cnv) with bank := [(0, { (default : Bank) with power := .on })] } }
/-- The refusal code, if any. -/
def errorOf {α : Type} : Except Nat α → Option Nat
  | .error e => some e
  | .ok _ => none

def app (f : Ctx → Ctx) : State := { dg := appDg f, pending := [] }
def appRegs (f : Regs → Regs) : State := app fun x => { x with r := f x.r }

/-- The second Canvas bank wakes; the partition's window covers it too. -/
def wakingDg (m : Dg) : Dg :=
  let m := { m with cnv := { m.cnv with bank := [(0, { (default : Bank) with power := .on }), (1, { (default : Bank) with power := .waking })] } }
  updCtx m 0 fun x => { x with windows := ⟨canvasBase, 0x100000, true, true, true, false, 1⟩ :: x.windows.drop 1 }
def waking (s : State) : State := { s with dg := wakingDg s.dg }
/-- One store of slot 0 waits in its buffer for the bank that wakes. -/
def heldStore (s : State) : State :=
  { s with dg := updCtx (wakingDg s.dg) 0 fun x => { x with sb := [⟨0x20080000, 0xFFFF, 0⟩] } }

/-! ### Instructions: hypotheses that are met -/

theorem ready_sup : ready State.reset.dg 56 4 = true ∧ ready State.reset.dg 56 8 = true := by decide
theorem ready_app : ready (app id).dg 0 4 = true ∧ ready (app id).dg 0 8 = true := by decide

theorem witness_ElementwiseResults :
    ready State.reset.dg 56 4 = true ∧ ready (app id).dg 0 4 = true ∧
    (intWidth 0 = some 8 ∧ intWidth 1 = some 16 ∧ intWidth 2 = some 32 ∧ intWidth 3 = some 64 ∧ intWidth 4 = some 128) ∧
    (Rrr.mk 31 31 0 4 5).fn = 5 ∧ (Rrr.mk 31 31 0 4 5).s2 = 0 ∧ (Rrrr.mk 31 31 31 0 4 0).rsv = 0 := by decide

theorem witness_ImmediateAndMoveResults :
    ready State.reset.dg 56 4 = true ∧ ready State.reset.dg 56 8 = true ∧ intWidth 3 = some 64 ∧
    (Rri.mk 0 0 3 0xBFF).imm.toNat / 512 = 5 ∧ (Rri.mk 0 0 3 127).imm.toNat < 128 ∧ (Rri.mk 0 0 3 255).imm.toNat < 256 ∧
    ((Rrr.mk 15 15 16 0 5).d.toNat < 16 ∧ (Rrr.mk 15 15 16 0 5).s2.toNat < 17) ∧
    (Rrr.mk 3 31 2 0 6).d.toNat < 4 ∧ (Long.mk 0xFC00 0).x.toNat % 1024 = 0 ∧ (Long.mk 0x7C00 0).x.toNat / 2048 < 16 := by
  decide

theorem witness_AccumulatorAndDivisionResults :
    ready State.reset.dg 56 4 = true ∧ intWidth 3 = some 64 ∧ (Rrr.mk 3 0 0 3 3).d.toNat < 4 ∧ (Rrr.mk 3 0 0 3 3).fn.toNat < 4 ∧
    (Rrr.mk 0 1 0 3 7).s2 = 0 ∧ (Rrr.mk 0 1 2 3 5).fn.toNat / 2 % 2 = 0 ∧ (Rrr.mk 0 1 2 3 5).fn.toNat / 4 ≠ (Rrr.mk 0 1 2 3 5).d.toNat := by
  decide

theorem witness_DivisionStepsGiveQuotient : 0 < 64 ∧ 2 ^ 64 - 1 < 2 ^ 64 ∧ 0 < (1 : Nat) ∧ 1 < 2 ^ 64 := by decide

theorem witness_DecimalResults :
    ready State.reset.dg 56 4 = true ∧ (Rrr.mk 1 0 0 4 3).w = 4 ∧ (Rrr.mk 1 0 0 4 3).fn.toNat / 4 ≠ (Rrr.mk 1 0 0 4 3).d.toNat ∧
    decVal 0x12C = some 12 ∧ decVal 0x12D = some (-12) ∧ decVal 0x12 = none ∧
    decVal 0x9999999999999999999999999999999C = some (10 ^ 31 - 1) := by decide

/-- Round to nearest even in single precision. -/
def rne : Rrr := ⟨0, 1, 0, 2, 0⟩

theorem witness_FloatingPointResults :
    ready (app id).dg 0 4 = true ∧ (0 : CtxId) ≠ supCtx ∧ fpWidth rne.w = some 32 ∧
    roundOf (regsOf (app id).dg 0) rne.fn.toNat = some 1 ∧ rne.fn.toNat < 8 ∧ rne.s2 = 0 ∧
    (regsOf (app id).dg 0).fpcr.toNat / 16 % 32 = 0 ∧ intWidth 2 = some 32 ∧ (41 : BitVec 7).toNat / 8 = 5 := by decide

theorem witness_FloatingPointSpecialOperands :
    (Fp.nan true).isNan = true ∧ (Fp.decode (fmtOf 32) 0x7FC00000).isNan = true ∧ (1 : Nat) ≠ 0 := by decide

/-- The invalid-operation trap is enabled, and D1 holds a signalling NaN in element 0. -/
def trapState : State := appRegs fun r => { r.setD 1 0x7F800001 with fpcr := 0x11 }

theorem witness_FloatingPointTraps :
    quiet trapState.dg 0 4 = true ∧ roundOf (regsOf trapState.dg 0) rne.fn.toNat = some 1 ∧ (0 : Nat) < 128 / 32 ∧
    (fpAdd (fmtOf 32) 1 (ufe (regsOf trapState.dg 0)) (Fp.decode (fmtOf 32) (elem 32 ((regsOf trapState.dg 0).getD 1) 0))
      (Fp.decode (fmtOf 32) (elem 32 ((regsOf trapState.dg 0).getD 0) 0))).2 &&&
      ((regsOf trapState.dg 0).fpcr.toNat / 16 % 32) ≠ 0 := by decide


/-- A1 holds an address; the window of the PCIe root port is open to the partition. -/
def memAt (a : Word) : State :=
  app fun x => { x with
    r := { x.r with a := [(1, a)] },
    windows := x.windows ++ [⟨pcieBase, 0x1000, true, true, false, false, 1⟩] }
/-- A load or store of D2 at A1, displacement 0. -/
def atA1 : Mem := ⟨2, 1, 0, 0⟩

theorem witness_LoadResults :
    ready (memAt 0x20000100).dg 0 4 = true ∧ atA1.d.toNat = 2 ∧
    eaMem (regsOf (memAt 0x20000100).dg 0) atA1 = .ok 0x20000100 none ∧
    (let m := fetched (memAt 0x20000100).dg 0 4
     let r := loadMem m 0 0x20000100 16
     regsMisfit m 0 0x20000100 16 = false ∧ regionOf m (isSup 0) 0x20000100 = .canvas ∧ r.2.toOption = some 0 ∧
     watchHit r.1 0 0x20000100 16 1 = false ∧ calm r.1 0 = true) ∧
    (let m := fetched (memAt 0x40000000).dg 0 4
     ready (memAt 0x40000000).dg 0 4 = true ∧ regionOf m (isSup 0) 0x40000000 = .regs ∧ regDark m 0x40000000 = false ∧
     regRead m 0 0x40000000 = some 0x40A04 ∧ watchHit m 0 0x40000000 8 1 = false) ∧
    (let s := waking (memAt 0x20080000)
     ready s.dg 0 4 = true ∧ regsMisfit (fetched s.dg 0 4) 0 0x20080000 16 = false ∧ waits (fetched s.dg 0 4) 0x20080000 16 = true) ∧
    (let m := fetched (memAt 0x10000000000).dg 0 4
     ready (memAt 0x10000000000).dg 0 4 = true ∧ regsMisfit m 0 0x10000000000 8 = false ∧
     waits m 0x10000000000 8 = false ∧
     regionOf m (isSup 0) 0x10000000000 = .pcie ∧ checkAccess m 0 0 0x10000000000 8 = (m, none)) := by decide

theorem witness_LoadResults_long :
    let s := memAt 0x20000100
    ready s.dg 0 8 = true ∧ (Long.mk 0x1080 0).x.toNat / 2048 = 2 ∧ (Long.mk 0x1080 0).x.toNat % 8 ≤ 4 ∧
    eaIndexed (regsOf s.dg 0) ⟨0x1080, 0⟩ = .ok 0x20000100 none ∧ (Long.mk 0x1000 0x100).x.toNat % 2048 = 0 ∧
    eaPc (regsOf s.dg 0) ⟨0x1000, 0x100⟩ = .ok 0x20000100 none := by decide

theorem witness_StoreAndLeaResults :
    ready (memAt 0x20000100).dg 0 4 = true ∧ eaMem (regsOf (memAt 0x20000100).dg 0) ⟨2, 1, 2, 16⟩ = .ok 0x20000110 (some (1, 0x20000110)) ∧
    (let m := fetched (memAt 0x20000100).dg 0 4
     let r := storeMem m 0 0x20000100 16 1
     regsMisfit m 0 0x20000100 16 = false ∧ regionOf m (isSup 0) 0x20000100 = .canvas ∧ r.2 = none ∧
     waits m 0x20000100 16 = false ∧ drainWaits m 0 = false ∧ calm r.1 0 = true ∧ watchHit r.1 0 0x20000100 16 2 = false) ∧
    (let s := waking (memAt 0x20080000)
     ready s.dg 0 4 = true ∧ regsMisfit (fetched s.dg 0 4) 0 0x20080000 16 = false ∧ waits (fetched s.dg 0 4) 0x20080000 16 = true) ∧
    (let s := heldStore (memAt 0x46000100)
     let m := fetched s.dg 0 4
     ready s.dg 0 4 = true ∧ drainWaits m 0 = true ∧ regionOf m (isSup 0) 0x46000100 = .regs ∧
     regsMisfit m 0 0x46000100 8 = false) ∧
    (let m := fetched (memAt 0x46000100).dg 0 4
     let r := regStore (drainAll m 0) 0 0x46000100 8 1
     ready (memAt 0x46000100).dg 0 4 = true ∧ regionOf m (isSup 0) 0x46000100 = .regs ∧ r.2 = none ∧ calm r.1 0 = true ∧
     waits m 0x46000100 8 = false ∧ drainWaits m 0 = false ∧
     watchHit r.1 0 0x46000100 8 2 = false) ∧
    (let m := fetched (memAt 0x10000000000).dg 0 4
     ready (memAt 0x10000000000).dg 0 4 = true ∧ regsMisfit m 0 0x10000000000 8 = false ∧
     waits m 0x10000000000 8 = false ∧
     regionOf m (isSup 0) 0x10000000000 = .pcie ∧ checkAccess m 0 1 0x10000000000 8 = (m, none)) := by decide

theorem witness_EffectiveAddressRange :
    quiet (memAt 0xFFFFFFFFFFFF).dg 0 4 = true ∧ (Mem.mk 2 1 0 1).m ≠ 3 ∧ (Mem.mk 2 1 0 1).d.toNat < 16 ∧
    2 ^ 48 ≤ ((regsOf (memAt 0xFFFFFFFFFFFF).dg 0).getA 1 + (Mem.mk 2 1 0 1).disp.signExtend 64).toNat ∧
    (Mem.mk 2 1 3 0x3FFF).m = 3 := by decide

/-- Bit 7 of the last byte of the first bank, in STR mode. -/
def bitState : State := app fun x => { x with r := { x.r with mode := .str, a := [(1, 0x1003FFFFF)] } }

theorem witness_BitVariables :
    quiet (app id).dg 0 4 = true ∧ (regsOf (app id).dg 0).mode ≠ .str ∧
    ready bitState.dg 0 4 = true ∧ (regsOf bitState.dg 0).mode = .str ∧ (regsOf bitState.dg 0).getA 1 = 0x1003FFFFF ∧
    regionOf (fetched bitState.dg 0 4) (isSup 0) (0x1003FFFFF / 8) = .canvas ∧
    (let m := fetched bitState.dg 0 4
     let a := 0x1003FFFFF / 8
     (loadMem m 0 a 1).2.toOption = some 0 ∧ calm (loadMem m 0 a 1).1 0 = true ∧ watchHit (loadMem m 0 a 1).1 0 a 1 1 = false ∧
     waits m a 1 = false ∧ drainWaits m 0 = false ∧ checkSpan m 0 1 [(a, 1)] = (m, none) ∧
     (readWord (writeBack (drainAll m 0) 0 (a / 16)) (viaCtx 0) a).2 = some 0) ∧
    (let s := heldStore bitState
     ready s.dg 0 4 = true ∧ (regsOf s.dg 0).mode = .str ∧ drainWaits (fetched s.dg 0 4) 0 = true ∧
     waits (fetched s.dg 0 4) (0x1003FFFFF / 8) 1 = false) := by decide

theorem witness_BitVariables_registers :
    let s := app fun x => { x with r := { x.r with mode := .str, a := [(1, 8 * 0x46000100)] } }
    let m := fetched s.dg 0 4
    ready s.dg 0 4 = true ∧ (regsOf s.dg 0).mode = .str ∧ (regsOf s.dg 0).getA 1 = 8 * 0x46000100 ∧
    regionOf m (isSup 0) 0x46000100 = .regs ∧ (regRead m 0 0x46000100).isSome = true ∧ regDark m 0x46000100 = false ∧
    drainWaits m 0 = false ∧ watchHit m 0 0x46000100 1 1 = false ∧
    (let r := regStore (drainAll m 0) 0 0x46000100 8 1
     r.2 = none ∧ calm r.1 0 = true ∧ watchHit r.1 0 0x46000100 1 2 = false ∧ bitInert 0x46000100 0 = false) := by decide

/-- A15 at the top of the bank, A14 and A1 aligned. -/
def callState : State := appRegs fun r => { r with a15s := 0x20080000, a := [(1, 0x20000100), (14, 0x20000200)] }
/-- The frame that RET expects lies at A15: word 0 with A14's value and mask 0x8001. -/
def retState : State :=
  let m := updCtx callState.dg 0 fun x => { x with r := { x.r with a15s := 0x2007FFD0 } }
  { callState with dg := pokes m 0x2007FFD0 (leBytes 16 (0x20000300 + 0x8001 * 2 ^ 64)) }

theorem witness_BranchesCallsReturns :
    ready (app id).dg 0 4 = true ∧ ready (app id).dg 0 8 = true ∧ (regsOf (app id).dg 0).getD 5 = 0 ∧
    (regsOf (appRegs fun r => r.setD 5 1).dg 0).getD 5 ≠ 0 ∧
    (let m := fetched callState.dg 0 4
     let r := storeQuads m 0 0x2007FFD0 [0x20000200 + 0x8001 * 2 ^ 64, 0, 0]
     ready callState.dg 0 8 = true ∧ ((regsOf callState.dg 0).getA 15).toNat = 0x20080000 ∧
     regionOf m (isSup 0) 0x2007FFD0 = .canvas ∧ drainWaits m 0 = false ∧ r.2 = none ∧ calm r.1 0 = true) ∧
    (let m := fetched (heldStore callState).dg 0 4
     drainWaits m 0 = true ∧ regionOf m (isSup 0) 0x2007FFD0 ≠ .pcie ∧ (getCtx m 0).sb.length < 20 ∧
     (storeQuads m 0 0x2007FFD0 [0x20000200 + 0x8001 * 2 ^ 64, 0, 0]).2 = none) := by decide

theorem witness_return :
    let m := fetched retState.dg 0 4
    ready retState.dg 0 4 = true ∧ regionOf m (isSup 0) 0x2007FFD8 ≠ .regs ∧
    waits m 0x2007FFD8 8 = false ∧ waits m (0x2007FFD0 + 48 - 16) 16 = false ∧
    (loadPart m 0 0x2007FFD8 8).2.toOption = some 0x8001 ∧ (loadPart m 0 0x2007FFE0 16).2.toOption = some 0 ∧
    (loadPart m 0 0x2007FFF0 16).2.toOption = some 0 ∧ (loadPart m 0 0x2007FFD0 8).2.toOption = some 0x20000300 ∧
    (loadPart m 0 0x2007FFD8 8).1 = m ∧ ((regsOf retState.dg 0).getA 14).toNat % 4 = 0 := by decide

/-- One loop is open, over the 16 words behind the pc. -/
def loopState : State :=
  appRegs fun r => { r with ldepth := 1, ls := [(0, 0x20000000)], le := [(0, 0x20000040)], lc := [(0, 2)] }

theorem witness_LoopsAndRepeats :
    quiet (app id).dg 0 4 = true ∧ quiet (app id).dg 0 8 = true ∧ (regsOf (app id).dg 0).ldepth = 0 ∧
    quiet loopState.dg 0 4 = true ∧ (regsOf loopState.dg 0).ldepth = 1 ∧
    quiet (appRegs fun r => { r with ldepth := 4 }).dg 0 4 = true ∧
    (LoopI.mk 4095 2047 0).len ≠ 0 ∧ repRefused 0x02000000 = none ∧ (Long.mk 0xF800 0xFFFFFF).x.toNat % 2048 = 0 ∧
    (Long.mk 0xF800 0xFFFFFF).imm.toNat < 2 ^ 24 := by decide

theorem witness_LoopAndRepeatIterations :
    (let r := regsOf loopState.dg 0
     0 < r.ldepth ∧ r.ldepth ≤ 4 ∧ SMap.get r.ls 0 ≤ (0x2000003C : Addr) ∧ (0x2000003C : Addr) < SMap.get r.le 0 ∧
     SMap.get r.lc 0 - 1 ≠ 0) ∧
    (let s := appRegs fun r => { r with rep := some 0x1FFFFFFC, repcnt := 1 }
     runnable s.dg 0 = true ∧ irqDue (getCtx s.dg 0) = false ∧ breakHit s.dg 0 0x20000000 = false ∧ awake s.dg 0 4 = true ∧
     (fetches s.dg 0 4).2 = true ∧ calm s.dg 0 = true) := by
  decide

/-- The supervisor stack at the top of the bank, vectors at its middle. -/
def stackState : State :=
  let m := appDg (fun x => { x with r := { x.r with a15s := 0x20080000, evbase := 0x20040000 } })
  { dg := pokes m 0x20040008 (leBytes 8 0x20000400), pending := [] }

theorem witness_ExceptionEntries :
    (storeFrame stackState.dg 0 0x2007FF50 [1, 2]).2 = true ∧
    quiet (appRegs fun r => { r with a15s := 168 }).dg 0 4 = true ∧ isShadowCtx (app id).dg 0 = false ∧
    underLive (app id).dg = false := by decide

/-- An Easel session is attached to group slot 0. -/
def attachedState : State := { dg := { appDg id with easel := { Dg.reset.easel with attach := [⟨1, 0, 1⟩] } }, pending := [] }

theorem witness_SystemInstructionsComplete :
    quiet stackState.dg 0 4 = true ∧ quiet stackState.dg 0 8 = true ∧ easelAttached stackState.dg 0 = false ∧
    ready attachedState.dg 0 4 = true ∧ easelAttached attachedState.dg 0 = true ∧
    (let m := { Dg.reset with easel := { Dg.reset.easel with attach := [⟨3, 0, 1⟩] } }
     ready m 56 4 = true ∧ easelAttached m 56 = true) ∧
    errorOf (decodeInstr 0 0xF6000000 0 0) = some 1 ∧ errorOf (decodeInstr 0 0xFE300000 0 0) = some 1 ∧
    (decodeInstr 0 0xBC000002 0 0).toOption = some (.fence 0 ⟨0, 0⟩) := by decide

theorem witness_SystemEntries :
    let m := fetched stackState.dg 0 4
    let r := regsOf stackState.dg 0
    quiet stackState.dg 0 4 = true ∧ (frameAndHandler m 0 r 1 r.pc (statusWord r)).map (·.2) = some 0x20000400 ∧
    (frameAndHandler m 0 r 11 (r.pc + 4) (statusWord r)).map (·.2) = some 0 ∧
    frameAndHandler (fetched (appRegs fun r => { r with a15s := 8 }).dg 0 4) 0 { r with a15s := 8 } 11 (r.pc + 4) (statusWord r) = none := by
  decide

/-- As above, in deterministic mode. -/
def detState : State := { stackState with dg := updCtx stackState.dg 0 fun x => { x with r := { x.r with det := true } } }

theorem witness_SystemEntries_Canvas :
    let m := fetched detState.dg 0 4
    let x := getCtx m 0
    quiet detState.dg 0 4 = true ∧ (regsOf detState.dg 0).det = true ∧ (regsOf detState.dg 0).a15s = 0x20080000 ∧
    x.windows = [⟨canvasBase, 0x80000, true, true, true, false, 1⟩] ∧ x.sb = [] ∧
    ((List.range 11).all fun i => !bankDark m (0x2007FF50 + 16 * i) && (ringAt m (0x2007FF50 + 16 * i) 16).isNone) = true ∧
    bankDark m 0x20040058 = false ∧ ringAt m 0x20040058 8 = none ∧ getErr m 0x20040050 0 = 0 ∧
    ofLe (peeks m 0x20040058 8) = 0 := by decide

theorem witness_ExceptionReturn :
    let s := appRegs fun r => { r with a15s := 0x20000100 }
    let m := fetched s.dg 0 4
    quiet s.dg 0 4 = true ∧ regionOf m (isSup 0) 0x20000100 = .canvas ∧ (loadStatus m 0 0x20000100).1 = m ∧
    waits m 0x20000100 16 = false ∧ waits m (0x20000100 + 160) 16 = false ∧
    (loadStatus m 0 0x20000100).2.toOption = some 0 ∧ (loadFrame m 0 0x20000100 10).1 = m ∧
    (loadFrame m 0 0x20000100 10).2.toOption = some (List.replicate 10 0) ∧ (regsOf s.dg 0).mode = .supervisor ∧
    (let s := waking (appRegs fun r => { r with a15s := 0x20080000 })
     quiet s.dg 0 4 = true ∧ waits (fetched s.dg 0 4) 0x20080000 16 = true) ∧
    (let s := appRegs fun r => { r with a15s := 0x30000000 }
     let e := loadStatus (fetched s.dg 0 4) 0 0x30000000
     quiet s.dg 0 4 = true ∧ waits (fetched s.dg 0 4) 0x30000000 16 = false ∧ waits (fetched s.dg 0 4) 0x300000A0 16 = false ∧
     (match e.2 with | .error e => e.vec | .ok _ => 99) < 32) := by decide

theorem witness_ControlRegisters :
    ready (app id).dg 0 4 = true ∧ csrExists (isSup 0) 0xF07 = true ∧ csrPrivileged (regsOf (app id).dg 0) 0xF07 false = false ∧
    csrExists (isSup 0) 0xFFF = false ∧ (regsOf (app id).dg 0).mode ≠ .user ∧
    ready (appRegs fun r => { r with mode := .user }).dg 0 4 = true := by decide

/-- One store waits in the buffer of slot 0. -/
def bufferedState : State := app fun x => { x with sb := [⟨0x20000100, 0x00FF, 0x0123456789ABCDEF⟩] }

theorem witness_FencesAndStoreBuffer :
    ready bufferedState.dg 0 4 = true ∧ (regsOf (app id).dg 0).mode ≠ .user ∧ ready (app id).dg 0 4 = true ∧
    ready (appRegs fun r => { r with mode := .user }).dg 0 4 = true ∧ (Sys.mk 0x3000 0).arg.toNat % 2 ^ 12 = 0 ∧
    SMap.wf (getCtx (app id).dg 0).btb = true ∧ drainWaits (fetched bufferedState.dg 0 4) 0 = false ∧
    SMap.wf (getCtx (drainAll bufferedState.dg 0) 0).dirty = true ∧
    (let s := heldStore (app id)
     ready s.dg 0 4 = true ∧ drainWaits (fetched s.dg 0 4) 0 = true) := by decide

theorem witness_StoreBufferDrains :
    let m := bufferedState.dg
    (getCtx m 0).sb = [⟨0x20000100, 0x00FF, 0x0123456789ABCDEF⟩] ∧ regionOf m true 0x20000100 = .canvas ∧
    bankDark m 0x20000100 = false ∧ (∀ k, k < 4 → getErr m 0x20000100 k = 0) ∧ ringAt m 0x20000100 16 = none ∧
    waits m 0x20000100 16 = false ∧ cached m 0 0x20000100 16 = false ∧
    (getCtx (app id).dg 0).sb = [] ∧ (0 : CtxId) ≠ supCtx ∧
    (let m := (heldStore (app id)).dg
     (getCtx m 0).sb = [⟨0x20080000, 0xFFFF, 0⟩] ∧ waits m 0x20080000 16 = true) := by decide

/-- The same store to a word that the L1 of the context holds. -/
theorem witness_StoreBufferDrains_cached :
    let m := updCtx bufferedState.dg 0 fun x =>
      { x with windows := [⟨canvasBase, 0x80000, true, true, true, true, 1⟩], dcache := [(0x20000100 / 16, some 5)] }
    (getCtx m 0).sb = [⟨0x20000100, 0x00FF, 0x0123456789ABCDEF⟩] ∧ waits m 0x20000100 16 = false ∧
    regionOf m true 0x20000100 = .canvas ∧ bankDark m 0x20000100 = false ∧ (∀ k, k < 4 → getErr m 0x20000100 k = 0) ∧
    ringAt m 0x20000100 16 = none ∧ cached m 0 0x20000100 16 = true ∧ SMap.get (getCtx m 0).dcache (0x20000100 / 16) = some 5 := by
  decide

theorem witness_StoreBufferDrains_sup :
    let m := updCtx (appDg id) 56 fun x => { x with sb := [⟨0x20000100, 0x00FF, 1⟩] }
    (getCtx m 56).sb = [⟨0x20000100, 0x00FF, 1⟩] ∧ waits m 0x20000100 16 = false ∧ regionOf m true 0x20000100 = .canvas ∧ bankDark m 0x20000100 = false := by
  decide

/-- A load from the PCIe window waits for its answer. -/
def pcieState : State := app fun x => { x with pcie := some ⟨0x26, 2, 0x10000000008, none, 0x20000004, [], []⟩ }
/-- A load waits for its halves. -/
def loadedState : State := app fun x => { x with load := some ⟨false, 2, 7, [0, 1], x.r, none⟩ }

theorem witness_LoadAndLineResponses :
    (getCtx loadedState.dg 0).load.isSome = true ∧ (getCtx loadedState.dg 0).pcie = none ∧
    (getCtx pcieState.dg 0).pcie.isSome = true ∧ calm pcieState.dg 0 = true ∧ halted pcieState.dg 0 = false ∧
    (let m := updGrp pcieState.dg 0 fun g => { g with halt := true }
     (getCtx m 0).pcie.isSome = true ∧ calm m 0 = true ∧ halted m 0 = true ∧ watchHit m 0 0x10000000008 8 1 = false) ∧ 0x10000000008 % 16 + memSize 0x26 ≤ 16 ∧
    watchHit pcieState.dg 0 0x10000000008 8 1 = false ∧
    (let s := app fun x => { x with lineReq := [0x400000] }
     let m0 := setCtx s.dg 0 { getCtx s.dg 0 with lineReq := [] }
     regionOf m0 (isSup 0) (0x400000 * 128) = .canvas ∧ inWindow m0 0 2 (0x400000 * 128) 128 = true ∧
     bankDark m0 (0x400000 * 128) = false ∧ waits s.dg (0x400000 * 128) 1 = false ∧ lineOk s.dg 0 0x400000 = true ∧
     busAddr s.dg 0 (0x400000 * 128) = 0x400000 * 128 ∧ (readSpan m0 (viaCtx 0) (0x400000 * 128) 128).2.isSome = true ∧
     (readSpan (setErr m0 (0x400000 * 128) 0 5) (viaCtx 0) (0x400000 * 128) 128).2.isNone = true) ∧
    (let s := app fun x => { x with lineReq := [0x500000] }
     waits s.dg (0x500000 * 128) 1 = false ∧ lineOk s.dg 0 0x500000 = false) ∧
    (let s := waking (app fun x => { x with lineReq := [0x401000] })
     (getCtx s.dg 0).lineReq = 0x401000 :: [] ∧ waits s.dg (0x401000 * 128) 1 = true) := by decide

/-- Source 511 is enabled at level 1 and pending; interrupts are enabled. -/
def irqState : State :=
  { stackState with dg := updCtx stackState.dg 0 fun x =>
      { x with irqCfg := [(511, ⟨true, 1, false⟩)], irqPend := [(511, true)], r := { x.r with ie := true } } }

theorem witness_InterruptsAndCounters :
    (SMap.get (getCtx irqState.dg 0).irqCfg 511).enabled = true ∧ (SMap.get (getCtx irqState.dg 0).irqCfg 2).enabled = false ∧
    bestIrq (getCtx irqState.dg 0) = some 511 ∧ runnable irqState.dg 0 = true ∧ (getCtx irqState.dg 0).load = none ∧
    (frameAndHandler (setCtx irqState.dg 0 { getCtx irqState.dg 0 with irqPend := [] }) 0 (regsOf irqState.dg 0) (32 + 511)
      (regsOf irqState.dg 0).pc (statusWord (regsOf irqState.dg 0))).isSome = true ∧
    stepping irqState.dg 0 = false ∧ entryWaits irqState.dg 0 (32 + 511) = false ∧ (regsOf irqState.dg 0).holdoff = 0 ∧
    (let s := waking irqState
     let m := updCtx s.dg 0 fun x => { x with r := { x.r with evbase := 0x20080000 } }
     runnable m 0 = true ∧ stepping m 0 = false ∧ bestIrq (getCtx m 0) = some 511 ∧ entryWaits m 0 (32 + 511) = true) := by decide

theorem witness_InterruptsAndCounters_wraps :
    let m := (appRegs fun r => { r with pmctl := 0x281, pmsel := [(7, 0x202)], pmc := [(7, BitVec.allOnes 64)] }).dg
    countsNow m 0 7 = true ∧ eventOf (regsOf m 0) 7 = 2 ∧ SMap.get (regsOf m 0).pmc 7 = BitVec.allOnes 64 ∧
    countsNow m 0 0 = true ∧ countsTime (regsOf m 0) 0 = true ∧ countsNow m 0 3 = false := by decide

/-- Queue 5: four slots of 64 bytes in the first bank; partition 1 produces through handle 1 and consumes through 2. -/
def q5 : Queue :=
  { (default : Queue) with valid := true, cls := 1, slotLog := 0, depthLog := 2, base := 0x20002000 / 64, prod0 := 1, cons0 := 1 }
def queueDg (q : Queue) : Dg :=
  { appDg id with fab := { Dg.reset.fab with q := [(5, q)], handles := [(4097, ⟨5, 1, 0⟩), (4098, ⟨5, 2, 0⟩)] } }

theorem witness_QueueInstructionsAndDequeues :
    let m := fetched (queueDg q5) 0 4
    let drained := drainAll m 0
    ready (queueDg q5) 0 4 = true ∧ drainWaits m 0 = false ∧ showStores m 0 = drained ∧
    (let s := heldStore ⟨queueDg q5, []⟩
     ready s.dg 0 4 = true ∧ drainWaits (fetched s.dg 0 4) 0 = true) ∧ calm drained 0 = true ∧ (resolveQ drained 0 1 1).toOption = some (5, false) ∧
    publishRefusal drained (getQ drained 5) 1 = none ∧ publishRefusal drained (getQ drained 5) 4 = none ∧ (resolveQ m 0 2 2).toOption = some (5, false) ∧
    errorOf (resolveQ drained 0 3 1) = some 1 ∧ errorOf (resolveQ m 0 1 2) = some 2 ∧ (handleOf m 0 1).q < 2 ^ 18 := by decide

theorem witness_dequeue_retires :
    let l : PendLoad := ⟨false, 2, 7, [], Regs.reset, some ⟨5, 1, 1, 2⟩⟩
    let m := updCtx (queueDg q5) 0 fun x => { x with load := some l }
    runnable m 0 = true ∧ breakHit m 0 0x20000000 = false ∧ awake m 0 4 = true ∧ (fetches m 0 4).2 = true ∧ stepping m 0 = false ∧
    (SMap.get m.easel.trace 0).enable = false ∧
    (Rrr.mk 3 0 0 2 0).d.toNat ≠ l.reg := by decide

def byteList (l : List Nat) : List Byte := l.map fun n => BitVec.ofNat 8 n
/-- A record of the blob from its bytes. -/
def record (ty : Nat) (l : List Nat) : CfgRec := ⟨ty, l.length, ofLe (byteList l)⟩

/-! ### Studios -/

def core_ (r : Role) (slot lane : Nat) : Core := { (default : Core) with role := r, slot := slot, lane := lane }
/-- Cores 0, 1 and 2 run group slot 0, cores 3 and 4 are READY; the blob's record places partition 1 on that slot. -/
def studioDg (f : Stu → Stu) : Dg :=
  let m := appDg id
  { m with
    cfg := [⟨2, 32, 0x0101⟩],
    stu := f { m.stu with core := [(0, core_ .active 0 0), (1, core_ .active 0 1), (2, core_ .active 0 2),
                                   (3, core_ .ready 0 0), (4, { core_ .ready 0 0 with lastPass := 9 })] } }
def noSpares (x : Stu) : Stu := { x with core := [(0, core_ .active 0 0), (1, core_ .active 0 1), (2, core_ .active 0 2)] }
def onGroup (g : Group → Group) (x : Stu) : Stu := { x with grp := SMap.upd x.grp 0 g }
def onStudio (g : Studio → Studio) (x : Stu) : Stu := { x with studio := SMap.upd x.studio 0 g }

theorem witness_VoterComparisonsAndLosses :
    (let m := studioDg id
     compares m 0 = true ∧ (getCore m 1).role = .active ∧ (getGrp m 0).shadow = false ∧ underBusy m = false ∧ reseatsOf m 0 = [] ∧
     (getGrp m 0).state = .full ∧ (getStudio m 0).reseat = none ∧ (getGrp m 0).lane 2 = some 2 ∧ (getGrp m 0).cores.length = 3 ∧
     olderPass m (readySpares m 0) = some 3) ∧
    readySpares (studioDg noSpares) 0 = [] ∧ (getGrp (studioDg noSpares) 0).state = .full ∧
    (let m := studioDg (onGroup fun g => { g with state := .degraded, laneC := none })
     compares m 0 = true ∧ (lanesCompared m 0).length = 2) ∧
    (let m := studioDg fun x => onGroup (fun g => { g with state := .lost, laneA := none, laneB := none, laneC := none })
       { x with core := SMap.set x.core 5 (core_ .ready 0 0), part := [(1, ⟨.lost, 0, true⟩)] }
     (partRec m 1).map recCtx = some 0 ∧ exeshDown m = false ∧ (getGrp m 0).state = .lost ∧ (getPart m 1).waitRestart = true ∧
     (formGroup m 0 1).isSome = true ∧ (loadPartition (releaseAll m 1) 1 (bankOfPid (releaseAll m 1) 1) false).2 = true) ∧
    formGroup (studioDg noSpares) 0 1 = none ∧
    (let m0 := studioDg fun x => { x with core := [(39, core_ .qm 0 0)], part := [(63, ⟨.lost, 0, true⟩)] }
     let m := { m0 with cfg := [record 2 [63, 2, 3, 9]] }
     (partRec m 63).map recCtx = some (16 + 39) ∧ exeshDown m = false ∧ (getPart m 63).waitRestart = true ∧
     (getPart m 63).state = .lost ∧ (getCore m 39).role = .qm) := by decide

/-- A planned re-seat of lane 1, by rotation. -/
def planned1 : Reseat := ⟨0, 1, some 1, 0, 2, false, 0, none, none⟩
/-- A re-seat of lane 0 that froze the group at time 0. -/
def frozen0 (fenced : Bool) : Reseat := ⟨0, 0, some 0, 3, 1, fenced, 0, some 0, none⟩

theorem witness_ReseatSequence :
    (let m := studioDg (onStudio fun y => { y with planned := [planned1] })
     (getStudio m 0).reseat = none ∧ olderPass m (readySpares m 0) = some 3 ∧ reseatsOf m 0 = [] ∧
     ((getStudio m 0).planned.find? fun r => r.slot == 0) = some planned1 ∧ planned1.cause = 2 ∧ planned1.prefer = none ∧
     (getGrp m 0).state = .full ∧ (getGrp m 0).lane 1 = planned1.old) ∧
    missingLane (getGrp (studioDg (onGroup fun g => { g with state := .degraded, laneC := none })) 0) = some 2 ∧
    (getGrp (studioDg (onGroup fun g => { g with held := [(2, 3)] })) 0).held = (2, 3) :: [] ∧
    (let m := studioDg (onStudio fun y => { y with reseat := some { frozen0 false with frozen := none } })
     (getStudio m 0).reseat = some { frozen0 false with frozen := none } ∧ (getCtx m 0).pcie = none ∧ drainWaits m 0 = false) ∧
    (let m := (heldStore ⟨studioDg (onStudio fun y => { y with reseat := some { frozen0 false with frozen := none } }), []⟩).dg
     (getStudio m 0).reseat = some { frozen0 false with frozen := none } ∧ drainWaits m 0 = true) ∧
    (∀ b, let m := studioDg (onStudio fun y => { y with reseat := some (frozen0 b) })
     (getStudio m 0).reseat = some (frozen0 b) ∧ (getStudio m 0).waiting = [] ∧ (getGrp m 0).haltDefer = false ∧
     m.boot.under.closing = false ∧ 0 ≤ m.now ∧ (frozen0 b).old.bind (reseatCmd m) = none ∧ (frozen0 b).old ≠ some (frozen0 b).new ∧
     ((getGrp m 0).lane (frozen0 b).lane).isSome = true) := by decide

theorem witness_CoreTests :
    (let m := studioDg fun x => { x with core := SMap.set x.core 9 (core_ .untested 0 0) }
     rotationDue m 0 = false) ∧
    (let m0 := studioDg fun x => { x with core := SMap.set x.core 9 (core_ .untested 0 0), rotInterval := 60, filled := true }
     let m := { m0 with now := 4 * 10 ^ 9, boot := { m0.boot with due := none } }
     (getStudio m 0).mode ≠ .q ∧ exeshDown m = false ∧ rotationDue m 0 = true ∧ suspOf m 0 = 0 ∧
     (∀ d ∈ coresOf 0, m.now - (if (getCore m d).lastPass = 0 then m.boot.doneAt else (getCore m d).lastPass) ≤ overdueAge m) ∧
     ((coresOf 0).find? fun d => (getCore m d).role == .untested) = some 9) ∧
    (let m := studioDg fun x => { x with core := SMap.set x.core 9 (core_ .testing 0 0) }
     (getCore m 9).role = .testing ∧ (getCore m 9).incomplete < 2 ∧ (getCore m 3).role ≠ .testing ∧
     (getCore m 3).role ≠ .excluded) := by decide

/-! ### Registers, fabric and Canvas -/

theorem witness_EventRegisters :
    isShadowCtx (appDg id) 0 = false ∧ ownsSlot (appDg id) 0 0 = true ∧ ownsSlot (appDg id) 0 15 = false ∧
    runnable (appDg id) 0 = true ∧ irqDue (getCtx (appDg id) 0) = false ∧ drainWaits (appDg id) 0 = false ∧
    entryWaits (appDg id) 0 4 = false ∧
    (runnable irqState.dg 0 = true ∧ irqDue (getCtx irqState.dg 0) = true ∧ stepping irqState.dg 0 = false) ∧
    (let m := (heldStore (app id)).dg
     runnable m 0 = true ∧ irqDue (getCtx m 0) = false ∧ drainWaits m 0 = true) ∧ regOwn (appDg id) 0 0x40000000 5 = none ∧ regOwn (appDg id) 0 0x4FFFFFF8 5 = none ∧
    (regRead (appDg id) 0 0x40000000).isSome = true ∧ regRead (appDg id) 0 0x4FFFFFF8 = none ∧
    ([⟨true, 1, 2⟩] : List FcrHw).length ≤ 1 ∧ ([⟨3, 5, 1, 1⟩] : List FabHw).length ≤ 1 ∧ (3 : Nat) < 4 := by decide

theorem witness_PublicationChecks :
    let m := queueDg { q5 with pubs := [⟨7, 0, 0⟩] }
    (getQ m 5).pubs = [⟨7, 0, 0⟩] ∧ (getQ m 5).linkmode = 0 ∧ (getQ m 5).twin = false ∧ (getQ m 5).digest = false ∧
    readSpan m viaFabric ((getQ m 5).slotAddr (getQ m 5).vis) (getQ m 5).slotSize = (m, some (List.replicate 64 0)) := by decide

/-- A link of the mesh. -/
def link0 : Link := ⟨0, 0, 0⟩

/-- Flip groups 1 and 63, of period 10 µs, at the boundary 10 µs after time 0, with flips accepted just in time and too late. -/
def flips : SMap FlipGrp := [(1, ⟨false, some 0, 10, 0, 1⟩), (63, ⟨true, some 1, 10, 0, 1⟩)]

theorem witness_FabricEvents_queue :
    (let m := { queueDg { q5 with cls := 0, budget := 3, budgetWin := 0 } with now := 62500 }
     (getQ m 5).valid = true ∧ (getQ m 5).cls = 0 ∧
     1000 * winUs (getQ m 5).budgetWin * ((getQ m 5).refills + 1) ≤ 16 * (m.now - (getQ m 5).filledAt) * (getQ m 5).budget) ∧
    (let m := queueDg { q5 with cls := 0, budget := 3, budgetWin := 0 }
     ¬ 1000 * winUs (getQ m 5).budgetWin * ((getQ m 5).refills + 1) ≤ 16 * (m.now - (getQ m 5).filledAt) * (getQ m 5).budget) := by
  decide

theorem witness_FabricEvents :
    (let m := { appDg id with now := 700, fab := { Dg.reset.fab with flip := flips } }
     groupQueues m 1 = [] ∧ groupQueues m 63 = [] ∧ (SMap.get m.fab.flip 1).boundaries m.now = 2 ∧
     (SMap.get m.fab.flip 63).boundaries m.now = 2 ∧ 16 * 0 + 10000 ≤ 1000 * (0 + (2 - 1) * 10) ∧
     1000 * (0 + (2 - 1) * 10) < 16 * 1 + 10000 ∧ (SMap.get m.fab.flip 2).boundaries m.now ≤ (SMap.get m.fab.flip 2).taken) ∧
    (let m0 := queueDg { q5 with flipgrp := 1, digest := true, digidx := 1 }
     let m := { m0 with now := 700, fab := { m0.fab with flip := [(1, ⟨false, none, 10, 0, 1⟩)] } }
     groupQueues m 1 = [5] ∧ (SMap.get m.fab.flip 1).pending = none ∧ (getQ m 5).digest = true ∧ (getQ m 5).digidx ≠ 0 ∧
     (getQ m 5).linkmode = 0 ∧ (SMap.get m.fab.flip 1).taken < (SMap.get m.fab.flip 1).boundaries m.now) ∧
    (let m0 := queueDg { q5 with flipgrp := 1 }
     let m := { m0 with now := 700, fab := { m0.fab with flip := flips } }
     groupQueues m 1 = [5] ∧ (getQ m 5).linkmode = 0 ∧ (getQ m 5).digest = false ∧ (SMap.get m.fab.flip 1).due m.now = true ∧
     (∀ e ∈ m.ctx, e.2.load = none)) := by
  decide

theorem witness_FabricEvents_links :
    let m0 := appDg id
    let m := { m0 with fab := { m0.fab with links := [(lkey link0, { (default : LinkSt) with corr := [(7, List.replicate 16 3)], spared := [8] })] } }
    let x := SMap.get m.fab.links (lkey link0)
    linkExists link0 = true ∧ x.failed = false ∧ (SMap.get x.corr 7)[0]? = some 3 ∧ (SMap.get x.corr 7)[15]? = some 3 ∧
    (3 : Nat) < 3 + 62500 ∧ x.spared.length < 2 ∧ (SMap.get x.corr 6).length < 16 := by decide

/-- Quadrant 0 with a state of its own, and its bank 0. -/
def quadDg (f : Quadrant → Quadrant) (b : Bank) : Dg :=
  let m := appDg id
  { m with cnv := { m.cnv with quad := SMap.upd m.cnv.quad 0 f, bank := [(0, b)] } }

theorem witness_CanvasTestAndPower :
    (let m := quadDg (fun x => { x with phase := 0, free := 32 }) { (default : Bank) with power := .on }
     (getQuad m 0).phase = 0 ∧ (getQuad m 0).free < 33 ∧ migrationDue m 0 = false) ∧
    (let m0 := quadDg (fun x => { x with phase := 0, free := 32, freePower := .on }) { (default : Bank) with power := .on }
     let m := { m0 with now := 10 ^ 14, boot := { m0.boot with due := none }, cnv := { m0.cnv with testS := 600 } }
     migrationDue m 0 = true ∧ migChoice m 0 = some 0 ∧ (getQuad m 0).freePower = .on) ∧
    (let m := quadDg (fun x => { x with phase := 1, migBank := 0, migLine := 4094 }) default
     (getQuad m 0).phase = 1 ∧ (getQuad m 0).migLine < 4095) ∧
    (let m := quadDg (fun x => { x with phase := 1, migBank := 0, migLine := 4095 }) default
     (getQuad m 0).phase = 1 ∧ (getQuad m 0).migLine = 4095) ∧
    (let m := quadDg (fun x => { x with phase := 2, testing := some 32 }) default
     (getQuad m 0).testing = some 32 ∧ (getQuad m 0).incomplete < 2 ∧ (getQuad m 0).noFreeReported = false) ∧
    (∀ keeps lost due woken,
     let m := quadDg id { (default : Bank) with power := .waking, keeps := keeps, retLost := lost, lostDue := due, woken := woken }
     (getBank m 0 0).power = .waking ∧ (getBank m 0 0).keeps = keeps ∧ (getBank m 0 0).retLost = lost ∧ (getBank m 0 0).lostDue = due ∧
     (getBank m 0 0).woken = woken ∧ (wakingBanks m 0).length ≤ 4) := by decide

theorem witness_ScrubsAndLineWrites :
    (appDg id).ftest.words = [] ∧
    (let m := quadDg (fun x => { x with scrubPos := 32767 }) { (default : Bank) with power := .on }
     unpowered m = false ∧ scrubAt m 0 = some 32767 ∧ eccOf 0 = .clean ∧ eccOf 4 = .corrected ∧ eccOf 5 = .uncorrectable ∧
     getErr m (0x20000000 + 32767 * 16) 0 = 0) ∧
    (∀ tmr, tmr = 0 ∨ tmr = 1 →
      let m := { appDg id with drc := { (default : Drc) with up := true, tmrFirst := tmr } }
      m.drc.up = true ∧ patrolAt m = 0 ∧ (∀ k, k < 3 → getErr m 0x1000000000 k = 0) ∧ (bit m.drc.tmrFirst 0 = true ↔ tmr = 1)) ∧
    storeAllowed (appDg id) .supervisor 0x76000000 = true ∧ storeAllowed (appDg id) .dma 0x61000000 = true ∧
    storeAllowed (appDg id) .sec 0x60000000 = false := by
  refine ⟨by decide, by decide, ?_, by decide⟩
  rintro _ (rfl | rfl) <;> decide

/-! ### Messages and commands of the mailbox -/

/-- Queue `q` holds one message with `payload`; the records are the active blob's. -/
def sentDg (q : Nat) (x : Queue) (payload : List Byte) (cfg : List CfgRec) : Dg :=
  let m := queueDg q5
  { pokes m x.ringBase (mkMsg q 1 0 0 payload) with
    cfg := cfg, fab := { m.fab with q := [(6, { q5 with base := 0x20003000 / 64 }), (q, { x with wr := 1, vis := 1, seq := 1 })] } }

/-- Slot 3 of DMA agent 0: requests in queue 5, completions in queue 6, for partition 1. -/
def dmaRec0 : CfgRec := record 0x20 [0, 3, 1, 0, 5, 0, 0, 0, 6, 0, 0, 0]
/-- The window of partition 1 over the first bank. -/
def bankRec : CfgRec := record 3 ([1, 3, 1, 0, 0, 0, 0, 0] ++ ([0x20000000, 0x80000].flatMap fun n => (leBytes 8 n).map (·.toNat)))
/-- A job with a tag, an operation, a source, a destination and a length. -/
def jobBytes (tag op src dst len : Nat) : List Byte := leBytes 48 (pack [(16, tag), (8, op), (40, 0), (64, src), (64, dst), (64, len)])

theorem witness_DmaJobs :
    (∀ op src dst, (op, src, dst) = (1, 0x20000000, 0x20001000) ∨ (op, src, dst) = (2, 0, 0x20001000) ∨
        (op, src, dst) = (3, 0x20000000, 0) →
      let m := sentDg 5 { q5 with cons0 := 0x60 } (jobBytes 9 op src dst 100) [dmaRec0, bankRec]
      dmaRec m 0 3 = some dmaRec0 ∧ queueUsable m (getQ m (dmaRec0.f 8 4)) = true ∧ 0 < (getQ m (dmaRec0.f 8 4)).free ∧
      (let msg := mkMsg 5 1 0 0 (jobBytes 9 op src dst 100)
       hwPeek m 0x60 (dmaRec0.f 4 4) = some (msg, 0) ∧ (hwTake m 0x60 (dmaRec0.f 4 4)).2 = some (msg, 0) ∧ (jobOf msg).op = op ∧
       jobInvalid msg (jobOf msg) = false ∧ (jobOf msg).fence = false ∧
       (op = 2 ∨ outOfReach m 1 false (jobOf msg).src (jobOf msg).len = none) ∧
       (op = 3 ∨ outOfReach m 1 true (jobOf msg).dst (jobOf msg).len = none))) ∧
    (let m := sentDg 5 { q5 with cons0 := 0x60 } [] [dmaRec0, bankRec]
     outOfReach m 1 false 0x20000000 100 = none ∧ outOfReach m 1 false 0x60000000 100 = some 0x60000000 ∧
     outOfReach m 1 true 0x60000000 100 = some 0x60000000) ∧
    (let j : DmaJob := ⟨9, 2, false, 0, 0x20001000, 8192, 5, 0, 0⟩
     let m := { sentDg 5 { q5 with cons0 := 0x60 } [] [dmaRec0, bankRec] with dma := [(0, ⟨[(3, [j])], 1⟩)] }
     nextSlot (getAgent m 0) = some 3 ∧ SMap.get (getAgent m 0).jobs 3 = j :: [] ∧ 4096 < j.len ∧ j.dst % 4096 = 0 ∧
     bankDark m j.dst = false ∧ wakingAt m j.dst = false ∧ 0 < (getQ m (dmaRec0.f 8 4)).free) := by
  refine ⟨?_, by decide⟩
  intro op src dst h
  rcases h with h | h | h <;> cases h <;>
    exact ⟨by decide, by decide, by decide, by decide +kernel⟩

/-- Requests of pair 0 in queue 0x3FF00, responses in 0x3FF01: rings of four slots of 64 and of 4096 bytes. -/
def requestDg (payload : List Byte) : Dg :=
  let m := sentDg 0x3FF00 { q5 with slotLog := 2, cons0 := 0 } payload []
  { m with
    fab := { m.fab with q := m.fab.q ++ [(0x3FF01, { q5 with slotLog := 6, base := 0x20004000 / 64, prod0 := 0 })] },
    mbx := { m.mbx with state := 2 } }

/-- A request header: tag 7, a command, a session and the length that follows. -/
def header (op session len : Nat) : List Byte := leBytes 16 (pack [(16, 7), (16, op), (32, session), (32, len)])

theorem witness_RequestsAndResponses :
    (∀ op len, (op, len) = (0x10, 0) ∨ (op, len) = (0xFFFF, 0) ∨ (op, len) = (0x10, 1) →
      let m := requestDg (header op 0 len)
      let msg := mkMsg 0x3FF00 1 0 0 (header op 0 len)
      let m1 := (hwTake { m with mbx := { m.mbx with turn := 1 } } 0x00 (reqQ 0)).1
      turnOf m = some 0 ∧ turnOf m ≠ some 1 ∧ (hwTake { m with mbx := { m.mbx with turn := 1 } } 0x00 (reqQ 0)).2 = some (msg, 0) ∧
        headerFault msg = (if len = 0 then none else some 24) ∧ 20 ≤ msg.length ∧ findCmd m1 0 (leAt msg 16 2) = none ∧
        (accessOf op).isSome = decide (op = 0x10) ∧ isLong ⟨0, 7, op, 0, 1, [], .claimed⟩ = false ∧
        (op = 0x10 → claimRefusal m1 ⟨0, 7, op, 0, 1, [], .claimed⟩ = none)) ∧
    (let m := requestDg []
     let q := getQ m (respQ 0)
     queueUsable m q = true ∧ 0 < q.free ∧ q.cls = 1 ∧ q.slotLog = 6 ∧ bankDark m (q.slotAddr q.wr) = false ∧
     q.slotAddr q.wr = 0x20004000) := by
  refine ⟨?_, by decide⟩
  intro op len h
  rcases h with h | h | h <;> cases h <;>
    exact ⟨by decide, by decide +kernel, by decide +kernel⟩

/-- A command that is outstanding under pair 0 and tag 7, from partition 1. -/
def cmd_ (op session : Nat) (payload : List Byte) : Cmd := ⟨0, 7, op, session, 1, payload, .claimed⟩
/-- Exesh is operational, and the command is the only one outstanding. -/
def cmdDg (op session : Nat) (payload : List Byte) (f : Dg → Dg) : Dg :=
  let m := requestDg []
  f { m with mbx := { m.mbx with out := [cmd_ op session payload] }, sec := { m.sec with trngOk := true } }
/-- A session, authenticated or not, opened at time 0. -/
def session_ (handle role : Nat) (auth : Bool) : Session := ⟨handle, role, 0, 1, 0, 5, auth, 0, 0, 300, none⟩
def withSession (x : Session) (m : Dg) : Dg := { m with mbx := { m.mbx with sessions := [x] } }

/-- The turn of a command that is alone. -/
theorem turnOf_alone (c : Cmd) (m : Dg) (h1 : m.mbx.out = [c]) (h2 : m.mbx.restart = none) (hp : c.phase = .claimed)
    (hv : vendorRefused m c = false) : TurnOf m c.pair c.tag c.op c := by
  simp [TurnOf, findCmd, exeshDown, earlier, h1, h2, hp, hv]

theorem turn_cmd (op session : Nat) (payload : List Byte) (f : Dg → Dg)
    (h1 : (cmdDg op session payload f).mbx.out = [cmd_ op session payload]) (h2 : (cmdDg op session payload f).mbx.restart = none)
    (hv : vendorRefused (cmdDg op session payload f) (cmd_ op session payload) = false) :
    TurnOf (cmdDg op session payload f) 0 7 op (cmd_ op session payload) :=
  turnOf_alone (cmd_ op session payload) _ h1 h2 rfl hv

def locked (m : Dg) : Dg := { m with mbx := { m.mbx with lockUntil := [(2, 1)] } }

theorem witness_Sessions_open :
    (let p := byteList [2, 0, 0, 0, 10, 0, 0, 0]
     let c := cmd_ 0x0001 0 p
     TurnOf (cmdDg 0x0001 0 p id) 0 7 0x0001 c ∧ TurnOf (cmdDg 0x0001 0 p locked) 0 7 0x0001 c ∧
     (c.payload.length = 8 ∧ c.f 0 1 = 2 ∧ c.f 1 1 = 0 ∧ c.f 2 2 = 0 ∧
      (let m := cmdDg 0x0001 0 p locked
       m.now < SMap.get m.mbx.lockUntil (8 * 0 + 2)) ∧
      (let m := cmdDg 0x0001 0 p id
       SMap.get m.mbx.lockUntil 2 ≤ m.now ∧ m.mbx.sessions.length < 32 ∧ m.sec.trngOk = true) ∧
      (let m := cmdDg 0x0001 0 p fun m => { m with mbx := { m.mbx with sessions := List.replicate 32 (session_ 5 2 false) } }
       SMap.get m.mbx.lockUntil 2 ≤ m.now ∧ 32 ≤ m.mbx.sessions.length))) ∧
    (let c := cmd_ 0x0001 0 (byteList [6, 2, 0, 0, 0, 0, 0, 0])
     c.f 0 1 = 6 ∧ c.f 1 1 = 2 ∧ c.f 4 4 = 0) :=
  ⟨⟨turn_cmd _ _ _ _ rfl rfl rfl, turn_cmd _ _ _ _ rfl rfl rfl, by decide⟩, by decide⟩

/-- A proof of method 1 of 3309 bytes. -/
def proof1 : List Byte := byteList [1, 3, 0, 0] ++ leBytes 4 3309 ++ List.replicate 3309 7

theorem witness_Sessions_auth :
    let ss := session_ 5 2 false
    let c := cmd_ 0x0002 5 proof1
    let m := cmdDg 0x0002 5 proof1 (withSession ss)
    TurnOf m 0 7 0x0002 c ∧ sessionOf m 5 = some ss ∧ ss.auth = false ∧ ss.role ≠ 6 ∧ c.f 0 1 = 1 ∧ c.f 1 1 = 3 ∧ c.f 2 2 = 0 ∧
    c.f 1 1 < 4 ∧ proofLenOk 1 (c.f 4 4) = true ∧ c.payload.length = 8 + c.f 4 4 :=
  ⟨turn_cmd _ _ _ _ rfl rfl rfl, by decide +kernel⟩

/-- A passphrase of a Workshop session: the two bytes of one character, eight times. -/
def proof3 : List Byte := byteList [3, 0, 0, 0] ++ leBytes 4 16 ++ (List.replicate 8 (byteList [0xC3, 0xA9])).flatten

theorem witness_Sessions_passphrase :
    let ss := session_ 5 4 false
    let c := cmd_ 0x0002 5 proof3
    let m := cmdDg 0x0002 5 proof3 (withSession ss)
    TurnOf m 0 7 0x0002 c ∧ sessionOf m 5 = some ss ∧ ss.auth = false ∧ ss.role = 4 ∧ c.f 0 1 = 3 ∧ c.f 1 1 = 0 ∧ c.f 2 2 = 0 ∧
    isUtf8 (c.payload.drop 8) = true ∧ proofLenOk 3 (c.f 4 4) = true ∧ c.payload.length = 8 + c.f 4 4 :=
  ⟨turn_cmd _ _ _ _ rfl rfl rfl, by decide +kernel⟩

theorem witness_Sessions_close_and_time :
    (∀ op, op = 0x0003 ∨ op = 0x0004 → TurnOf (cmdDg op 5 [] (withSession (session_ 5 2 true))) 0 7 op (cmd_ op 5 [])) ∧
    (let m := withSession (session_ 5 2 false) { Dg.reset with now := 30 * 62500000 }
     sessionOf m 5 = some (session_ 5 2 false) ∧ (∀ d ∈ m.mbx.out, d.session ≠ 5) ∧ 0 + 30 * 62500000 ≤ m.now) ∧
    (let m := withSession (session_ 5 2 true) { Dg.reset with now := 300 * 62500000 - 1 }
     sessionOf m 5 = some (session_ 5 2 true) ∧ m.now < 0 + (session_ 5 2 true).idleS * 62500000) :=
  ⟨fun _ _ => turn_cmd _ _ _ _ rfl rfl rfl, by decide, by decide⟩

/-- Role 2 holds keys 0 and 1. -/
def twoKeys (m : Dg) : Dg := { m with mbx := { m.mbx with keys := [(8, ⟨2, [1]⟩), (9, ⟨2, [2]⟩)] } }
def oneKey (m : Dg) : Dg := { m with mbx := { m.mbx with keys := [(8, ⟨2, [1]⟩)] } }

theorem witness_KeysAndIdentity :
    (let p := byteList [2, 3, 2, 0, 97, 0, 0, 0] ++ List.replicate 97 4
     let c := cmd_ 0x0005 5 p
     let m := cmdDg 0x0005 5 p (withSession (session_ 5 2 true))
     TurnOf m 0 7 0x0005 c ∧ c.f 0 1 = 2 ∧ c.f 1 1 = 3 ∧ c.f 2 1 = 2 ∧ c.f 3 1 = 0 ∧ c.f 4 4 = 97 ∧ c.payload.length = 8 + c.f 4 4 ∧
     maySetKey m (c.role m) 2 = true ∧ maySetKey m 6 2 = false) ∧
    (let p := byteList [2, 3, 2, 0, 97, 0, 0, 0] ++ List.replicate 97 4
     let c := cmd_ 0x0005 5 p
     let m := cmdDg 0x0005 5 p (withSession (session_ 5 1 true))
     findCmd m 0 7 = some c ∧ c.phase = .claimed ∧ exeshDown m = false ∧ earlier m c .claimed = false ∧ c.role m = 1 ∧
     m.part.factory = false) ∧
    (∀ f, f = twoKeys ∨ f = oneKey →
      let c := cmd_ 0x0006 5 (byteList [2, 0])
      let m := cmdDg 0x0006 5 (byteList [2, 0]) (fun m => f (withSession (session_ 5 2 true) m))
      TurnOf m 0 7 0x0006 c ∧ c.payload.length = 2 ∧ c.f 0 1 = 2 ∧ c.f 1 1 = 0 ∧ (roleKey m 2 0).alg ≠ 0 ∧
      maySetKey m (c.role m) 2 = true ∧ (keysOf m 2 = 1 ∨ 2 ≤ keysOf m 2) ∧ ∀ x ∈ m.mbx.sessions, x.role = 2 → x.key ≠ some 0) ∧
    (∀ op, op = 0x0007 ∨ op = 0x0012 →
      let p := leBytes 4 16 ++ List.replicate 16 9
      let c := cmd_ op 5 p
      TurnOf (cmdDg op 5 p id) 0 7 op c ∧ 16 ≤ c.f 0 4 ∧ c.f 0 4 ≤ 64 ∧ c.payload.length = 4 + c.f 0 4 ∧
      (cmdDg op 5 p id).sec.trngOk = true ∧ isUtf8 (c.payload.drop 4) = true ∧ isUtf8 (List.replicate 16 0xFF) = false) ∧
    (∀ op, op = 0x0011 ∨ op = 0x0013 → TurnOf (cmdDg op 0 [] id) 0 7 op (cmd_ op 0 [])) ∧
    (let m := cmdDg 0x0012 5 [] fun m => { m with sec := { m.sec with attest := [((0, 7), [1])] } }
     m.sec.attest = ((0, 7), [1]) :: [] ∧ findCmd m 0 7 = some (cmd_ 0x0012 5 [])) ∧
    (∀ kat, let m0 := cmdDg 0x0012 5 [] fun m => { m with sec := { m.sec with attest := [((0, 7), [1])], katFail := kat } }
     let m := updMbx m0 fun x => { x with out := [{ cmd_ 0x0012 5 [] with phase := .running }] }
     m.sec.attest = ((0, 7), [1]) :: [] ∧ (findCmd m 0 7).map (·.phase) = some .running ∧
     (kat = 0 → signersUp m = true) ∧ (kat = 8 → signersUp m = false)) := by
  refine ⟨⟨turn_cmd _ _ _ _ rfl rfl rfl, by decide⟩, by decide, ?_, ?_, fun _ _ => turn_cmd _ _ _ _ rfl rfl rfl, by decide, ?_⟩
  · rintro _ (rfl | rfl) <;> exact ⟨turn_cmd _ _ _ _ rfl rfl rfl, by decide⟩
  · rintro _ (rfl | rfl) <;> exact ⟨turn_cmd _ _ _ _ rfl rfl rfl, by decide⟩
  · intro kat
    exact ⟨rfl, rfl, fun h => by subst h; rfl, fun h => by subst h; rfl⟩

/-- A descriptor of QUEUE_CREATE: class 1, 64-byte slots, depth 4, at 0x20008000, nothing bound. -/
def createBytes : List Byte :=
  leBytes 4 9 ++ leBytes 4 0 ++ leBytes 16 ({ q5 with base := 0x20008000 / 64, prod0 := 0, cons0 := 0 } : Queue).word0 ++
    leBytes 8 0

theorem witness_QueueCommands_create :
    let c := cmd_ 0x0020 5 createBytes
    let m := cmdDg 0x0020 5 createBytes id
    let y := newQueue (c.f 8 16) (c.f 24 2) (c.f 26 1)
    TurnOf m 0 7 0x0020 c ∧ c.f 0 4 = 9 ∧ c.payload.length = 32 ∧ c.f 4 4 = 0 ∧ c.f 27 5 = 0 ∧
    createFault m (c.f 8 16) (c.f 24 2) (c.f 26 1) = none ∧ createFault m 0 0 0 = some 8 ∧ createFault m (c.f 8 16) 1 0 = some 24 ∧
    admits m 9 y 0x7F 0x7F = true ∧ (getQ m 9).valid = false ∧ ringOverlap m y = false ∧ m.boot.due ≠ none :=
  ⟨turn_cmd _ _ _ _ rfl rfl rfl, by decide +kernel⟩

/-- Queue 6 is bound to nothing, and the blob places partition 1. -/
def freeQ6 (m : Dg) : Dg :=
  setQ { m with cfg := [record 2 [1, 1, 0, 0]] } 6
    { q5 with base := 0x20003000 / 64, prod0 := 0x7F, cons0 := 0x7F, prod1 := 0x7F, cons1 := 0x7F }

theorem witness_QueueCommands :
    (∀ op, op = 0x0021 ∨ op = 0x0024 ∨ op = 0x0025 →
      let c := cmd_ op 5 (leBytes 4 6)
      let m := cmdDg op 5 (leBytes 4 6) freeQ6
      TurnOf m 0 7 op c ∧ c.f 0 4 = 6 ∧ c.payload.length = 4 ∧ c.session ≠ 0 ∧ (getQ m 6).valid = true ∧ (getQ m 6).bound = false ∧
      epRuns m ((getQ m 6).prod (genOf m (getQ m 6))) = false ∧ epRuns m ((getQ m 6).cons (genOf m (getQ m 6))) = false ∧
      (getQ (requestDg []) 6).bound = true ∧ epRuns (requestDg []) 1 = true ∧ (getQ m 0x3FEFF).valid = false) ∧
    (∀ dir, dir = 1 ∨ dir = 2 →
      let p := leBytes 4 6 ++ byteList [0, dir, 1, 0, 0xFF, 0xF, 0xFF, 1]
      let c := cmd_ 0x0022 5 p
      let m := cmdDg 0x0022 5 p freeQ6
      TurnOf m 0 7 0x0022 c ∧ c.payload.length = 12 ∧ c.f 0 4 = 6 ∧ c.f 4 1 = 0 ∧ c.f 5 1 = dir ∧ c.f 6 1 = 1 ∧ c.f 7 1 = 0 ∧
      c.f 8 2 = 4095 ∧ c.f 10 2 = 511 ∧ pidDefined m 1 = true ∧ pidDefined m 0x34 = false ∧ (getQ m 6).cls ≠ 0 ∧
      (if dir = 1 then (getQ m 6).prod0 else (getQ m 6).cons0) = 0x7F ∧ (SMap.get m.fab.handles (4096 * 1 + 4095)).dir = 0) ∧
    (∀ dir, dir = 1 ∨ dir = 2 →
      let p := leBytes 4 6 ++ byteList [0, dir]
      let c := cmd_ 0x0023 5 p
      TurnOf (cmdDg 0x0023 5 p id) 0 7 0x0023 c ∧ TurnOf (cmdDg 0x0023 5 p freeQ6) 0 7 0x0023 c ∧ c.payload.length = 6 ∧
      c.f 4 1 = 0 ∧ c.f 5 1 = dir ∧ (getQ (cmdDg 0x0023 5 p id) 6).prod0 = 1 ∧ (getQ (cmdDg 0x0023 5 p freeQ6) 6).prod0 = 0x7F ∧
      (getQ (cmdDg 0x0023 5 p freeQ6) 6).valid = true) := by
  refine ⟨?_, ?_, ?_⟩
  · rintro _ (rfl | rfl | rfl) <;> exact ⟨turn_cmd _ _ _ _ rfl rfl rfl, by decide +kernel⟩
  · rintro _ (rfl | rfl) <;> exact ⟨turn_cmd _ _ _ _ rfl rfl rfl, by decide +kernel⟩
  · rintro _ (rfl | rfl) <;> exact ⟨turn_cmd _ _ _ _ rfl rfl rfl, turn_cmd _ _ _ _ rfl rfl rfl, by decide +kernel⟩

/-- Studios as in `studioDg`, with the partition in a state and the blob's record of it: a triad on group slot 0. -/
def partDg (flags : Nat) (st : PState) (m : Dg) : Dg :=
  { m with cfg := [record 2 ([1, 0, 0, 0, 0, flags] ++ List.replicate 26 0)],
           stu := { (studioDg id).stu with part := [(1, ⟨st, 0, false⟩)] } }

theorem witness_PartitionCommands :
    (∀ op, op = 0x0030 ∨ op = 0x0031 ∨ op = 0x0032 ∨ op = 0x0033 →
      let c := cmd_ op 0 (byteList [1])
      let st : PState := if op = 0x0032 then .stopped else .running
      let m := cmdDg op 0 (byteList [1]) (partDg 0 st)
      TurnOf m 0 7 op c ∧ c.payload.length = 1 ∧ c.f 0 1 = 1 ∧ (partRec m 1).isSome = true ∧ (partRec m 1).map recCtx = some 0 ∧
      (partRec m 1).map (kindFits m) = some true ∧ underLive m = false ∧ (getGrp m 0).state = .full ∧
      (getPart m 1).state = st ∧ protectedNow m 1 = false ∧ inWindowOfGlaze m 1 = false ∧
      (loadPartition (releaseAll m 1) 1 (bankOfPid (releaseAll m 1) 1) false).2 = true ∧ partRec m 2 = none) ∧
    (let m := partDg 1 .running (appDg fun x => x)
     let m := { m with net := { m.net with ign := 1 } }
     protectedNow m 1 = true ∧ (getPart (partDg 0 .starting m) 1).state = .starting) ∧
    (let m := partDg 0 .lost (appDg id)
     let m := { m with stu := onGroup (fun g => { g with state := .lost }) (noSpares m.stu) }
     (getGrp m 0).state = .lost ∧ (getPart m 1).state = .lost ∧ formGroup m 0 1 = none) ∧
    (let c := cmd_ 0x0036 5 (byteList [0])
     let m := cmdDg 0x0036 5 (byteList [0]) (partDg 0 .running)
     TurnOf m 0 7 0x0036 c ∧ c.f 0 1 = 0 ∧ (getCore m 0).role = .active ∧ (getGrp m (getCore m 0).slot).state = .full ∧
     readySpares m 0 ≠ [] ∧ (getCore m 3).role ≠ .active) := by
  refine ⟨?_, by decide, by decide, turn_cmd _ _ _ _ rfl rfl rfl, by decide⟩
  rintro _ (rfl | rfl | rfl | rfl) <;> exact ⟨turn_cmd _ _ _ _ rfl rfl rfl, by decide +kernel⟩

/-! ### Updates -/

/-- The state of an underpainting. -/
def under_ (st : UnderSt) : Under :=
  { (default : Under) with st := st, pid := 1, bank := 1, probation := 3, slot := 0 }
def withUnder (u : Under) (m : Dg) : Dg := { m with boot := { m.boot with under := u } }

/-- A pool of 1 MiB in DRAM, shadow window and images for an underpainting of partition 1. -/
def shadowDg (m : Dg) : Dg :=
  let m := partDg 0 .running m
  { m with
    cfg := m.cfg ++ [record 4 (([0x20040000, 0x10000].flatMap fun n => (leBytes 8 n).map (·.toNat)) ++ [16, 0, 0, 0, 16, 0, 0, 0, 8, 0, 0, 0]),
                     record 3 ([1, 0x13, 1, 0, 0, 0, 0, 0] ++ ([0x20050000, 0x1000].flatMap fun n => (leBytes 8 n).map (·.toNat)))],
    stu := { m.stu with core := SMap.set m.stu.core 10 (core_ .ready 0 0) },
    boot := { m.boot with bank := [(3, { (default : CodeBank) with st := .verified })] } }

theorem witness_Underpainting :
    (∀ full, let m0 := queueDg { q5 with linkmode := 1, link := 6, mirror := [⟨[1], 0⟩] }
      let y : Queue := { q5 with base := 0x20003000 / 64, wr := if full then 4 else 0 }
      let m := withUnder (under_ .running) (setQ m0 6 y)
      (getQ m 5).mirror = ⟨[1], 0⟩ :: [] ∧ (getQ m 5).linkmode = 1 ∧ (getQ m 5).link = 6 ∧ (getQ m 5).notify = false ∧
      ((getQ m 6).free = 0 ↔ full = true) ∧ underLive m = true ∧ exeshDown m = false) ∧
    (let p := byteList [1, 1, 1, 0, 3, 0, 0, 0]
     let c := cmd_ 0x0042 5 p
     let m := cmdDg 0x0042 5 p shadowDg
     TurnOf m 0 7 0x0042 c ∧ c.payload.length = 8 ∧ c.f 0 1 = 1 ∧ c.f 1 1 = 1 ∧ c.f 2 1 < 2 ∧ c.f 3 1 = 0 ∧ c.f 4 4 = 3 ∧
     (partRec m 1).isSome = true ∧ shadowSlot m 1 1 = some 0 ∧ (poolOf m).isSome = true ∧ windowRecs m 1 true ≠ [] ∧
     underBusy m = false ∧ underBusy (withUnder (under_ .revertWindow) m) = true ∧ olderPass m (readySpares m 0) = some 3 ∧
     olderPass m (readySpares m (partner 0)) = some 10 ∧
     (poolOf m).map (fun p =>
       let al := allocRun m p 1
       let m' := setUpRun m c 0 3 10 al
       (admitsRun m', al.fits m p, (loadPartition m' 1 1 true).2)) = some (true, true, true)) := by
  refine ⟨by decide, turn_cmd _ _ _ _ rfl rfl rfl, by decide +kernel⟩

theorem witness_Underpainting_run :
    (∀ op, op = 0x0043 ∨ op = 0x0044 → TurnOf (cmdDg op 5 [] (withUnder (under_ .running))) 0 7 op (cmd_ op 5 [])) ∧
    (let p := leBytes 8 6 ++ List.replicate 32 1
     let c := cmd_ 0x0045 5 p
     TurnOf (cmdDg 0x0045 5 p id) 0 7 0x0045 c ∧ c.payload.length = 40 ∧ c.f 0 4 = 6 ∧ (getQ (cmdDg 0x0045 5 p id) 6).valid = true ∧
     c.f 4 4 = 0 ∧ underQueue (cmdDg 0x0045 5 p id) 6 = false ∧
     underQueue (withUnder { under_ .running with qs := [⟨6, 7, true, 1, 2, 0, 0, 0, false, 0⟩] } (appDg id)) 6 = true) ∧
    (let m0 := withUnder (under_ .settingUp) (partDg 0 .running (appDg id))
     let m := { m0 with now := 700, fab := { m0.fab with flip := [(1, ⟨false, none, 10, 0, 0⟩)] } }
     m.boot.under.st = .settingUp ∧ (partRec m m.boot.under.pid).isSome = true ∧
     ({ underFlip m with pending := some m.boot.under.setAt } : FlipGrp).due m.now = true ∧
     ({ underFlip m0 with pending := some m0.boot.under.setAt } : FlipGrp).due m0.now = false ∧
     (underFlip m0).taken ≤ m0.boot.under.seen) ∧
    (∀ warm d, let m0 := withUnder { under_ .running with warm := warm, compared := 2, qs := [⟨6, 7, true, 1, 2, 0, 0, 0, false, 0⟩] } (appDg id)
      let m := { m0 with fab := { m0.fab with digest := [(1, ⟨0, 0, d, 0, 0⟩)], flip := [(1, ⟨false, none, 10, 0, 1⟩)] } }
      m.boot.under.st = .running ∧ exeshDown m = false ∧ m.boot.under.warm = warm ∧
      m.boot.under.seen < (underFlip m).taken ∧
      (d = 0 → unequalPair m = none) ∧ (d ≠ 0 → (unequalPair m).isSome = true) ∧
      m.boot.under.probation ≤ m.boot.under.compared + 1 ∧ m.boot.under.auto = false) := by
  refine ⟨fun _ _ => turn_cmd _ _ _ _ rfl rfl rfl, ⟨turn_cmd _ _ _ _ rfl rfl rfl, by decide⟩, by decide, ?_⟩
  intro warm d
  refine ⟨rfl, rfl, rfl, Nat.zero_lt_one, ?_, ?_, Nat.le_refl 3, rfl⟩
  · rintro rfl
    rfl
  · intro h
    simp only [unequalPair, withUnder, SMap.get, under_]
    simp
    exact Or.inl h

/-- Slots 0 and 3: the live triad and the shadow pair, or the new triad and the revert point. -/
def revertDg (u : Under) : Dg :=
  let m := partDg 0 .running (appDg id)
  withUnder u { m with
    now := 700, fab := { m.fab with flip := [(1, ⟨false, some 0, 10, 0, 0⟩)] },
    stu := { m.stu with grp := SMap.set m.stu.grp 3 { (default : Group) with
      state := .full, pid := 1, pair := true, shadow := true, laneA := some 5, laneC := some 10 } } }

theorem witness_GlazeAndRevert :
    (let c := cmd_ 0x0046 5 (byteList [1])
     TurnOf (cmdDg 0x0046 5 (byteList [1]) (withUnder (under_ .passed))) 0 7 0x0046 c ∧ c.payload.length = 1 ∧ c.f 0 1 = 1) ∧
    (let c := cmd_ 0x0047 5 (byteList [1])
     let m := cmdDg 0x0047 5 (byteList [1]) (withUnder (under_ .revertWindow))
     TurnOf m 0 7 0x0047 c ∧ c.payload.length = 1 ∧ c.f 0 1 = 1 ∧ (underFlip m).boundaries m.now ≤ m.boot.under.seen) ∧
    (let m := revertDg { under_ .passed with glazing := true }
     (getStudio m 0).reseat = none ∧ (getStudio m 0).waiting = [] ∧ flipDue m 1 = true ∧ (getGrp m 0).laneB = some 1) ∧
    (let m := revertDg (under_ .revertWindow)
     (getGrp m 0).state = .full ∧ (getGrp m 3).laneA = some 5 ∧ (getGrp m 3).laneC = some 10 ∧ m.boot.under.qs = [] ∧
     m.boot.under.revertAt = none ∧ m.boot.under.revertCmd = none ∧ m.boot.under.seen < (underFlip m).boundaries m.now ∧
     (∀ c, c ∈ [5, 10] → (getCore m c).role ≠ .excluded) ∧ exeshDown m = false ∧ m.boot.under.keepC = false) ∧
    (revertDg { under_ .revertWindow with keepC := true }).boot.under.keepC = true ∧
    flipDue { revertDg (under_ .passed) with now := 100 } 1 = false ∧
    (let m := revertDg { under_ .revertWindow with revertAt := some 0 }
     m.boot.under.revertAt ≠ none ∧ flipDue m 1 = true ∧ 5 ∉ (getGrp m 0).cores ∧ 10 ∉ (getGrp m 0).cores) :=
  ⟨⟨turn_cmd _ _ _ _ rfl rfl rfl, by decide⟩, ⟨turn_cmd _ _ _ _ rfl rfl rfl, by decide⟩, by decide, by decide, by decide, by decide, by decide⟩

/-- A chunk of CONFIG_STAGE or UPDATE_STAGE: a head, offset, total, and 8 bytes given in the message. -/
def chunkBytes (head : List Byte) (off total : Nat) : List Byte :=
  head ++ leBytes 8 off ++ leBytes 8 total ++ leBytes 4 0 ++ leBytes 4 8 ++ leBytes 8 0 ++ List.replicate 8 5

theorem witness_Staging :
    (∀ off total, (off, total) = (0, 4096) ∨ (off, total) = (4096, 4104) →
      let p := chunkBytes [] off total
      let c := cmd_ 0x0034 5 p
      let m := cmdDg 0x0034 5 p fun m => { m with boot := { m.boot with bank := [(5, ⟨.staging, 4096, 4104, none, none⟩)] } }
      TurnOf m 0 7 0x0034 c ∧ 32 ≤ c.payload.length ∧ 4096 ≤ c.f 8 8 ∧ c.f 8 8 ≤ payLimit (bankKind 5) + 4096 ∧
      (c.f 0 8 = 0 ∨ (getImg m (5 - m.boot.cfgActive)).st = .staging ∧ (getImg m (5 - m.boot.cfgActive)).next = c.f 0 8 ∧
        (getImg m (5 - m.boot.cfgActive)).size = c.f 8 8) ∧
      (drefData m c 16).2.toOption = some (List.replicate 8 5)) ∧
    (∀ b role, (b, role) = (2, 5) ∨ (b, role) = (1, 1) →
      let p := chunkBytes (byteList [b, 0, 0, 0, 0, 0, 0, 0]) 0 8192
      let c := cmd_ 0x0040 5 p
      let m := cmdDg 0x0040 5 p (withSession (session_ 5 role true))
      TurnOf m 0 7 0x0040 c ∧ 40 ≤ c.payload.length ∧ c.f 1 7 = 0 ∧ c.role m = role ∧ c.f 0 1 = b ∧ boundCount m 0 = 0 ∧
      m.mbx.state ≠ 4 ∧ (drefData m c 24).2.toOption = some (List.replicate 8 5) ∧
      (let data := List.replicate 8 5
       (writeSpan (drefData m c 24).1 viaPort1 (bankBase b + 0) data).2 = true)) ∧
    (let p := chunkBytes (byteList [1, 1, 0, 0, 0, 0, 0, 0]) 0 8192
     let c := cmd_ 0x0040 5 p
     let m := cmdDg 0x0040 5 p fun m => let m := withSession (session_ 5 2 true) m
       { m with mbx := { m.mbx with state := 4 } }
     TurnOf m 0 7 0x0040 c ∧ c.f 0 1 = 1 ∧ c.f 1 1 = 1 ∧ c.f 2 6 = 0 ∧ m.mbx.state = 4) ∧
    (let p := chunkBytes (byteList [2, 0, 0, 0, 0, 0, 0, 0]) 0 8192
     let c := cmd_ 0x0040 5 p
     let f (m : Dg) : Dg := withSession (session_ 5 1 true) { m with part := { m.part with factory := true } }
     TurnOf (cmdDg 0x0040 5 p f) 0 7 0x0040 c ∧ c.role (cmdDg 0x0040 5 p f) = 1 ∧ (cmdDg 0x0040 5 p f).part.factory = true ∧
     (drefData (cmdDg 0x0040 5 p f) { c with payload := byteList [9] } 24).2.toOption = none) ∧
    (∀ op, op = 0x0035 ∨ op = 0x0041 → TurnOf (cmdDg op 5 [] id) 0 7 op (cmd_ op 5 [])) ∧
    (let m : Dg := { appDg id with boot := { Dg.reset.boot with bank := [(0, ⟨.staging, 4096, 4096, none, some (0, 7)⟩)] } }
     (getImg m 0).st = .staging ∧ (getImg m 0).cmd = some (0, 7) ∧ formatOk m 0 = false) ∧
    boundCount (partDg 2 .running (appDg id)) 0 = 1 := by
  refine ⟨?_, ?_, ⟨turn_cmd _ _ _ _ rfl rfl rfl, by decide⟩, ⟨turn_cmd _ _ _ _ rfl rfl rfl, by decide⟩,
    fun _ _ => turn_cmd _ _ _ _ rfl rfl rfl, by decide +kernel, by decide⟩
  · intro off total h
    rcases h with h | h <;> cases h <;> exact ⟨turn_cmd _ _ _ _ rfl rfl rfl, by decide +kernel⟩
  · intro b role h
    rcases h with h | h <;> cases h <;> exact ⟨turn_cmd _ _ _ _ rfl rfl rfl, by decide +kernel⟩

/-- Exesh runs from bank 0; bank 1 is held; a restart may be under way. -/
def restartDg (r : Option Restart) (m : Dg) : Dg :=
  { m with mbx := { m.mbx with state := 2, lanes := 7, restart := r },
           boot := { m.boot with bank := [(1, { (default : CodeBank) with st := .verified })] } }
def restart0 (reset drained : Bool) : Restart := ⟨.resync, 0, none, reset, 0, drained⟩

theorem witness_ExeshRestarts :
    (let c := cmd_ 0x0048 5 (byteList [1])
     let m := cmdDg 0x0048 5 (byteList [1]) (restartDg none)
     TurnOf m 0 7 0x0048 c ∧ c.payload.length = 1 ∧ m.mbx.state ≠ 4 ∧ c.f 0 1 = 1 ∧ imgHeld m 1 = true ∧ m.mbx.bank ≠ 1 ∧
     underBusy m = false ∧ underBusy (withUnder (under_ .running) m) = true) ∧
    (let m0 := restartDg none (appDg id)
     let m : Dg := { m0 with mbx := { m0.mbx with lanes := 3 } }
     m.mbx.lanes ≠ 7 ∧ m.mbx.state = 2 ∧ m.mbx.restart = none ∧ underBusy m = false) ∧
    (let m := restartDg (some (restart0 false false)) (appDg id)
     m.mbx.restart = some (restart0 false false) ∧ m.mbx.out = []) ∧
    (let m := restartDg (some (restart0 false false)) { cmdDg 0x0030 5 [] id with now := 62499999 }
     (∃ d ∈ m.mbx.out, some (d.pair, d.tag) ≠ (restart0 false false).cmd) ∧ m.now < 62500000) ∧
    (restart0 false true).drained = true ∧ (restart0 true true).reset = true ∧
    (let m0 := requestDg (header 0x10 0 0)
     let m : Dg := { m0 with mbx := { m0.mbx with restart := some (restart0 false false) } }
     0 < (getQ m (respQ 0)).free ∧ (hwTake m 0x00 (reqQ 0)).2 = some (mkMsg 0x3FF00 1 0 0 (header 0x10 0 0), 0)) ∧
    (let m := restartDg (some (restart0 true true)) (appDg id)
     restartBank m (restart0 true true) (fun b => if b = 0 then true else true) = some 0 ∧
     restartBank m (restart0 true true) (fun b => if b = 0 then false else false) = none) ∧
    (let m := restartDg none (appDg id)
     m.mbx.lanes = 7 ∧ m.mbx.state = 2 ∧ unpowered m = false ∧ supWdgRuns m = true) ∧
    (∀ now first, (now, first) = (249999 * 125 / 2, true) ∨ (now, first) = (500 * 125 / 2, false) ∨ (now, first) = (49999 * 125 / 2, false) →
      let m : Dg := { appDg id with now := now, supWdg := ⟨0, first, none⟩ }
      supWdgRuns m = true ∧ supCount m < supClose m) ∧
    (let m : Dg := { appDg id with now := 50000 * 125 / 2, supWdg := ⟨0, false, none⟩ }
     supWdgRuns m = true ∧ supClose m ≤ supCount m) ∧
    (let m : Dg := { appDg id with now := 500 * 125 / 2 - 1, supWdg := ⟨0, false, none⟩ }
     supWdgRuns m = true ∧ supCount m < 500) := by
  refine ⟨⟨turn_cmd _ _ _ _ rfl rfl rfl, by decide⟩, by decide, by decide, by decide, by decide, by decide, by decide +kernel, by decide,
    by decide, ?_, by decide, by decide⟩
  intro now first h
  rcases h with h | h | h <;> cases h <;> decide

/-! ### Faults -/

/-- An entry of the log. -/
def entry (src kind : Nat) (live : Bool) : LogEntry :=
  { (default : LogEntry) with msg := { (default : FaultMsg) with src := src, kind := kind }, live := live }

theorem witness_FaultCommands :
    (∀ start count, (start, count) = (0, 1) ∨ (start, count) = (1023, 169) →
      let p := leBytes 2 start ++ leBytes 2 count
      let c := cmd_ 0x0050 5 p
      TurnOf (cmdDg 0x0050 5 p id) 0 7 0x0050 c ∧ c.payload.length = 4 ∧ c.f 0 2 ≤ 1023 ∧ 0 < c.f 2 2 ∧ c.f 2 2 ≤ 169 ∧
      (cmdDg 0x0050 5 p id).fcr.logNext < 1024) ∧
    (∀ src kind, (src, kind) = (0, 0x10) ∨ (src, kind) = (0x10F, 0xFF) →
      let p := leBytes 2 src ++ leBytes 1 kind
      let c := cmd_ 0x0051 5 p
      TurnOf (cmdDg 0x0051 5 p id) 0 7 0x0051 c ∧ c.payload.length = 3 ∧ c.f 0 2 = src ∧ c.f 2 1 = kind ∧
      (∀ live, let m : Dg := { cmdDg 0x0051 5 p id with fcr := { Dg.reset.fcr with log := [(0, entry src 0x10 live)] } }
        (m.fcr.log.any fun e => (e.2.msg.src == src && e.2.msg.kind == 0x10) && e.2.live) = live)) ∧
    (let c := cmd_ 0x0052 5 (leBytes 2 0x10F)
     TurnOf (cmdDg 0x0052 5 (leBytes 2 0x10F) id) 0 7 0x0052 c ∧ c.payload.length = 2 ∧ c.f 0 2 ≤ 0x10F) ∧
    (let p := leBytes 2 0x10F ++ leBytes 2 0 ++ Policy.reset.bytes
     let c := cmd_ 0x0053 5 p
     TurnOf (cmdDg 0x0053 5 p id) 0 7 0x0053 c ∧ c.payload.length = 20 ∧ c.f 0 2 ≤ 0x10F ∧ c.f 2 2 = 0 ∧
     policyFault 0x10F (c.payload.drop 4) = none ∧ policyFault 0x10F (byteList [8, 0, 1, 0, 1]) = some 36) ∧
    (∀ op, op = 0x0054 ∨ op = 0x0055 → TurnOf (cmdDg op 5 [] id) 0 7 op (cmd_ op 5 [])) ∧
    (let m : Dg := { partDg 0 .running (appDg id) with fix := { (default : Fix) with engaged := true } }
     m.fix.engaged = true ∧ releaseHeld m = false) := by
  refine ⟨?_, ?_, ⟨turn_cmd _ _ _ _ rfl rfl rfl, by decide⟩, ⟨turn_cmd _ _ _ _ rfl rfl rfl, by decide⟩,
    fun _ _ => turn_cmd _ _ _ _ rfl rfl rfl, by decide⟩
  · intro start count h
    rcases h with h | h <;> cases h <;> exact ⟨turn_cmd _ _ _ _ rfl rfl rfl, by decide⟩
  · intro src kind h
    rcases h with h | h <;> cases h <;> exact ⟨turn_cmd _ _ _ _ rfl rfl rfl, by decide⟩

/-- Source 0x0D1 has one message in its FIFO. -/
def faultDg (sev : Nat) (p : Policy) : Dg :=
  { partDg 0 .running (appDg id) with
    srcs := [(0x0D1, { (default : FaultSrc) with fifo := [{ (default : FaultMsg) with src := 0x0D1, kind := 0xA2, sev := sev, subject := 0x0D1 }] })],
    fcr := { Dg.reset.fcr with policy := [(0x0D1, some p)] } }

theorem witness_FaultsTaken :
    (∀ sev, sev = 1 ∨ sev = 3 →
      let m := faultDg sev { Policy.reset with normal := 0x03, severe := 0x10, irq := 8, target := 1 }
      fcrDark m = false ∧ (SMap.get m.srcs 0x0D1).fifo.length = 1 ∧ m.fcr.chipSafe = false ∧
      (policyOf m 0x0D1).reactSev ≤ sev ∧ (policyOf m 0x0D1).countSev ≤ sev ∧ (recentCounted m).length < 8 ∧
      inShadow m { (default : FaultMsg) with src := 0x0D1, kind := 0xA2, sev := sev, subject := 0x0D1 } = false) ∧
    (let m0 := faultDg 1 Policy.reset
     let m : Dg := { m0 with fcr := { m0.fcr with shadows := [⟨0x0D1, 0x0D1, none, some 1⟩], counted := List.replicate 8 0 } }
     inShadow m { (default : FaultMsg) with src := 0x0D1 } = true ∧ shadowOver m ⟨0x0D1, 0x0D1, none, some 1⟩ = false ∧
     8 ≤ (recentCounted m).length) ∧
    (let f : FaultSrc := { (default : FaultSrc) with dropped := 1, fifo := List.replicate 7 default, fails := 3 }
     f.dropped ≠ 0 ∧ f.fifo.length < 8 ∧ 4 ≤ f.fails + 1 ∧ (default : FaultSrc).fails + 1 < 4) ∧
    (let m : Dg := { appDg id with now := 1250, fcr := { Dg.reset.fcr with chipReset := some true } }
     m.fcr.chipReset = some true ∧ m.fix.engageTime + 1250 ≤ m.now ∧ fcrDark m = false ∧ m.fcr.clkLost = false) ∧
    (let m : Dg := { appDg id with fix := { (default : Fix) with rampsDone := true }, fcr := { Dg.reset.fcr with chipReset := some false } }
     m.fcr.chipReset = some false ∧ m.fix.rampsDone = true) := by
  refine ⟨?_, by decide, by decide, by decide, by decide⟩
  rintro _ (rfl | rfl) <;> decide

/-- Factory test mode with a Workshop session on pair 31. -/
def factoryDg : Dg :=
  let m := studioDg id
  { m with part := { m.part with factory := true }, ftest := { low := true, words := [] },
           mbx := { m.mbx with sessions := [{ session_ 5 1 true with pair := 31 }] },
           wdg := [(63, { (default : Wdg) with configured := true, owner := 1 })] }

theorem witness_FaultInjection :
    injects factoryDg = true ∧ injects (appDg id) = false ∧ (SMap.get factoryDg.srcs 0x10F).fifo.length < 8 ∧
    linkExists link0 = true ∧ (SMap.get factoryDg.fab.links (lkey link0)).failed = false ∧
    (getWdg factoryDg 63).configured = true ∧ compares factoryDg 0 = true ∧ 2 ∈ lanesCompared factoryDg 0 ∧
    (getCore factoryDg 3).role = .ready ∧ (getCore factoryDg 1).role = .active ∧ compares factoryDg (getCore factoryDg 1).slot = true ∧
    (getCore factoryDg 1).lane ∈ lanesCompared factoryDg (getCore factoryDg 1).slot := by decide

/-- A channel of partition 1 with a hold of 1 ms and a ramp of 2 ms. -/
def channel : FixCh := { (default : FixCh) with configured := true, safe := 100, holdMs := 1, rampMs := 2, owner := 1, holdVal := 40 }
def frame : FixFr :=
  { (default : FixFr) with configured := true, len := 8, periodMs := 10, owner := 1, template := List.replicate 8 0, format := 1 }
def fixDg (engaged : Bool) (tick : Nat) (payload : List Byte) : Dg :=
  { sentDg 5 { q5 with cons0 := 0x70 } payload [] with
    fix := { (default : Fix) with engaged := engaged, tick := tick, ch := [(0, channel), (207, channel)], fr := [(0, frame), (255, frame)] } }

theorem witness_FixativeEvents :
    (let m := fixDg false 0 []
     m.fix.engaged = false ∧ fcrDark m = false ∧ m.boot.under.st ≠ .revertWindow ∧ m.fix.oscBad = false ∧
     (getFixCh m 207).configured = true ∧
     hwPeek (fixDg false 0 [9]) 0x70 5 = some (mkMsg 5 1 0 0 [9], 0)) ∧
    (∀ tick, tick = 9 ∨ tick = 10 ∨ tick = 29 ∨ tick = 30 → (fixDg true tick []).fix.engaged = true ∧ SMap.wf (fixDg true tick []).fix.fr = true) ∧
    (∀ ty, ty = 1 ∨ ty = 2 →
      let p := leBytes 2 1 ++ List.replicate 14 0 ++ byteList [ty, 0, 207, 0, 5, 0, 0, 0]
      let m := fixDg false 0 p
      hwPeek m 0x70 5 = some (mkMsg 5 1 0 0 p, 0) ∧
      (mkMsg 5 1 0 0 p).length = 32 + 8 * leAt (mkMsg 5 1 0 0 p) 16 2 ∧
      ((mkMsg 5 1 0 0 p).drop 18).take 14 = List.replicate 14 0 ∧ leAt (mkMsg 5 1 0 0 p) 32 1 = ty) ∧
    (let m := fixDg false 0 []
     (SMap.get m.fix.fr 255).configured = true ∧ (SMap.get m.fix.fr 255).owner = 1 ∧ (getFixCh m 207).owner = 1) := by
  refine ⟨by decide +kernel, ?_, ?_, by decide⟩
  · rintro _ (rfl | rfl | rfl | rfl) <;> decide
  · rintro _ (rfl | rfl) <;> decide +kernel

/-- Watchdog 63 of partition 1, with a window of 100 to 200 ticks of 10 µs; `now` units have passed since a service. -/
def wdgDg (now : Nat) : Dg :=
  { appDg id with
    now := now,
    wdg := [(63, { (default : Wdg) with
      configured := true, owner := 1, source := 0x0E1, prescM1 := 31, openT := 100, closeT := 200, firstClose := 400, cpmask := 6,
      run := ⟨0, some 0, false, 0, 0xACE1, 2⟩ })] }

theorem witness_Watchdogs :
    isShadowCtx (wdgDg 0) 0 = false ∧ runnable (wdgDg 0) 0 = true ∧ irqDue (getCtx (wdgDg 0) 0) = false ∧
    drainWaits (wdgDg 0) 0 = false ∧ entryWaits (wdgDg 0) 0 4 = false ∧ drainAll (wdgDg 0) 0 = wdgDg 0 ∧ (getWdg (wdgDg 0) 62).configured = false ∧
    (getWdg (wdgDg 0) 63).configured = true ∧ (getWdg (wdgDg 0) 63).owner = (getCtx (wdgDg 0) 0).pid ∧ wdgRuns (wdgDg 0) 63 = true ∧
    (getWdg (wdgDg 0) 63).suppressed = false ∧
    (∀ now n, (now, n) = (499, 99) ∨ (now, n) = (500, 100) ∨ (now, n) = (999, 199) ∨ (now, n) = (1000, 200) →
      (getWdg (wdgDg now) 63).run.count (getWdg (wdgDg now) 63) (wdgDg now).now = n) ∧
    (getWdg (wdgDg 0) 63).cpmask &&& ~~~(getWdg (wdgDg 0) 63).run.seen ≠ 0 ∧
    wdgRuns { wdgDg 0 with stu := default } 63 = false := by
  refine ⟨by decide, by decide, by decide, by decide, by decide, by decide, by decide, by decide, by decide, by decide, by decide,
    ?_, by decide, by decide⟩
  intro now n h
  rcases h with h | h | h | h <;> cases h <;> decide

/-! ### Power -/

def withPwr (f : Pwr → Pwr) (m : Dg) : Dg := { m with pwr := f m.pwr }
/-- The start has ended. -/
def liveDg : Dg := { appDg id with boot := default }

theorem witness_PowerModes :
    (let c := cmd_ 0x0081 5 (byteList [3])
     TurnOf (cmdDg 0x0081 5 (byteList [3]) id) 0 7 0x0081 c ∧ c.payload.length = 1 ∧ c.f 0 1 = 3 ∧
     (cmdDg 0x0081 5 (byteList [3]) id).net.ign = 0 ∧ (cmdDg 0x0081 5 (byteList [3]) id).pwr.mode ≠ .shutdownTest) ∧
    (∀ now, now = 10 * 62500000 ∨ now = 10 * 62500000 - 1 →
      let m := withPwr (fun p => { p with keyOff := some 0 }) { liveDg with now := now }
      m.pwr.keyOff = some 0 ∧ m.pwr.mode = .drive ∧ unpowered m = false ∧ m.boot.due = none ∧ m.fix.engaged = false ∧
      m.boot.under.st ≠ .revertWindow ∧ modField m 24 4 10 * 62500000 = 625000000) ∧
    (let m := withPwr (fun p => { p with request := some true }) { liveDg with fix := { (default : Fix) with engaged := true, rampsDone := true } }
     m.fix.engaged = true ∧ m.fix.rampsDone = true ∧ m.pwr.request = some true) ∧
    (let m := withPwr (fun p => { p with mode := .shutdownTest }) { liveDg with boot := { (default : Boot) with test := some ⟨[59], [59]⟩ } }
     m.pwr.mode = .shutdownTest ∧ unpowered m = false ∧ m.boot.test = some ⟨[59], [59]⟩ ∧ 59 ∈ underTest ⟨[59], [59]⟩ ∧ m.net.ign = 0) ∧
    (let m := withPwr (fun p => { p with mode := .park }) { liveDg with now := 43200 * 60 * 62500000, cfg := [record 1 (List.replicate 36 0 ++ [1, 128])] }
     m.pwr.mode = .park ∧ m.pwr.loss = false ∧ bit (modField m 36 2 0) 15 = true ∧ bit (modField m 36 2 0) 1 = false) ∧
    (bit liveDg.net.ign 0 = false ∧ bit liveDg.net.ign 1 = false) ∧
    (∀ op x, (op, x) = (0x0070, 2) ∨ (op, x) = (0x0071, 39) →
      let c := cmd_ op 5 (byteList [x])
      let f (m : Dg) : Dg := { m with stu := { m.stu with core := [(39, core_ .excluded 0 0)] } }
      TurnOf (cmdDg op 5 (byteList [x]) f) 0 7 op c ∧ c.payload.length = 1 ∧ c.f 0 1 = x ∧
      (getCore (cmdDg op 5 (byteList [x]) f) 39).role = .excluded) ∧
    (∀ op, op = 0x0080 ∨ op = 0x0082 → TurnOf (cmdDg op 5 [] id) 0 7 op (cmd_ op 5 [])) := by
  refine ⟨⟨turn_cmd _ _ _ _ rfl rfl rfl, by decide⟩, ?_, by decide, by decide, by decide, by decide, ?_, fun _ _ => turn_cmd _ _ _ _ rfl rfl rfl⟩
  · rintro _ (rfl | rfl) <;> decide
  · intro op x h
    rcases h with h | h <;> cases h <;> exact ⟨turn_cmd _ _ _ _ rfl rfl rfl, by decide⟩

theorem witness_SupplyClocksDomains :
    (let m := withPwr (fun p => { p with inA := ⟨true, 1200, false⟩, inB := ⟨true, 1200, false⟩, lock := 15 }) { liveDg with now := 62500000 }
     m.pwr.supplyLow = false ∧ m.pwr.loss = false ∧ (getInput m 0).ok = true ∧ (getInput m (1 - 0)).ok = true ∧
     unpowered m = false ∧ m.pwr.holdupLow = false ∧ m.boot.t0 + 62500000 ≤ m.now ∧ m.pwr.thermWarn = false ∧ m.pwr.thermCrit = false ∧
     m.pwr.ext3v3 = true ∧ bit m.pwr.xtalFail 2 = false ∧ (SMap.get m.pwr.dom 60).on = true ∧ (SMap.get m.pwr.dom 0).on = true ∧
     bit m.pwr.lock 3 = true ∧ bit m.pwr.lock 1 = true ∧ bit m.pwr.failover 1 = false) ∧
    (let m := withPwr (fun p => { p with loss := true, mode := .off }) liveDg
     m.pwr.loss = true ∧ m.sec.sealing = none) ∧
    (let m := withPwr (fun p => { p with lock := 1, ext3v3 := false, dom := SMap.set p.dom 57 ⟨true, true, false⟩ }) liveDg
     bit m.pwr.lock 0 = true ∧ bit m.pwr.lock 2 = false ∧ m.pwr.ext3v3 = false ∧ (SMap.get m.pwr.dom 57).held = true) ∧
    (isCond kTrngHealth = true ∧ condSource 0x0D1 kTrngHealth = true ∧ causeHeld liveDg 0x0D1 kTrngHealth = false) := by decide

/-! ### Journal, engines and cards -/

/-- The journal holds records 1 and 2, and the next is 3. -/
def journalDg (m : Dg) : Dg :=
  { m with sec := { m.sec with ctr := [(9, ⟨3, false⟩), (10, ⟨3, false⟩), (11, ⟨3, false⟩)], unsealed := 1, journalReady := true } }

theorem witness_JournalCommands :
    (let p := byteList ([1, 0, 0, 0, 0, 0, 0, 0] ++ List.replicate 64 0)
     let c := cmd_ 0x0060 0 p
     let m := cmdDg 0x0060 0 p journalDg
     TurnOf m 0 7 0x0060 c ∧ c.payload.length = 72 ∧ c.f 0 1 = 1 ∧ c.f 1 7 = 0 ∧ (∀ k, k < 3 → ctrCopy m 3 k = ⟨3, false⟩) ∧
     3 + 1 < m.sec.unsealed + 256 ∧ domOn m 51 = true) ∧
    (let p := leBytes 8 1 ++ byteList [63]
     let c := cmd_ 0x0061 5 p
     let m := cmdDg 0x0061 5 p journalDg
     TurnOf m 0 7 0x0061 c ∧ c.payload.length = 9 ∧ c.f 8 1 = 63 ∧ m.errs = [] ∧ domOn m 51 = true) ∧
    (∀ op, op = 0x0063 ∨ op = 0x0064 → TurnOf (cmdDg op 5 [] journalDg) 0 7 op (cmd_ op 5 [])) ∧
    (let m := journalDg (appDg id)
     lastSealed m ≠ ctrValue m 3 - 1 ∧ m.sec.sealing = none ∧ m.sec.unsealed < ctrValue m 3 ∧ m.sec.sealNext = none ∧
     m.sec.chainBreak = none ∧ m.sec.journalReady = true) ∧
    (∀ kat, kat = 0 ∨ kat = 8 → let m0 := journalDg (appDg id)
     let m : Dg := { m0 with sec := { m0.sec with sealing := some ⟨1, 2, 0, 0⟩, katFail := kat } }
     m.sec.sealing.isSome = true ∧ m.sec.sealNext = none ∧ exeshDown m = false ∧ (signersUp m = true ↔ kat = 0)) ∧
    (let m0 : Dg := { appDg id with now := 62500000 }
     let m : Dg := { m0 with sec := { m0.sec with rtcUs := dayUs - 500000 } }
     let left := (m.now - m.sec.rtcAt) * 2 / 125
     dayUs ≤ m.sec.rtcUs + left ∧ m.sec.rtcUs + left < dayUs + 1000000) ∧
    (let m0 := journalDg (appDg id)
     let m : Dg := { m0 with now := 3600 * 62500000 }
     m.sec.unsealed < ctrValue m 3 ∧ m.sec.unsealedAt + 3600 * 62500000 ≤ m.now) ∧
    (let p := leBytes 8 1 ++ leBytes 8 2
     let c := cmd_ 0x0062 5 p
     let m := cmdDg 0x0062 5 p fun m => journalDg (withSession (session_ 5 2 true) m)
     TurnOf m 0 7 0x0062 c ∧ c.payload.length = 16 ∧ ¬ (c.f 8 8 < c.f 0 8 ∨ c.f 0 8 < oldestHeld (ctrValue m 3) ∨ ctrValue m 3 ≤ c.f 8 8) ∧
     exportRuns m = false ∧ c.role m ≠ 6 ∧ (session_ 5 6 true).role = 6 ∧ ctrValue (ctrSettle m 3) 3 = ctrValue m 3) ∧
    (let m := cmdDg 0x0062 5 [] fun m =>
       { m with sec := { m.sec with exporting := some ⟨(0, 7), 2, 2, 2, 0, 2, 1, 2, 0, 0⟩ } }
     m.sec.exporting.isSome = true ∧ findCmd m 0 7 = some (cmd_ 0x0062 5 []) ∧ signersUp m = true ∧
     signersUp { m with sec := { m.sec with katFail := 8 } } = false) ∧
    (let p := leBytes 8 1700000000 ++ leBytes 4 0
     let c := cmd_ 0x0083 5 p
     let m := cmdDg 0x0083 5 p (withSession (session_ 5 2 true))
     TurnOf m 0 7 0x0083 c ∧ c.payload.length = 12 ∧ ¬ (c.f 0 8 * 1000 < rtcFloor m) ∧ c.role m ≠ 4) := by
  refine ⟨⟨turn_cmd _ _ _ _ rfl rfl rfl, by decide⟩, ⟨turn_cmd _ _ _ _ rfl rfl rfl, by decide⟩, fun _ _ => turn_cmd _ _ _ _ rfl rfl rfl,
    by decide, ?_, by decide, by decide, ⟨turn_cmd _ _ _ _ rfl rfl rfl, by decide⟩, by decide, ⟨turn_cmd _ _ _ _ rfl rfl rfl, by decide⟩⟩
  rintro _ (rfl | rfl) <;> decide

/-- A job of SHA-384 over 3 bytes in line: tag 9. -/
def shaJob : List Byte := byteList ([9, 0, 1, 0] ++ List.replicate 24 0 ++ [3, 0, 0, 0] ++ List.replicate 40 0 ++ [97, 98, 99])
/-- Jobs in queue 5, answers in queue 6, for partition 1. -/
def secRec : CfgRec := record 0x22 [1, 0, 0, 0, 5, 0, 0, 0, 6, 0, 0, 0, 0, 0, 0, 0]

theorem witness_EnginesAndCards_activation :
    ∀ st cmd, (st, cmd) = (CardSt.present, none) ∨ (st, cmd) = (.active, none) ∨ (st, cmd) = (.present, some (0, 9)) →
      let p := byteList [4, 0, 0, 0, 0, 0, 0, 0]
      let c := cmd_ 0x0002 5 p
      let ss := { session_ 5 6 false with card := 1 }
      let m := cmdDg 0x0002 5 p fun m =>
        { withSession ss m with sec := { m.sec with card := [(1, { (default : CardSlot) with st := st, authCmd := cmd })] } }
      TurnOf m 0 7 0x0002 c ∧ sessionOf m 5 = some ss ∧ ss.role = 6 ∧ ss.auth = false ∧ c.f 0 1 = 4 ∧ c.f 1 1 < 4 ∧ c.f 2 2 = 0 ∧
      proofLenOk 4 (c.f 4 4) = true ∧ c.payload.length = 8 + c.f 4 4 ∧ (getCard m 1).st = st ∧ (getCard m 1).authCmd = cmd := by
  intro st cmd h
  rcases h with h | h | h <;> cases h <;> exact ⟨turn_cmd _ _ _ _ rfl rfl rfl, by decide⟩

theorem witness_EnginesAndCards :
    (let m0 := sentDg 5 { q5 with slotLog := 2, cons0 := 0x5B } shaJob [secRec]
     let m : Dg := { m0 with sec := { m0.sec with keysReady := true } }
     exeshJobs m = false ∧ exeshJobs { m with sec := { m.sec with sealing := some ⟨1, 2, 0, 0⟩ } } = true ∧
     secQueue m 5 = some secRec ∧ secTurn m = some 5 ∧ secTurn m ≠ some 6 ∧ m.sec.keysReady = true ∧
     hwPeek m 0x5B 5 = some (mkMsg 5 1 0 0 shaJob, 0) ∧ 0 < (getQ m (secRec.f 8 4)).free ∧ leAt (mkMsg 5 1 0 0 shaJob) 18 1 = 1) ∧
    (hasLand Dg.reset 8 1 = true ∧ (getCard Dg.reset 1).st = .empty) ∧
    (let m := cmdDg 0x0002 5 [] fun m =>
       { withSession { session_ 5 6 false with card := 1 } m with sec := { m.sec with card := [(1, { (default : CardSlot) with st := .present, authCmd := some (0, 7) })] } }
     (getCard m 1).authCmd = some (0, 7) ∧ findCmd m 0 7 = some (cmd_ 0x0002 5 []) ∧ (sessionOf m 5).isSome = true) ∧
    (let r := record 0x1F ([1, 1] ++ List.replicate 22 0 ++ [5, 0, 0, 0, 6, 0, 0, 0])
     let p := leBytes 16 (pack [(8, 1), (8, 7)]) ++ [7]
     let m0 := sentDg 5 { q5 with cons0 := 0x5C } p [r]
     let m : Dg := { m0 with sec := { m0.sec with card := [(1, { (default : CardSlot) with st := .authenticated, ref := 3 })] } }
     let msg := mkMsg 5 1 0 0 p
     recBy m 0x001F 0 1 1 = some r ∧ (getCard m 1).st = .authenticated ∧ (getCard m 1).authCmd = none ∧
     hwPeek m 0x5C (r.f 24 4) = some (msg, 0) ∧ (getQ m 5).prod (genOf m (getQ m 5)) = r.f 1 1 ∧
     txFits msg 1 [7] = true ∧ leAt msg 20 4 = 0 ∧ txFits msg 2 [7] = false ∧
     dropReason (hwTake m 0x5C 5).1 6 0x5C 18 = some 0 ∧
     dropReason (hwTake { m with fab := { m.fab with q := SMap.upd m.fab.q 6 fun x => { x with prod0 := 0x5C } } } 0x5C 5).1 6 0x5C 18 = none) := by
  refine ⟨by decide +kernel, by decide, by decide, by decide +kernel⟩

/-! ### Plant I/O and networks -/

/-- The OWNER record of a unit. -/
def owner (cls unit pid : Nat) : CfgRec := record 0x0F [cls, 0, unit, 0, pid, 0, 0, 0]

theorem witness_PlantIo :
    (∀ ty, ty = 1 ∨ ty = 2 ∨ ty = 3 ∨ ty = 4 ∨ ty = 5 →
      let p := leBytes 2 1 ++ List.replicate 14 0 ++ byteList [ty, 0, 0, 0, 2, 0, 0, 0]
      let m := sentDg 5 { q5 with cons0 := 0x5A } p []
      let msg := mkMsg 5 1 0 0 p
      hwPeek m 0x5A 5 = some (msg, 0) ∧ leAt msg 32 1 = ty ∧
      msg.length = 32 + 8 * leAt msg 16 2 ∧ (msg.drop 18).take 14 = List.replicate 14 0) ∧
    (∀ ty mode, (ty, mode) = (1, 3) ∨ (ty, mode) = (2, 3) ∨ (ty, mode) = (3, 2) ∨ (ty, mode) = (4, 0) ∨ (ty, mode) = (5, 0) →
      let m0 := { appDg id with cfg := [owner 4 0 1, owner 5 0 1, owner 9 0 1, record 0x1C [0, 0, 0, 0, 0, 16]] }
      let m : Dg := { m0 with net := { m0.net with
        tmr := [(0, { (default : Timer) with mode := mode })], gpio := [(0, { (default : Gpio) with mode := some 1 })] } }
      let e := byteList [ty, 0, 0, 0, 2, 0, 0, 0]
      e.length = 8 ∧ opened m (if ty = 4 then 5 else if ty = 5 then 9 else 4) 0 = true ∧
      ownerOf m (if ty = 4 then 5 else if ty = 5 then 9 else 4) 0 = some 1 ∧ leAt e 1 1 = 0 ∧ leAt e 4 4 = 2 ∧
      (getTmr m 0).mode = mode ∧ (getGpio m 0).mode = some 1 ∧ (recBy m 0x001C 0 1 0).map (fun r => r.f 2 1) = some 0 ∧ m.fix.engaged = false) ∧
    (let m0 := { appDg id with cfg := [owner 7 5 1, record 0x1B [5, 0, 10, 0, 1, 0, 0, 0], owner 6 23 1, record 0x1C [3, 1, 2, 0, 0, 8]] }
     let m : Dg := { m0 with net := { m0.net with tmr := [(95, { (default : Timer) with mode := 1, opt := 3 })] } }
     (recBy m 0x001B 0 1 5).isSome = true ∧ opened m 7 5 = true ∧ (scanWith m 23).isSome = true ∧ opened m 6 23 = true ∧
     (getTmr m 95).mode = 1 ∧ (getTmr m 95).opt = 3 ∧ bit m.net.adcBad 1 = false ∧ gpioDrives m 47 = none) ∧
    (let m0 := appDg id
     let m : Dg := { m0 with net := { m0.net with gpio := [(47, { (default : Gpio) with mode := some 1, curLevel := true, curDriven := true, differ := 2 })] } }
     gpioDrives m 47 = some true ∧ (getGpio m 47).differ = 2 ∧ ∀ k, k < 48 → (getGpio m k).differ = 2 → k = 47) ∧
    (∀ cls port depth, (cls, port, depth) = (1, 15, 1) ∨ (cls, port, depth) = (3, 9, 4) ∨ (cls, port, depth) = (6, 0, 1) →
      let p := byteList [cls, port, depth, 0] ++ leBytes 4 100000
      let c := cmd_ 0x0090 5 p
      let m := cmdDg 0x0090 5 p (withSession (session_ 5 3 true))
      TurnOf m 0 7 0x0090 c ∧ c.payload.length = 8 ∧ c.f 0 1 = cls ∧ c.f 4 4 = 100000 ∧ loopPort cls port = true ∧
      (loopDepth cls port depth).isSome = true ∧ c.f 3 1 = 0 ∧ c.role m = 3 ∧ loopOwner m cls port = none ∧
      fixHolds m cls port = false ∧ m.net.loops = []) ∧
    (let c := cmd_ 0x0091 5 (byteList [1, 15])
     let l : Loop := ⟨(0, 7), 1, 15, 1, 10⟩
     let m := cmdDg 0x0091 5 (byteList [1, 15]) fun m => { m with net := { m.net with loops := [l] } }
     TurnOf m 0 7 0x0091 c ∧ c.payload.length = 2 ∧ loopPort (c.f 0 1) (c.f 1 1) = true ∧
     (m.net.loops.find? fun l => l.cls == c.f 0 1 && l.index == c.f 1 1) = some l ∧
     (m.net.loops.find? fun l => l.cmd == (0, 7)) = some l ∧ findCmd m l.cmd.1 l.cmd.2 = some c) := by
  refine ⟨?_, ?_, by decide, by decide, ?_, turn_cmd _ _ _ _ rfl rfl rfl, by decide⟩
  · rintro _ (rfl | rfl | rfl | rfl | rfl) <;> decide +kernel
  · intro ty mode h
    rcases h with h | h | h | h | h <;> cases h <;> decide
  · intro cls port depth h
    rcases h with h | h | h <;> cases h <;> exact ⟨turn_cmd _ _ _ _ rfl rfl rfl, by decide⟩

/-- CAN controller 15: every format, queue 5 to transmit; one filter that passes every base identifier to queue 6. -/
def canCfg : List CfgRec :=
  [record 0x11 ([15, 7, 10, 0] ++ List.replicate 28 0 ++ [5, 0, 0, 0] ++ List.replicate 28 255),
   record 0x12 ([15, 0, 0, 7, 0, 0, 0, 0, 0, 0, 0, 128] ++ List.replicate 4 0 ++ [6, 0, 0, 0])]
/-- LIN controller 0: two entries, the first published from queue 5. -/
def linCfg : List CfgRec := [record 0x13 ([0, 0, 0, 0, 6, 0, 0, 0] ++ List.replicate 8 0 ++ [2, 0, 0, 0, 0, 0, 0, 0, 9, 0, 0, 0, 5, 0, 0, 0, 10, 1, 0, 0, 255, 255, 255, 255])]
/-- A frame to send: port, format 1, identifier 0x123, one byte. -/
def txBytes (port format id : Nat) : List Byte := leBytes 16 (pack [(8, port), (8, format), (16, 0), (32, id)]) ++ [7]

theorem witness_BusControllers :
    (let m0 := sentDg 5 { q5 with cons0 := 0x4F } (txBytes 15 1 0x123) canCfg
     let m := updCan m0 15 fun c => { c with st := .active }
     let f : Frame := ⟨1, 0, 0x123, [7]⟩
     (canRec m 15).isSome = true ∧ (getCan m 15).st = .active ∧ (getCan m 15).rec_ ≤ 127 ∧ (filterOf m 15 f).isSome = true ∧
     filterOf m 15 ⟨2, 1, 0x123, [7]⟩ = none ∧ (canRec m 15).map canQueues = some [5] ∧
     headFor m (0x40 + 15) 5 = some (mkMsg 5 1 0 0 (txBytes 15 1 0x123), 0) ∧
     (canRec m 15).map (fun r => (bit (r.f 1 1) 0, canFits r 15 (mkMsg 5 1 0 0 (txBytes 15 1 0x123)))) = some (true, true) ∧
     (getCan m 15).offered = none ∧ m.fix.engaged = false) ∧
    (let m0 := { appDg id with now := 625000, cfg := canCfg }
     let m := updCan m0 15 fun c => { c with st := .busOff }
     (getCan m 15).st = .busOff ∧ (canRec m 15).map (fun r => decide ((getCan m 15).offAt + r.f 2 2 * 62500 ≤ m.now)) = some true) ∧
    (let m := updCan (appDg id) 15 fun c => { c with st := .active, offered := some ⟨false, 5, [1]⟩, rec_ := 128 }
     (getCan m 15).offered = some ⟨false, 5, [1]⟩ ∧ (getCan m 15).st = .active ∧ 127 < (getCan m 15).rec_ ∧
     ((recs m 0x0012).all fun x => !(x.f 0 1 == 15 && filterMatches x ⟨1, 0, 5, []⟩)) = true) ∧
    (∀ master, let m0 := sentDg 5 { q5 with cons0 := 0x50 } (txBytes 0 4 9) linCfg
      let m := updLin m0 0 fun l => { l with st := .active, master := master }
      let msg := mkMsg 5 1 0 0 (txBytes 0 4 9)
      (linRec m 0).isSome = true ∧ (getLin m 0).st = .active ∧ (getLin m 0).await = none ∧
      (linRec m 0).map (fun r => (r.f 16 2, linEntry r 0, linEntry r 1)) = some (2, (9, 0, 5), (10, 1, 0xFFFFFFFF)) ∧
      headFor m 0x50 5 = some (msg, 0) ∧ linFits 0 9 msg = true ∧
      headFor (updLin { m with fab := default } 0 fun l => { l with sent := [(9, some [1])] }) 0x50 5 = none) ∧
    (getLin (updLin (appDg id) 7 fun l => { l with st := .sleep }) 7).st = .sleep := by
  refine ⟨by decide +kernel, by decide, by decide, ?_, by decide⟩
  intro master
  cases master <;> decide +kernel

/-- Port 0: 100 Mbit/s, present, frames of up to 1522 bytes, MACsec keys in queue 5 from partition 1; port 12 sends from
queue 5; frames to address 1 leave by port 1. -/
def ethCfg : List CfgRec :=
  [record 0x14 ([0, 1, 0x19, 0, 0, 1, 0xF2, 5] ++ List.replicate 8 0 ++ [5, 0, 0, 0]), record 0x16 ([12, 2, 0, 0, 0, 0, 0, 0, 5, 0, 0, 0]),
   record 0x15 [1, 0, 0, 0, 0, 0, 0, 0, 2, 0], record 0x18 ([0, 0, 0, 0, 0, 0, 0, 0, 4, 4] ++ List.replicate 6 0), record 0x21 [0],
   record 0x0E ([2, 0x58] ++ List.replicate 30 0), record 0x1E [0, 0, 0, 0, 6, 0, 0, 0, 5, 0, 0, 0], owner 10 0 1]
def ethDg (cons : Nat) (payload : List Byte) (f : Net → Net) : Dg :=
  let m := sentDg 5 { q5 with cons0 := cons } payload ethCfg
  { m with boot := default, net := f { m.net with
      eth := [(0, { (default : EthPort) with st := .up, egress := [⟨false, 0, [1]⟩] }), (1, { (default : EthPort) with st := .up })] } }
def pcieUp (x : Net) : Net := { x with pci := { x.pci with up := true } }

/-- TSN of port 0: a filter of stream 7 at gate 1, for frames of up to 100 bytes; the gate is open or not; recovery of stream 9,
and sequence tags for stream 8; a shaper and a gate list of the egress. -/
def tsnCfg (open_ : Nat) : List CfgRec :=
  [record 0x17 [0, 3, 0, 0, 0, 0, 0, 0, 7, 0, 3, 0, 1, 0, 255, 255, 100, 0, 0, 0],
   record 0x17 ([0, 4, 1] ++ List.replicate 13 0 ++ [16, 39, 0, 0, 1, 0, 0, 0, open_, 255, 0, 0, 16, 39, 0, 0]),
   record 0x17 ([0, 2, 0] ++ List.replicate 13 0 ++ [16, 39, 0, 0, 1, 0, 0, 0, 0x7F, 0, 0, 0, 16, 39, 0, 0]),
   record 0x17 ([0, 6, 0, 0, 0, 0, 0, 0, 5] ++ List.replicate 7 0 ++ [0, 1, 0, 0, 0, 0, 0, 0])]

theorem witness_EthernetPcieGnss_tsn :
    (∀ o, o = 0 ∨ o = 1 →
      let m : Dg := { appDg id with cfg := tsnCfg o }
      ((tsnRecs m 3 0).map fun r => (r.f 8 2, r.f 10 1, r.f 12 2, r.f 14 2, r.f 16 4)) = [(7, 3, 1, 0xFFFF, 100)] ∧
      ((tsnRec m 4 0 1).bind fun g => (gateNow m g).map fun e => (bit e.1 0, e.2)) = some (decide (o = 1), 255) ∧
      (tsnRecs m 3 1 = [] ∧ tsnRecs m 2 1 = [] ∧ shaperOf m 1 5 = none)) ∧
    (let m : Dg := { appDg id with cfg := tsnCfg 1 }
     ((tsnRecs m 2 0).head?.bind fun r => (gateNow m r).map fun e => bit e.1 7) = some false ∧ m.fix.engaged = false ∧
     (shaperOf m 0 5).map (fun r => decide (creditNow (updEth m 0 fun x => { x with credit := [(5, ⟨-1, 0⟩)] }) 0 5 r < 0)) = some true) ∧
    (let x : Frer := ⟨true, 10, 1, 0, 0⟩
     x.live = true ∧ 0 ≤ x.at_ + 4 * 62500 ∧ (x.seq + 65536 - 10) % 65536 < 8 ∧ bit x.hist 0 = true ∧
     (x.seq + 65536 - 9) % 65536 < 8 ∧ bit x.hist 1 = false ∧ 8 ≤ (x.seq + 65536 - 12) % 65536 ∧ (12 + 65536 - x.seq) % 65536 < 8 ∧
     8 ≤ (x.seq + 65536 - 1000) % 65536 ∧ 8 ≤ (1000 + 65536 - x.seq) % 65536) := by
  refine ⟨?_, by decide, by decide⟩
  rintro _ (rfl | rfl) <;> decide

/-- A response of pair 31 to tag 7, whose request came from MAC 9 by port 0. -/
theorem witness_EthernetPcieGnss_response :
    let m0 := sentDg 0x3FF3F { q5 with base := 0x20004000 / 64, cons0 := 0x3F } (header 0 0 0) ethCfg
    let m1 := updEth m0 0 fun x => { x with st := .up }
    let m : Dg := { m1 with easel := { m1.easel with macs := [(7, some (0, 9))] } }
    let msg := mkMsg 0x3FF3F 1 0 0 (header 0 0 0)
    (getEth m 0).st = .up ∧ m.fix.engaged = false ∧ (getEth m 0).egress = [] ∧ hwPeek m 0x3F (respQ 31) = some (msg, 0) ∧
    easelReturn m msg = some (0, 9) ∧ tapResponse m = none ∧ easelReturn m0 msg = none := by decide +kernel

/-- The host's window covers the first bank; a ring of partition 1 lies in it. -/
theorem witness_EthernetPcieGnss_host :
    let m0 := ethDg 0x58 [] pcieUp
    let m : Dg := { m0 with cfg := m0.cfg ++ [record 3 ([0x3E, 3, 1, 0, 0, 0, 0, 0] ++
      ([0x20000000, 0x80000].flatMap fun n => (leBytes 8 n).map (·.toNat)))] }
    hostReach m true 0x20000000 8 = .allowed ∧ hostReach m false 0x20000000 8 = .allowed ∧
    hostReach m true 0x20002000 8 = .guarded 5 ∧ hostReach m true 0x20080000 8 = .denied ∧
    spanIn m false .canvas 0x60000000 8 = false ∧ spanIn m false .dram 0x60000000 8 = false := by decide +kernel


theorem witness_EthernetPcieGnss :
    (let m := ethDg 0x58 [] id
     (getEth m 0).st = .up ∧ maxFrame m 0 = 1522 ∧ (getEth m 0).macsec = false ∧ egressOf m 1 0 = 2 ^ 1 ∧ (getEth m 1).st = .up ∧
     m.fix.engaged = false ∧ m.boot.due = none ∧ (getEth m 11).st ≠ .up ∧ (getEth m 0).egress = ⟨false, 0, [1]⟩ :: [] ∧
     (portRec m 0).isSome = true ∧ (recs m 0x0018).head?.map (fun r => (r.f 8 1, r.f 9 1)) = some (4, 4) ∧ m.net.pci.up = false) ∧
    (let p := txBytes 12 5 7 ++ List.replicate 13 0
     let m := ethDg 0x58 p id
     let msg := mkMsg 5 1 0 0 p
     headFor m (0x4C + 12) 5 = some (msg, 0) ∧ pairOfResp m 12 5 = none ∧ txFits msg 12 [5] = true ∧ leAt msg 20 4 < 2 ^ 19 ∧
     (msg.drop 32).length = 14 ∧ (recs m 0x0016).any (fun r => r.f 0 1 == 12 && r.f 1 1 == 2 && r.f 8 4 == 5) = true) ∧
    (let m := ethDg 0x58 [1] id
     headFor m 0x58 5 = some (mkMsg 5 1 0 0 [1], 0) ∧ (portRec m 0).map (fun r => (r.f 16 4, r.f 5 1)) = some (5, 1) ∧
     producerOf m 5 = 1 ∧ requesterOf m 2 = 0x4C + 12) ∧
    (let m0 := ethDg 0x58 [] fun x => pcieUp { x with gptpSync := 3 }
     let m := updCtx m0 0 fun x => { x with pcie := some ⟨0x26, 2, 0x10000000008, none, 0x20000004, [], []⟩ }
     m.net.pci.up = true ∧ bit m.net.gptpSync 1 = true ∧ (getCtx m 0).pcie.isSome = true ∧ halted m 0 = false ∧ recs m 0x0018 ≠ [] ∧
     hostReach m false 0x20000000 1 = .denied) ∧
    (∀ dir, dir = 1 ∨ dir = 2 →
      let m0 := ethDg 0x3E [] pcieUp
      let m1 := updQ m0 5 fun x => { x with prod0 := 0x3E }
      let m : Dg := { m1 with fab := { m1.fab with handles := [(4096 * 0x3E + 4095, ⟨5, dir, 0⟩)] } }
      (SMap.get m.fab.handles (4096 * 0x3E + 4095)).dir = dir ∧ (getQ m 5).prod (genOf m (getQ m 5)) = 0x3E ∧
      (getQ m 5).cons (genOf m (getQ m 5)) = 0x3E ∧ queueUsable m (getQ m 5) = true ∧ 0 < (getQ m 5).count ∧ 3 ≤ (getQ m 5).free ∧
      (getQ m 5).cls ≠ 0) ∧
    (let p := leBytes 16 (6 * 256) ++ [7]
     let m := ethDg 0x5D p id
     let msg := mkMsg 5 1 0 0 p
     (gnssRec m).map (fun r => (r.f 4 4, r.f 8 4)) = some (6, 5) ∧ headFor m 0x5D 5 = some (msg, 0) ∧ txFits msg 0 [6] = true ∧
     leAt msg 20 4 = 0) ∧
    (∀ now, now = 62496875 ∨ now = 62503125 →
      let m : Dg := { appDg id with now := now, sec := { Dg.reset.sec with ppsAt := some 0, ppsCount := 2, pps := true } }
      m.sec.ppsAt = some 0 ∧ 62496875 ≤ m.now - 0 ∧ m.now - 0 ≤ 62503125 ∧ 2 ≤ m.sec.ppsCount ∧ m.sec.pps = true ∧
      m.sec.restored = false ∧ m.sec.disagree = false ∧ m.now ≤ 0 + 131250000) ∧
    (let m : Dg := { appDg id with sec := { Dg.reset.sec with restored := true } }
     m.sec.restored = true ∧ rtcFloor m ≤ 1800000000 * 1000) := by
  refine ⟨by decide, by decide +kernel, by decide +kernel, by decide, ?_, by decide +kernel, ?_, by decide⟩
  · rintro _ (rfl | rfl) <;> decide
  · rintro _ (rfl | rfl) <;> decide

/-! ### Easel -/

/-- The session has group slot 0 attached; the group is halted or not. -/
def easelDg (halt : Bool) (m : Dg) : Dg :=
  let m := { m with easel := { m.easel with attach := [⟨1, 0, 5⟩] } }
  updGrp m 0 fun g => { g with halt := halt }

theorem witness_EaselCommands :
    (let p := byteList [1, 0, 0, 0]
     TurnOf (cmdDg 0x0092 5 p id) 0 7 0x0092 (cmd_ 0x0092 5 p) ∧ (cmd_ 0x0092 5 p).payload.length = 4 ∧
     targetFault (cmd_ 0x0092 5 p) = none ∧ attached (cmdDg 0x0092 5 p id) (cmd_ 0x0092 5 p) = none ∧ (cmd_ 0x0092 5 p).f 0 1 ≠ 3) ∧
    (∀ op len sup guarded frozen halt, (op, len, sup, guarded, frozen, halt) ∈
        ([(0x0093, 4, true, false, false, false), (0x0094, 4, false, true, false, false), (0x0095, 4, false, false, false, true),
          (0x0096, 8, false, true, true, true), (0x0097, 8, true, false, false, false), (0x0098, 24, false, true, true, true),
          (0x009B, 24, false, false, false, false), (0x009C, 5, false, true, true, true), (0x009D, 20, false, false, false, false)]
          : List (Nat × Nat × Bool × Bool × Bool × Bool)) →
      let p := byteList ([1, 0, 0, 0, 1] ++ List.replicate (len - 5) 0)
      let q := if len = 4 then byteList [1, 0, 0, 0] else p
      let c := cmd_ op 5 q
      let m := cmdDg op 5 q (easelDg halt)
      TurnOf m 0 7 op c ∧ easelRefusal m c len none sup guarded frozen = none ∧ haltable m c.target = true ∧
      halted m c.target = halt ∧ underLive m = false ∧ m.boot.under.st ≠ .revertWindow ∧ (getGrp m 0).state ≠ .reseating) := by
  refine ⟨⟨turn_cmd _ _ _ _ rfl rfl rfl, by decide⟩, ?_⟩
  intro op len sup guarded frozen halt h
  simp only [List.mem_cons, List.not_mem_nil, or_false] at h
  rcases h with h | h | h | h | h | h | h | h | h <;> cases h <;> exact ⟨turn_cmd _ _ _ _ rfl rfl rfl, by decide⟩

theorem witness_EaselCommands_memory :
    (let p := byteList [1, 0, 0, 0, 0, 0, 0, 0] ++ leBytes 8 0x20000000 ++ leBytes 4 4064
     let c := cmd_ 0x0099 5 p
     let m := cmdDg 0x0099 5 p (easelDg false)
     TurnOf m 0 7 0x0099 c ∧ easelRefusal m c 20 (memFault m c 4064) true false false = none ∧
     easelReach m c false 0x20000000 4064 = true ∧ regionOf m true 0x20000000 = .canvas) ∧
    (let p := byteList [1, 0, 0, 0, 0, 0, 0, 0] ++ leBytes 8 0x20000000 ++ leBytes 4 1 ++ leBytes 4 0 ++ [7]
     let c := cmd_ 0x009A 5 p
     let m := cmdDg 0x009A 5 p (easelDg true)
     TurnOf m 0 7 0x009A c ∧ c.f 20 4 = 0 ∧ easelRefusal m c 25 (memFault m c 4040) false true true = none ∧
     easelRefusal (easelDg false m) c 25 (memFault m c 4040) false true true = some (.err stBusy 5) ∧
     easelWritable m c 0x20000000 1 = true ∧ easelWritable m c 0x28000000 1 = false ∧
     windowReach m 0 true 0x20000000 64 = true ∧ windowReach m 0 true 0x2007FFFF 64 = false ∧
     easelReach m c true 0x20000000 1 = true ∧ (writeSpan m viaPort1 0x20000000 (c.payload.drop 24)).2 = true) ∧
    (let m := ethDg 0x58 [] id
     (getEth m 0).st = .up ∧ (portRec m 0).map (fun r => (bit (r.f 2 1) 0, bit (r.f 2 1) 4)) = some (true, true) ∧
     recs m 0x0021 ≠ [] ∧ leAt (byteList [31, 0]) 0 1 = 31 ∧ (byteList [31, 0]).length + 14 ≤ maxFrame m 0) ∧
    (let m := sentDg 0x3FF3E { q5 with base := 0x20004000 / 64, prod0 := 0x3F } [] []
     reqFree m = true ∧ reqFree (appDg id) = false) ∧
    (let m := sentDg 0x3FF3F { q5 with base := 0x20004000 / 64, cons0 := 0x3F } (header 0 0 0) []
     tapResponse m = some (mkMsg 0x3FF3F 1 0 0 (header 0 0 0)) ∧ tapResponse (appDg id) = none) := by
  refine ⟨⟨turn_cmd _ _ _ _ rfl rfl rfl, by decide⟩, ⟨turn_cmd _ _ _ _ rfl rfl rfl, by decide⟩, by decide, by decide, by decide +kernel⟩

/-! ### Start and the machine -/

/-- A start step is due, with a domain 51 under test or not. -/
def startDg (k : Nat) : Dg := { Dg.reset with boot := { Dg.reset.boot with due := some k, attempts := [(0, 2)], bist := [(60, .due false)], audit := [0] } }

theorem witness_StartSteps :
    (∀ k, k < 16 → (startDg k).boot.due = some k ∧ unpowered (startDg k) = false ∧ exeshDown (startDg k) = false ∧
      ∀ d a, d < 60 → SMap.get (startDg k).boot.bist d ≠ .due a) ∧
    SMap.get (startDg 0).boot.attempts 0 = 2 ∧ SMap.get (startDg 0).boot.attempts 1 < 2 ∧ (SMap.get (startDg 2).pwr.dom 58).failed = false ∧
    (∀ i, i < 6 → ctrAgree (startDg 5) i (ctrValue (startDg 5) i) = 3) ∧ slotChoice (startDg 5) = none ∧
    (∀ d, d < 60 → domBad (startDg 9) d = false) ∧ (∀ c, c < 40 → coreUsable (startDg 11) [] c = true) ∧
    SMap.get (startDg 0).boot.bist 60 = .due false ∧ 0 ∈ (startDg 0).boot.audit ∧ (startDg 15).pwr.request = none ∧
    (∀ r, recs (partDg 0 .stopped (startDg 14)) 0x0002 = [r] → r = record 2 ([1, 0, 0, 0, 0, 0] ++ List.replicate 26 0)) := by
  refine ⟨?_, by decide, by decide, by decide, by decide, by decide, by decide, by decide, by decide, by decide, by decide, ?_⟩
  · intro k hk
    refine ⟨rfl, rfl, rfl, ?_⟩
    intro d a hd
    have h60 : d ≠ 60 := by omega
    simp [startDg, SMap.get, Ne.symm h60]
    exact fun h => nomatch h
  · intro r h
    exact (List.cons.inj h).1.symm

theorem witness_StartSteps_digests :
    (let m := startDg 0
     0 ∈ m.boot.audit ∧ unpowered m = false ∧ (digestsOk m 2).2 = false) ∧
    (let m := pokes (startDg 0) (bankBase 2 + 40) (sha384Of [] ++ sha3Of [])
     imgPayLen m 2 = 0 ∧ (digestsOk m 2).2 = true) := by decide +kernel

theorem witness_StartSteps_more :
    testsLater (startDg 4) 44 = false ∧ (∀ b, b < 32 → bankKept (startDg 9) 0 b = false) ∧
    recs (startDg 12) 0x0018 = [] ∧ (let m := partDg 0 .running (startDg 13); boundPids m 0 = []) := by decide

theorem witness_StepRunsFront : ({ State.reset with pending := [Instr.bypass] } : State).pending = .bypass :: [] ∧ State.reset.pending = [] ∧
    State.reset.pendingOk = true := by decide

theorem witness_MemoryReadAfterWrite : Memory.wf (appDg id).mem = true ∧ (5 : Nat) < 2 ^ 128 := by decide

theorem witness_StepKeepsMemoryForm : State.reset.memOk = true ∧ ∃ t, step State.reset = .next t := ⟨by decide, _, rfl⟩

/-! ### Ill-formed commands: one for each sort of operand, refused by WellFormed -/

theorem test_ill_formed_refused :
    ([.eret 57 ⟨0, 0⟩ 0, .requestClaim 32, .sessionOpen 0 65536, .ethLinkDown 14, .laneCorrected 40, .heldReseatStart 16,
   .rotationDue 4, .budgetRefill 262144, .flipGroupBoundary 64, .partitionRunning 64, .supLaneMinority 3, .fcrSlice 3,
   .routerSlice 6 0 0, .ignitionChange 2 true, .interruptSourceEvent 0 512, .pmcWrap 0 8, .wdgTimeout 64 false,
   .faultOverflow 272, .conditionEnd 0 256, .dramRefresh 4, .bankWake 0 32, .railFault 61, .gptpUnsync 2,
   .adcConversionDone 24 0 0, .pwmPeriodEnd 96, .gpioInputChange 48 true 0, .queuePageDeq 4096, .dmaStep 8 0, .dmaCopy 0 16,
   .codeStoreLineWrite .supervisor (2 ^ 48) 0, .cardRemoval 3, .canBusOff 16, .linWakeUp 8, .linHeaderReceived 0 64, .xtalFail 3,
   .cardApdu 1 (List.replicate 9217 0)] : List Instr).all (fun i => !i.wellFormed) = true := by decide +kernel
/-- The greatest value of each sort is well-formed. -/
theorem test_bounds_well_formed :
    ([.eret 56 ⟨0, 0⟩ 0, .sessionOpen 31 65535, .ethLinkDown 13, .laneCorrected 39, .heldReseatStart 15, .rotationDue 3,
      .budgetRefill 262143, .flipGroupBoundary 63, .partitionRunning 63, .supLaneMinority 2, .routerSlice 5 5 2, .wdgTimeout 63 true,
      .faultOverflow 271, .conditionEnd 271 255, .bankWake 3 31, .railFault 60, .dmaCopy 7 15, .xtalFail 2] : List Instr).all
        Instr.wellFormed = true := by decide

/-! ### Single steps against the spec's own examples and tables -/

/-- A field of the module after a command. -/
def got {α : Type} (o : Host.Outcome State Fault Refusal) (f : Dg → α) : Option α :=
  match o with
  | .next t => some (f t.dg)
  | _ => none
/-- A register of slot 0 after a command. -/
def gotD (o : Host.Outcome State Fault Refusal) (n : Nat) : Option Quad := got o fun m => (regsOf m 0).getD n
def dRegs (l : List (Nat × Quad)) : State := appRegs fun r => l.foldl (fun r e => r.setD e.1 e.2) r

/-- Tables 02.22 to 02.24, 05.9: a word of each family, field by field. -/
theorem test_decode_words :
    (decodeInstr 0 0b00111100011000100001011000011100 0 0).toOption = some (.dadd 0 ⟨6, 4, 5, 4, 28⟩) ∧
    (decodeInstr 0 0b01100010001000110010001000000100 0 0).toOption = some (.fsub 0 ⟨2, 6, 8, 4, 4⟩) ∧
    (decodeInstr 0 0b01010000011100110011000000010000 0 0).toOption = some (.stB 0 ⟨7, 3, 0, 0x3010⟩) ∧
    (decodeInstr 0 0b11111110000101000001000110100000 8 0).toOption = some (.indexedAccess 0 4 ⟨0x11A0, 8⟩) := by decide
/-- 03, example below R169: DVINIT.S of −7 and 100. -/
theorem test_dvinit : gotD (exec (.dvinitS 0 ⟨2, 0, 0, 2, 7⟩) (dRegs [(0, 0x00000000_00000064_00000000_FFFFFFF9)])) 2 =
    some 0x00000000_00000064_00000000_00000007 := by decide
/-- The same example: DIVE with FN 0x0D. -/
theorem test_dive :
    let s := dRegs [(0, 0x00000000_00000064_00000000_FFFFFFF9), (1, 0x00000000_00000000_00000000_00000002),
                    (2, 0x00000000_00000000_00000001_00000003)]
    gotD (exec (.dive 0 ⟨2, 0, 1, 2, 0x0D⟩) s) 2 = some 0x00000064_00000064_FFFFFFFF_FFFFFFFD ∧
    gotD (exec (.dive 0 ⟨2, 0, 1, 2, 0x0D⟩) s) 3 = some 0x00000000_00000001_00000000_00000000 := by decide
/-- 03, example below R174. -/
theorem test_dadd :
    let s := dRegs [(4, 0x0123450C), (5, 0x0098760D)]
    gotD (exec (.dadd 0 ⟨6, 4, 5, 4, 28⟩) s) 6 = some 0x0024690C ∧ gotD (exec (.dadd 0 ⟨6, 4, 5, 4, 28⟩) s) 7 = some 1 := by decide
theorem test_dadd_corrupted :
    let s := dRegs [(4, 0x01234A0C), (5, 0x0098760D), (7, 9)]
    gotD (exec (.dadd 0 ⟨6, 4, 5, 4, 28⟩) s) 6 = some 0 ∧ gotD (exec (.dadd 0 ⟨6, 4, 5, 4, 28⟩) s) 7 = some 0 := by decide

/-- Table 02.12: the check values, over the bytes 1 to 9 in ASCII. -/
def crcOf (preset : Nat) (init : Quad) : Quad :=
  (byteList [0x31, 0x32, 0x33, 0x34, 0x35, 0x36, 0x37, 0x38, 0x39]).foldl
    (fun c b => ((gotD (exec (.crcs 0 ⟨1, 1, 2, 0, 0⟩)
      (appRegs fun r => { (r.setD 1 c).setD 2 (b.setWidth 128) with crcpoly := BitVec.ofNat 64 preset })) 1).getD 0)) init
theorem test_crc_presets :
    crcOf 0 0xFFFFFFFF ^^^ 0xFFFFFFFF = 0xE3069283 ∧ crcOf 1 0xFFFFFFFF ^^^ 0xFFFFFFFF = 0xCBF43926 ∧
    crcOf 2 0xFFFF = 0x29B1 ∧ crcOf 3 0xFF ^^^ 0xFF = 0x4B := by decide +kernel

/-- 02, example below R106: the shadow reads the old D4. -/
theorem test_load_shadow :
    let m0 := (memAt 0x20000100).dg
    let m := updCtx (pokes m0 0x20000100 [100]) 0 fun x => { x with r := x.r.setD 4 7 }
    got (exec (.ldW 0 ⟨4, 1, 0, 0⟩) ⟨m, []⟩) (fun m => ((regsOf m 0).getD 4, (getCtx m 0).load.isSome)) = some (7, true) := by
  decide +kernel
theorem test_after_the_shadow :
    let m := updCtx (memAt 0x20000100).dg 0 fun x =>
      { x with r := x.r.setD 4 7, load := some ⟨false, 4, 100, [], x.r.setD 4 7, none⟩ }
    got (exec (.add 0 ⟨5, 4, 4, 2, 0⟩) ⟨m, []⟩) (fun m => ((regsOf m 0).getD 5, (regsOf m 0).getD 4, (getCtx m 0).load.isNone)) =
      some (14, 100, true) := by decide

/-- 02, example below R105's addressing: banked short mode, and its wrap. -/
theorem test_banked_short :
    let at_ (a3 : Word) : Ea := eaMem { Regs.reset with a := [(3, a3)], bk := [(1, 0x10)] } ⟨7, 3, 3, 0x1010⟩
    at_ 0x3FFF8 = .ok 0x001000040008 none ∧ at_ 0xFFFFFFF8 = .ok 0x001000000008 none := by decide
theorem test_base_displacement :
    eaMem { Regs.reset with a := [(3, 0x10FFFFFFF8)] } ⟨7, 3, 0, 0x10⟩ = .ok 0x001100000008 none := by decide

/-- 02, example below R110: the frame of CALL with MASK 0x0005, at 0x2000_7FD0. -/
theorem test_call_frame :
    let s := appRegs fun r => { r.setD 16 3 |>.setD 18 4 with a15s := 0x20008000, a := [(1, 0x20000100), (14, 0x20000200)] }
    got (exec (.callr 0 ⟨5, 1, 0⟩) s) (fun m =>
      let k := drainAll m 0
      ((regsOf m 0).getA 15, peekWord k 0x20007FD0, peekWord k 0x20007FE0, peekWord k 0x20007FF0)) =
      some (0x20007FD0, 0x20000200 + 5 * 2 ^ 64, 3, 4) := by decide +kernel

/-- The end of the same example: RET with MASK 0x0004 restores nothing (FRAME_MISMATCH, exception vector 8). -/
theorem test_frame_mismatch :
    let m := updCtx callState.dg 0 fun x => { x with r := { x.r with a15s := 0x20007FD0, evbase := 0x20001000 } }
    let m := pokes (pokes m 0x20007FD0 (leBytes 16 (0x20000200 + 5 * 2 ^ 64))) 0x20001040 (leBytes 8 0x20000400)
    got (exec (.ret 0 ⟨4, 0, 0⟩) ⟨m, []⟩) (fun m => ((regsOf m 0).getA 14, (regsOf m 0).getA 15, (regsOf m 0).ecause.toNat % 256,
      (regsOf m 0).pc)) = some (0x20000200, 0x20007F20, 8, 0x20000400) := by
  decide +kernel

/-- Tables 03.11 and 03.12, binary32: s + M, the root of s, and the fused d = −s, s1 = s2 = s, each rounded upward. -/
theorem test_edge_operands :
    let f := fmtOf 32
    let d := Fp.decode f
    fpAdd f 4 false (d 1) (d 0x7F7FFFFF) = (0x7F800000, flagOF + flagNX) ∧ fpSqrt f 4 false (d 1) = (0x1A3504F4, flagNX) ∧
    fpFma f 4 false (d 1) (d 1) (d 0x80000001) = (0x80000000, flagUF + flagNX) := by decide +kernel

/-- The examples of 06 (class-0 ring) and of 10 (driving day): a Canvas address's bank, and the oldest record held. -/
theorem test_bank_and_journal :
    bankOf 0x20980000 = 19 ∧ oldestHeld 1300001 = 251425 ∧ oldestHeld 1302641 = 254065 := by decide

end Sys2Proof.Tests
end

section
/-! SUPPORT. How an instruction of a quiet context ends: with its exception, or on registers that hardware loops act on. Then
the effective addresses of the MEM format (spec/02 R93 to R95) and the opening of loops and repetitions (R114 to R122). -/
namespace Sys2Proof.Machine

/-- A command that is an instruction leaves the module that the instruction leaves. -/
theorem exec_of_instr {s : State} {c : CtxId} {len : Nat} {i : Instr} {body : Dg → Regs → Regs → IRes} {m : Dg}
    (hi : exec i s = run s fun m => instr m c len body) (h : instr s.dg c len body = m) :
    exec i s = .next { s with dg := m } := by
  rw [hi, ← h]
  rfl

/-- A command that is an instruction takes the exception that its work raises, from the module that its work left. -/
theorem exec_trap {s : State} {c : CtxId} {len : Nat} {i : Instr} {body : Dg → Regs → Regs → IRes} {m' : Dg} {e : Exn}
    (h : quiet s.dg c len = true) (hi : exec i s = run s fun m => instr m c len body)
    (hb : body (fetched s.dg c len) (regsOf s.dg c) (regsOf s.dg c) = .trap m' e) (hv : e.vec < 32) :
    exec i s = .next { s with dg := takeExn m' c e } := by
  obtain ⟨-, -, -, ha, -⟩ := quiet_parts h
  have hw : entryWaits (armed s.dg c) c e.vec = false := (awake_parts ha).2 _ hv
  refine exec_of_instr hi ?_
  simp only [instr_quiet body h, hb, hw, Bool.false_eq_true, if_false]

/-! ### Hardware loops at retirement -/

/-- The end of loop bodies changes nothing but loop counts and depth. -/
theorem endLoops_regs (p : Addr) (n : Nat) (r : Regs) (next : Addr) :
    ∃ lc depth, (endLoops p n r next).1 = { r with lc := lc, ldepth := depth } := by
  induction n generalizing r with
  | zero => exact ⟨_, _, rfl⟩
  | succ n ih =>
    unfold endLoops
    dsimp only
    split
    · exact ⟨_, _, rfl⟩
    · split
      · split
        · exact ⟨_, _, rfl⟩
        · obtain ⟨lc, depth, e⟩ := ih { r with lc := _, ldepth := r.ldepth - 1 }
          exact ⟨lc, depth, e⟩
      · exact ⟨_, _, rfl⟩

theorem endLoops_pmctl (p : Addr) (n : Nat) (r : Regs) (next : Addr) : (endLoops p n r next).1.pmctl = r.pmctl := by
  obtain ⟨_, _, e⟩ := endLoops_regs p n r next
  rw [e]

/-- Execution that does not go on at the exit of the innermost body stays in it. -/
theorem endLoops_elsewhere {p : Addr} {n : Nat} {r : Regs} {next : Addr} (h : next ≠ SMap.get r.le (r.ldepth - 1)) :
    endLoops p n r next = (r, next) := by
  cases n with
  | zero => rfl
  | succ n => simp [endLoops, h]

/-- Retirement where only the loop registers act: no deferred dequeue, counter, trace or single step. -/
theorem retire_loops {m : Dg} {c : CtxId} {len : Nat} {r : Regs} {next : Option Addr} {before : Regs}
    (hc : calm m c = true) (hp : r.pmctl = 0) :
    retire m c len r next none before =
      ranOn m c (endLoops r.pc 4 r (next.getD (r.pc + BitVec.ofNat 48 len))).1
        (endLoops r.pc 4 r (next.getD (r.pc + BitVec.ofNat 48 len))).2 none := by
  obtain ⟨hload, hstep, htr⟩ := calm_parts hc
  have hp' := (endLoops_pmctl r.pc 4 r (next.getD (r.pc + BitVec.ofNat 48 len))).trans hp
  simp only [retire, hload, Option.map_none, Option.getD_none, applyDeq, countLoad]
  rw [countEv_off _ _ _ (by simp [hp']), ite_self, passTime_off _ _ (by simp [hp']), traceBranch_off _ _ _ htr, ite_self]
  exact stepped_off _ _ hstep

/-- An instruction of a quiet context that only writes registers, and where the loops let execution go on. -/
theorem exec_loops {s : State} {c : CtxId} {len : Nat} {i : Instr} {body : Dg → Regs → Regs → IRes} {r : Regs}
    {next : Option Addr} {e : Regs × Addr} (h : quiet s.dg c len = true)
    (hi : exec i s = run s fun m => instr m c len body)
    (hb : body (fetched s.dg c len) (regsOf s.dg c) (regsOf s.dg c) = .done (fetched s.dg c len) r next none [])
    (hp : r.pmctl = (regsOf s.dg c).pmctl) (he : endLoops r.pc 4 r (next.getD (r.pc + BitVec.ofNat 48 len)) = e) :
    exec i s = .next { s with dg := ranTo s.dg c len e.1 e.2 none } := by
  refine exec_of_instr hi ?_
  rw [instr_quiet body h, hb, ← he]
  exact retire_loops (calm_fetched h) (hp.trans (quiet_pmctl h))

/-! ### Effective addresses (R93 to R95) -/

theorem mkEa_beyond {ea : Word} {upd : Option (Nat × Word)} (h : 2 ^ 48 ≤ ea.toNat) : mkEa ea upd = .bad (ea.toNat % 2 ^ 48) :=
  if_neg (by omega)

/-- Outside banked short mode the MEM format has no address when its effective address has a bit above 47. -/
theorem eaMem_beyond {r : Regs} {f : Sys2Proof.Mem} (hm : f.m ≠ 3)
    (h : 2 ^ 48 ≤ (if f.m = 1 then r.getA f.base.toNat else r.getA f.base.toNat + f.disp.signExtend 64).toNat) :
    eaMem r f = .bad ((if f.m = 1 then r.getA f.base.toNat else r.getA f.base.toNat + f.disp.signExtend 64).toNat % 2 ^ 48) := by
  obtain e | e | e : f.m = 0 ∨ f.m = 1 ∨ f.m = 2 := by
    revert hm
    generalize f.m = k
    revert k
    decide
  all_goals
    simp only [e] at h ⊢
    simpa [eaMem, e] using mkEa_beyond h

/-- Whatever the access, an instruction without an effective address raises ADDRESS and does nothing else. -/
theorem accessBody_bad (c : CtxId) (op d len a : Nat) (m : Dg) (src base : Regs) :
    accessBody c op d len (.bad a) m src base = .trap m (exnAt 6 0 a) := by
  unfold accessBody
  split
  · rfl
  split
  · rfl
  split
  · rfl
  split
  · rfl
  · rfl

/-- A load, store or LEA of the MEM format without an effective address takes ADDRESS. -/
theorem mem_traps_address {s : State} {c : CtxId} {op a : Nat} {f : Sys2Proof.Mem} {i : Instr} (h : quiet s.dg c 4 = true)
    (hd : f.d.toNat < 16) (hea : eaMem (regsOf s.dg c) f = .bad a)
    (hi : exec i s = run s fun m => instr m c 4 (memBody c op f)) : Traps i s c 4 (exnAt 6 0 a) := by
  refine traps_of h hi ?_ (by decide : 6 < 32)
  rw [memBody, checked_pass (by simp [badAreg, hd]), hea, accessBody_bad]

/-- R95: banked short mode puts the bank above a sum that wraps at 2^32. -/
theorem eaMem_banked {r : Regs} {f : Sys2Proof.Mem} (hm : f.m = 3) :
    eaMem r f = .ok ((SMap.get r.bk (f.disp.toNat / 4096)).toNat * 2 ^ 32 +
      ((r.getA f.base.toNat).toNat + ((f.disp.setWidth 12).signExtend 64 : Word).toNat) % 2 ^ 32) none := by
  have hk : bits f.disp.toNat 12 2 = f.disp.toNat / 4096 := by
    have := f.disp.isLt
    unfold bits
    omega
  have hlo : ∀ x y : Word, (x + y).toNat % 2 ^ 32 = (x.toNat + y.toNat) % 2 ^ 32 := by
    intro x y
    rw [BitVec.toNat_add]
    omega
  simp only [eaMem, hm, hk, hlo]
  rfl

/-- Settles O10: `memBody` meets a bad address in every operation, and banked short mode has none. -/
theorem effectiveAddressRange : Obligations.EffectiveAddressRange := by
  unfold Obligations.EffectiveAddressRange
  refine ⟨?_, ?_⟩
  · intro s c f h hm hd an ea hea i hi
    have hbad := eaMem_beyond hm hea
    have traps {op : Nat} {i : Instr} (hi : exec i s = run s fun m => instr m c 4 (memBody c op f)) :
        Traps i s c 4 { vec := 6, detail := 0, addr := some (ea.toNat % 2 ^ 48), after := false, fpti := none } := by
      have he : exnAt 6 0 (ea.toNat % 2 ^ 48) = ⟨6, 0, some (ea.toNat % 2 ^ 48), false, none⟩ := by simp [exnAt]
      exact he ▸ mem_traps_address h hd hbad hi
    simp only [List.mem_cons, List.not_mem_nil, or_false] at hi
    rcases hi with rfl | rfl | rfl | rfl | rfl | rfl | rfl | rfl | rfl | rfl | rfl | rfl | rfl | rfl | rfl | rfl
    all_goals exact traps rfl
  · intro r f hm
    refine ⟨_, ?_, eaMem_banked hm, ?_, ?_⟩ <;> omega

/-! ### Opening and leaving loops (R114 to R118) -/

/-- A loop over `words` words behind an address begins and ends within the innermost body. -/
def nests (r : Regs) (ls : Addr) (words : Nat) : Prop :=
  let inside (x : Addr) : Prop := SMap.get r.ls (r.ldepth - 1) ≤ x ∧ x ≤ SMap.get r.le (r.ldepth - 1)
  inside ls ∧ inside (ls + BitVec.ofNat 48 (4 * words))

/-- The registers with a loop opened at the next level. -/
def loopOpened (r : Regs) (ls : Addr) (words count : Nat) : Regs :=
  { r with ls := SMap.set r.ls r.ldepth ls, le := SMap.set r.le r.ldepth (ls + BitVec.ofNat 48 (4 * words)),
           lc := SMap.set r.lc r.ldepth (BitVec.ofNat 32 count), ldepth := r.ldepth + 1 }

theorem loopBody_full {len count words : Nat} {m : Dg} {r : Regs} (h : 4 ≤ r.ldepth) :
    loopBody len count words m r r = .trap m (exn 9 1) := if_pos h

theorem loopBody_outside {len count words : Nat} {m : Dg} {r : Regs} (h0 : 0 < r.ldepth) (h4 : r.ldepth < 4)
    (hn : ¬ nests r (r.pc + BitVec.ofNat 48 len) words) : loopBody len count words m r r = .trap m (exn 9 2) := by
  refine (if_neg (by omega)).trans (if_pos ?_)
  rw [Bool.and_eq_true, Bool.not_eq_true', Bool.eq_false_iff]
  exact ⟨decide_eq_true h0, fun e => hn (by simpa only [nests, Bool.and_eq_true, decide_eq_true_eq] using e)⟩

/-- A loop that nests, or is the outermost, is passed over with a count of 0 and opened otherwise. -/
theorem loopBody_nested {len count words : Nat} {m : Dg} {r : Regs} (h4 : r.ldepth < 4)
    (hn : r.ldepth = 0 ∨ nests r (r.pc + BitVec.ofNat 48 len) words) :
    loopBody len count words m r r =
      if count = 0 then .done m r (some (r.pc + BitVec.ofNat 48 len + BitVec.ofNat 48 (4 * words))) none []
      else regs m (loopOpened r (r.pc + BitVec.ofNat 48 len) words count) := by
  refine (if_neg (by omega)).trans (if_neg ?_)
  rcases hn with h | ⟨h1, h2⟩
  · simp [h]
  · simp [h1, h2]

theorem wordsAhead_ne {a : Addr} {words : Nat} (h0 : words ≠ 0) (hw : words < 2 ^ 24) :
    a ≠ a + BitVec.ofNat 48 (4 * words) := by
  intro h
  have e := congrArg BitVec.toNat h
  rw [BitVec.toNat_add, BitVec.toNat_ofNat] at e
  omega

/-- A loop is not at its end when it is opened: its body is not empty. -/
theorem endLoops_loopOpened {r : Regs} {p ls : Addr} {words count : Nat} (h0 : words ≠ 0) (hw : words < 2 ^ 24) :
    endLoops p 4 (loopOpened r ls words count) ls = (loopOpened r ls words count, ls) :=
  endLoops_elsewhere <| by
    simp only [loopOpened, Nat.add_sub_cancel, SMap.get_set_self]
    exact wordsAhead_ne h0 hw

/-- R114, R117: what an instruction does whose work is to open a loop of `words` words. -/
theorem exec_opens {s : State} {c : CtxId} {len count words : Nat} {i : Instr} {body : Dg → Regs → Regs → IRes}
    (h : quiet s.dg c len = true) (hi : exec i s = run s fun m => instr m c len body)
    (hb : ∀ m, body m (regsOf s.dg c) (regsOf s.dg c) = loopBody len count words m (regsOf s.dg c) (regsOf s.dg c))
    (h0 : words ≠ 0) (hw : words < 2 ^ 24) :
    let r := regsOf s.dg c
    let ls := r.pc + BitVec.ofNat 48 len
    let e := endLoops r.pc 4 r (ls + BitVec.ofNat 48 (4 * words))
    (4 ≤ r.ldepth → Traps i s c len (exn 9 1)) ∧
    (0 < r.ldepth → r.ldepth < 4 → ¬ nests r ls words → Traps i s c len (exn 9 2)) ∧
    (r.ldepth < 4 → (r.ldepth = 0 ∨ nests r ls words) → count = 0 →
      exec i s = .next { s with dg := ranTo s.dg c len e.1 e.2 none }) ∧
    (r.ldepth < 4 → (r.ldepth = 0 ∨ nests r ls words) → count ≠ 0 →
      exec i s = .next { s with dg := ranTo s.dg c len (loopOpened r ls words count) ls none }) := by
  refine ⟨fun h4 => ?_, fun hd h4 hn => ?_, fun h4 hn hc => ?_, fun h4 hn hc => ?_⟩
  · exact traps_of h hi ((hb _).trans (loopBody_full h4))
  · exact traps_of h hi ((hb _).trans (loopBody_outside hd h4 hn))
  · exact exec_loops h hi ((hb _).trans ((loopBody_nested h4 hn).trans (if_pos hc))) rfl rfl
  · exact exec_loops h hi ((hb _).trans ((loopBody_nested h4 hn).trans (if_neg hc))) rfl (endLoops_loopOpened h0 hw)

/-- R118: LBREAK outside every loop, and inside one. -/
theorem exec_lbreak {s : State} {c : CtxId} (h : quiet s.dg c 4 = true) :
    let r := regsOf s.dg c
    let e := endLoops r.pc 4 { r with ldepth := r.ldepth - 1 } (SMap.get r.le (r.ldepth - 1))
    (r.ldepth = 0 → Traps (.lbreak c 0) s c 4 (exn 9 3)) ∧
    (0 < r.ldepth → exec (.lbreak c 0) s = .next { s with dg := ranTo s.dg c 4 e.1 e.2 none }) :=
  ⟨fun h0 => traps_of h rfl ((if_neg (by simp)).trans (if_pos h0)),
   fun h0 => exec_loops h rfl ((if_neg (by simp)).trans (if_neg (by omega))) rfl rfl⟩

/-- R122: REP before an instruction that it may repeat, with the number of iterations that it names or finds in REPCNT. -/
theorem exec_rep {s : State} {c : CtxId} {f : RepF} (h : quiet s.dg c 4 = true) (hr : f.rsv = 0) (hn : repRefused f.next = none)
    (hs : f.s = true → f.count = 0) :
    let r := regsOf s.dg c
    let n : BitVec 16 := if f.s then r.repcnt else f.count.setWidth 16
    let skipped := endLoops r.pc 4 { r with repcnt := 0 } (r.pc + 8)
    let prefixed := endLoops r.pc 4 { r with repcnt := n, rep := some r.pc } (r.pc + 4)
    (n = 0 → exec (.rep c f) s = .next { s with dg := ranTo s.dg c 4 skipped.1 skipped.2 none }) ∧
    (n ≠ 0 → exec (.rep c f) s = .next { s with dg := ranTo s.dg c 4 prefixed.1 prefixed.2 none }) := by
  intro r n skipped prefixed
  have legal : ¬ (f.rsv ≠ 0 ∨ (f.s ∧ f.count ≠ 0)) := by simpa [hr] using hs
  refine ⟨fun h0 => ?_, fun h0 => ?_⟩
  · refine exec_loops (r := { r with repcnt := 0 }) (next := some (r.pc + 8)) (e := skipped) h rfl ?_ rfl rfl
    dsimp only
    rw [if_neg legal, hn]
    exact if_pos h0
  · refine exec_loops (r := { r with repcnt := n, rep := some r.pc }) (next := none) (e := prefixed) h rfl ?_ rfl rfl
    dsimp only
    rw [if_neg legal, hn]
    exact if_neg h0

/-- Settles O13, instruction by instruction. -/
theorem loopsAndRepeats : Obligations.LoopsAndRepeats := by
  unfold Obligations.LoopsAndRepeats
  intro s c
  refine ⟨fun h => ⟨fun f hlen hrsv => ?_, (exec_lbreak h).1, (exec_lbreak h).2, fun f hr hn hs => exec_rep h hr hn hs⟩,
    fun h f hx h0 h24 => ?_⟩
  · have hw : f.len.toNat < 2 ^ 24 := by have := f.len.isLt; omega
    have h0 : f.len.toNat ≠ 0 := fun e => hlen (BitVec.eq_of_toNat_eq e)
    exact exec_opens h rfl (fun m => if_neg (not_or.mpr ⟨hlen, fun e => e hrsv⟩)) h0 hw
  · have hlen : bits f.imm.toNat 0 24 = f.imm.toNat := by
      unfold bits
      omega
    have hrsv : bits f.x.toNat 0 11 = 0 ∧ bits f.imm.toNat 24 8 = 0 := by
      unfold bits
      omega
    have hreg : bits f.x.toNat 11 5 = f.x.toNat / 2048 := by
      have := f.x.isLt
      unfold bits
      omega
    have hcount (n : Nat) : bits n 0 32 = n % 2 ^ 32 := by simp [bits]
    refine exec_opens h rfl (fun m => ?_) h0 h24
    simp only [hlen, hrsv, hreg, hcount, h0, ne_eq, not_true_eq_false, or_self, if_false]

end Sys2Proof.Machine
end

section
/-! SUPPORT. The element-wise operations of spec/03 in the terms of the rules: what `rrrValue` computes on one element. -/
namespace Sys2Proof.Machine

/-! ### Elements as integers -/

theorem intWidth_pos {k : BitVec 3} {w : Nat} (h : intWidth k = some w) : 0 < w := by
  obtain ⟨-, rfl⟩ : k.toNat ≤ 4 ∧ 8 * 2 ^ k.toNat = w := by simpa [intWidth] using h
  exact Nat.mul_pos (by decide) (Nat.two_pow_pos _)

theorem elem_lt (w : Nat) (q : Quad) (i : Nat) : elem w q i < 2 ^ w := Nat.mod_lt _ (Nat.two_pow_pos w)

theorem ofInt_natCast (w n : Nat) : ofInt w n = n % 2 ^ w := by
  unfold ofInt
  omega

theorem ofInt_of_lt {w n : Nat} (h : n < 2 ^ w) : ofInt w n = n := (ofInt_natCast w n).trans (Nat.mod_eq_of_lt h)

/-- An element in two's complement: the value as it is, or less 2^w. -/
theorem toInt_cases {w x : Nat} (hw : 0 < w) (hx : x < 2 ^ w) :
    toInt w x = x ∧ x < 2 ^ (w - 1) ∨ toInt w x = (x : Int) - (2 ^ w : Nat) ∧ 2 ^ (w - 1) ≤ x := by
  have := Nat.two_pow_pred_mul_two hw
  simp only [toInt, Nat.mod_eq_of_lt hx]
  split
  · exact .inl ⟨rfl, by assumption⟩
  · exact .inr ⟨rfl, by omega⟩

/-! ### Addition, subtraction, saturation (R151 to R153, R155) -/

theorem carry_eq {w x y : Nat} (hx : x < 2 ^ w) (hy : y < 2 ^ w) : (x + y) / 2 ^ w = if 2 ^ w ≤ x + y then 1 else 0 := by
  split
  · exact Nat.div_eq_of_lt_le (by omega) (by omega)
  · exact Nat.div_eq_of_lt (by omega)

theorem clampInt_of_le {lo hi i : Int} (h : lo ≤ i) : clampInt lo hi i = min i hi := by
  unfold clampInt
  split <;> omega

theorem clampInt_of_ge {lo hi i : Int} (h : i ≤ hi) : clampInt lo hi i = max i lo := by
  unfold clampInt
  split <;> omega

theorem satTo_signed (w : Nat) (i : Int) : satTo w true i = ofInt w (clampInt (-(2 ^ (w - 1))) (2 ^ (w - 1) - 1) i) := by
  simp [satTo]

theorem satTo_unsigned_add (w x y : Nat) : satTo w false ((x : Int) + y) = min (x + y) (2 ^ w - 1) := by
  have := Nat.two_pow_pos w
  have hc : clampInt 0 ((2 ^ w : Nat) - 1) ((x : Int) + y) = (min (x + y) (2 ^ w - 1) : Nat) := by
    rw [clampInt_of_le (by omega)]
    omega
  exact (congrArg (ofInt w) hc).trans (ofInt_of_lt (by omega))

theorem satTo_unsigned_sub {w x : Nat} (hx : x < 2 ^ w) (y : Nat) : satTo w false ((x : Int) - y) = x - y := by
  have hc : clampInt 0 ((2 ^ w : Nat) - 1) ((x : Int) - y) = (x - y : Nat) := by
    rw [clampInt_of_ge (by omega)]
    omega
  exact (congrArg (ofInt w) hc).trans (ofInt_of_lt (by omega))

theorem ofInt_neg {w x : Nat} (hx : x < 2 ^ w) : ofInt w (-(x : Int)) = (2 ^ w - x) % 2 ^ w := by
  have e : (-(x : Int)) % (2 ^ w : Nat) = ((2 ^ w - x : Nat) : Int) % (2 ^ w : Nat) := by
    rw [show ((2 ^ w - x : Nat) : Int) = -(x : Int) + (2 ^ w : Nat) by omega, Int.add_emod_right]
  unfold ofInt
  rw [e]
  omega

theorem satTo_natAbs {w x : Nat} (hw : 0 < w) :
    satTo w true ((toInt w x).natAbs : Nat) = min (toInt w x).natAbs (2 ^ (w - 1) - 1) := by
  have := Nat.two_pow_pred_mul_two hw
  have := Nat.two_pow_pos (w - 1)
  have hc : clampInt (-(2 ^ (w - 1) : Nat)) ((2 ^ (w - 1) : Nat) - 1) ((toInt w x).natAbs : Nat) =
      (min (toInt w x).natAbs (2 ^ (w - 1) - 1) : Nat) := by
    rw [clampInt_of_le (by omega)]
    omega
  exact (congrArg (ofInt w) hc).trans (ofInt_of_lt (by omega))

theorem b2n_decide (P : Prop) [Decidable P] : b2n (decide P) = if P then 1 else 0 := by
  simp [b2n]

/-! ### Shifts, comparisons, products (R151, R154) -/

/-- R154: an arithmetic shift by the width or more leaves the sign. -/
theorem shraElem_eq {w x : Nat} (hw : 0 < w) (hx : x < 2 ^ w) (n : Nat) :
    shraElem w x n = ofInt w (if n < w then toInt w x / 2 ^ n else if toInt w x < 0 then -1 else 0) := by
  have := Nat.two_pow_pred_mul_two hw
  unfold shraElem
  split
  · simp
  · congr 1
    have hpos : (0 : Int) < (2 ^ w : Nat) := by exact_mod_cast Nat.two_pow_pos w
    rcases toInt_cases hw hx with ⟨e, hl⟩ | ⟨e, hl⟩
    · rw [if_neg (by omega), e]
      exact Int.ediv_eq_zero_of_lt (by omega) (by omega)
    · rw [if_pos (by omega), e, Int.sub_ediv_of_dvd _ (Int.dvd_refl _), Int.ediv_self (Int.ne_of_gt hpos),
        Int.ediv_eq_zero_of_lt (by omega) (by omega)]
      rfl

theorem min_unsigned (x y : Nat) : (if (x : Int) ≤ y then x else y) = min x y := by
  split <;> omega

theorem max_unsigned (x y : Nat) : (if (y : Int) ≤ x then x else y) = max x y := by
  split <;> omega

theorem ofInt_ediv_two_pow (w : Nat) (i : Int) : ofInt w (i / ((2 ^ w : Nat) : Int)) = ofInt w (i / 2 ^ w) := by
  rw [Int.natCast_pow]
  rfl

theorem mulh_unsigned {w x y : Nat} (hx : x < 2 ^ w) (hy : y < 2 ^ w) :
    ofInt w ((x : Int) * y / ((2 ^ w : Nat) : Int)) = x * y / 2 ^ w := by
  rw [← Int.natCast_mul, ← Int.natCast_ediv]
  refine ofInt_of_lt ((Nat.div_lt_iff_lt_mul (Nat.two_pow_pos w)).mpr ?_)
  exact Nat.mul_lt_mul'' hx hy

/-! ### Instructions -/

theorem some_map1_eq {w : Nat} {f g : Nat → Nat} {a : Quad} (h : ∀ i, f (elem w a i) = g i) :
    some (map1 w f a) = some (ofElems w g) := congrArg (fun k => some (ofElems w k)) (funext h)

theorem some_map2_eq {w : Nat} {f : Nat → Nat → Nat} {g : Nat → Nat} {a b : Quad}
    (h : ∀ i, f (elem w a i) (elem w b i) = g i) :
    some (map2 w f a b) = some (ofElems w g) := congrArg (fun k => some (ofElems w k)) (funext h)

/-- The two forms of a shift: the counts are the elements of the second operand, or its element 0 (R154). -/
def ShiftOp (op w : Nat) (a b : Quad) (e : Nat → Nat → Nat → Nat) : Prop :=
  rrrValue op 0 w a b = some (map2 w (e w) a b) ∧ rrrValue op 1 w a b = some (map1 w (fun x => e w x (elem w b 0)) a)

/-- An instruction of a ready context whose value the rules give retires with that value in Dd. -/
theorem rrr_retires {s : State} {c : CtxId} {f : Rrr} {w op : Nat} {unary : Bool} {i : Instr} {v : Quad}
    (h : ready s.dg c 4 = true) (hw : intWidth f.w = some w) (hu : unary = true → f.s2 = 0)
    (hi : exec i s = run s fun m => instr m c 4 (rrrBody op unary f))
    (hv : rrrValue op f.fn.toNat w ((regsOf s.dg c).getD f.s1.toNat) ((regsOf s.dg c).getD f.s2.toNat) = some v) :
    Retires i s c 4 ((regsOf s.dg c).setD f.d.toNat v) := by
  refine retires_of (evs := []) h hi ?_ rfl rfl
  have hs : (unary && f.s2 != 0) = false := by
    cases unary
    · rfl
    · simp [hu rfl]
  simp only [rrrBody, hw, Option.bind_some, hv, hs, Bool.false_eq_true, if_false, regs]

/-- R113: SEL with a legal width code. -/
theorem sel_retires {s : State} {c : CtxId} {g : Rrrr} {w : Nat} (h : ready s.dg c 4 = true) (hw : intWidth g.w = some w)
    (hr : g.rsv = 0) :
    let r := regsOf s.dg c
    Retires (.sel c g) s c 4 (r.setD g.d.toNat (ofElems w fun i =>
      if elem w (r.getD g.cond.toNat) i ≠ 0 then elem w (r.getD g.s1.toNat) i else elem w (r.getD g.s2.toNat) i)) := by
  refine retires_of (evs := []) h rfl ?_ rfl rfl
  rw [selBody, checked_pass (by simp [hw, hr])]
  simp [hw, regs]

/-- Settles O1: `rrrValue` gives the value of each instruction element by element. -/
theorem elementwiseResults : Obligations.ElementwiseResults := by
  unfold Obligations.ElementwiseResults
  intro s c f w h hw r p q x y sx sy lo hi writes elems
  have hpos := intWidth_pos hw
  have hx (i : Nat) : x i < 2 ^ w := elem_lt w p i
  have hy (i : Nat) : y i < 2 ^ w := elem_lt w q i
  have rrr {op : Nat} {i : Instr} {v : Quad} {n : BitVec 7} (hf : f.fn = n)
      (hi : exec i s = run s fun m => instr m c 4 (rrrBody op false f)) (hv : rrrValue op n.toNat w p q = some v) : writes i v :=
    rrr_retires h hw (fun e => Bool.noConfusion e) hi (by rw [hf]; exact hv)
  have unary {i : Instr} {v : Quad} {n : BitVec 7} (hs : f.s2 = 0) (hf : f.fn = n)
      (hi : exec i s = run s fun m => instr m c 4 (rrrBody 0x0F true f))
      (hv : rrrValue 0x0F n.toNat w p q = some v) : writes i v :=
    rrr_retires h hw (fun _ => hs) hi (by rw [hf]; exact hv)
  refine ⟨fun hf => rrr hf rfl rfl, fun hf => rrr hf rfl (some_map2_eq fun i => carry_eq (hx i) (hy i)),
    fun hf => rrr hf rfl rfl, fun hf => rrr hf rfl (some_map2_eq fun i => b2n_decide _),
    fun hf => rrr hf rfl (some_map2_eq fun i => satTo_signed w _),
    fun hf => rrr hf rfl (some_map2_eq fun i => satTo_unsigned_add w _ _),
    fun hf => rrr hf rfl (some_map2_eq fun i => satTo_signed w _),
    fun hf => rrr hf rfl (some_map2_eq fun i => satTo_unsigned_sub (hx i) _),
    fun hf => ⟨rrr hf rfl rfl, rrr hf rfl rfl, rrr hf rfl rfl, rrr hf rfl rfl⟩, fun k hk => ?shifts,
    fun hf => ⟨rrr hf rfl rfl, rrr hf rfl rfl⟩,
    fun hf => ⟨rrr hf rfl (some_map2_eq fun i => min_unsigned _ _), rrr hf rfl (some_map2_eq fun i => max_unsigned _ _)⟩,
    fun hs => ⟨fun hf => unary hs hf rfl (some_map1_eq fun i => ofInt_neg (hx i)),
      fun hf => unary hs hf rfl (some_map1_eq fun i => ofInt_natCast w _),
      fun hf => unary hs hf rfl (some_map1_eq fun i => satTo_natAbs hpos),
      fun hf => unary hs hf rfl rfl, fun hf => unary hs hf rfl rfl, fun hf => unary hs hf rfl rfl⟩,
    fun hf => ⟨rrr hf rfl rfl, rrr hf rfl (some_map2_eq fun i => ofInt_ediv_two_pow w _)⟩,
    fun hf => rrr hf rfl (some_map2_eq fun i => mulh_unsigned (hx i) (hy i)),
    fun hf => rrr hf rfl (some_map2_eq fun i => ofInt_ediv_two_pow w _),
    fun rel hrel => ?cmp, fun hf => ⟨rrr hf rfl rfl, rrr hf rfl rfl, rrr hf rfl rfl, rrr hf rfl rfl⟩,
    fun g e1 e2 e3 e4 hr => ?sel⟩
  case shifts =>
    have shift {op : Nat} {i : Instr} (e : Nat → Nat → Nat → Nat)
        (hi : exec i s = run s fun m => instr m c 4 (rrrBody op false f)) (hop : ShiftOp op w p q e) : elems i fun i => e w (x i) (k i) := by
      rcases hk with ⟨hf, rfl⟩ | ⟨hf, rfl⟩
      · exact rrr hf hi hop.1
      · exact rrr hf hi hop.2
    refine ⟨shift shlElem rfl ⟨rfl, rfl⟩, shift shrElem rfl ⟨rfl, rfl⟩, ?_, shift rotElem rfl ⟨rfl, rfl⟩⟩
    simpa only [shraElem_eq hpos (hx _)] using shift (i := .shra c f) shraElem rfl ⟨rfl, rfl⟩
  case cmp =>
    have cmp {n : BitVec 7} (hf : f.fn = n) (hn : n.toNat ≤ 5) (hrel : ∀ i, relHolds n.toNat w (x i) (y i) = rel i) :
        elems (.cmp c f) fun i => if rel i then 1 else 0 :=
      rrr hf rfl ((if_pos hn).trans (some_map2_eq fun i => congrArg b2n (hrel i)))
    rcases hrel with ⟨hf, rfl⟩ | ⟨hf, rfl⟩ | ⟨hf, rfl⟩ | ⟨hf, rfl⟩ | ⟨hf, rfl⟩ | ⟨hf, rfl⟩
    all_goals exact cmp hf (by decide) fun _ => rfl
  case sel =>
    simpa only [e2, e3, e4] using sel_retires h (e1 ▸ hw) hr

end Sys2Proof.Machine
end

section
/-! SUPPORT. Loads and stores leave the registers of their context and the debug unit alone, so that a call or return ends as a
branch does; then what branches, calls and returns do. -/
namespace Sys2Proof.Machine

/-! ### What the data accesses of a context keep -/

/-- What loads and stores leave of a context, whatever they report and whatever becomes of its buffer and caches: its registers,
its outstanding load, and the debug unit. -/
structure AccessKeeps (c : CtxId) (m m' : Dg) : Prop where
  regs : regsOf m' c = regsOf m c
  load : (getCtx m' c).load = (getCtx m c).load
  easel : m'.easel = m.easel

theorem AccessKeeps.refl (c : CtxId) (m : Dg) : AccessKeeps c m m := ⟨rfl, rfl, rfl⟩

theorem AccessKeeps.trans {c : CtxId} {m n o : Dg} (h : AccessKeeps c m n) (k : AccessKeeps c n o) : AccessKeeps c m o :=
  ⟨k.regs.trans h.regs, k.load.trans h.load, k.easel.trans h.easel⟩

theorem AccessKeeps.calm {c : CtxId} {m m' : Dg} (h : AccessKeeps c m m') (hc : calm m c = true) : calm m' c = true := by
  simpa [Machine.calm, stepping, h.load, h.easel] using hc

/-- Contexts and debug unit stay as they are. -/
theorem AccessKeeps.of_ctx {c : CtxId} {m m' : Dg} (h : m'.ctx = m.ctx) (he : m'.easel = m.easel) : AccessKeeps c m m' :=
  ⟨by simp [regsOf, getCtx, h], by simp [getCtx, h], he⟩

theorem AccessKeeps.of_read {c : CtxId} {m m' : Dg} (h : ReadKeeps m m') : AccessKeeps c m m' := .of_ctx h.ctx h.easel

/-- A change of some context that leaves registers and load. -/
theorem AccessKeeps.of_updCtx (c : CtxId) (m : Dg) (d : CtxId) (f : Ctx → Ctx)
    (hf : ∀ x, (f x).r = x.r ∧ (f x).load = x.load) : AccessKeeps c m (updCtx m d f) := by
  by_cases h : c = d
  · subst h
    exact ⟨by simp [regsOf, hf], by simp [hf], rfl⟩
  · exact ⟨by simp [regsOf, getCtx_updCtx_other m d f h], by simp [getCtx_updCtx_other m d f h], rfl⟩

/-- Steps made one after the other keep what each of them keeps. -/
theorem AccessKeeps.foldl {α : Type} {c : CtxId} {f : Dg → α → Dg} (hf : ∀ m a, AccessKeeps c m (f m a)) (l : List α) (m : Dg) :
    AccessKeeps c m (l.foldl f m) := by
  induction l generalizing m with
  | nil => exact .refl c m
  | cons a r ih => exact (hf m a).trans (ih _)

theorem draw_keeps (c : CtxId) (m : Dg) : AccessKeeps c m (draw m).1 := .of_ctx rfl rfl

/-! ### Reports of the ring guard -/

theorem raiseIrq_keeps (c : CtxId) (m : Dg) (d : CtxId) (src : Nat) : AccessKeeps c m (raiseIrq m d src) := by
  unfold raiseIrq
  dsimp only
  split
  · exact .of_updCtx c m d (fun x => { x with irqPend := SMap.set x.irqPend src true }) fun _ => ⟨rfl, rfl⟩
  · exact .refl c m

theorem raisePid_keeps (c : CtxId) (m : Dg) (pid src : Nat) : AccessKeeps c m (raisePid m pid src) := by
  unfold raisePid
  split
  · exact .refl c m
  · split
    · exact raiseIrq_keeps c m _ src
    · exact .refl c m

theorem raiseOriginPid_keeps (c : CtxId) (m : Dg) (origin pid : Nat) : AccessKeeps c m (raiseOriginPid m origin pid) :=
  .foldl (fun m _ => raisePid_keeps c m pid _) _ _

theorem fabEvt_keeps (c : CtxId) (m : Dg) (pid flag qid handle code : Nat) :
    AccessKeeps c m (fabEvt m pid flag qid handle code) := by
  unfold fabEvt
  dsimp only
  split
  · exact .of_ctx rfl rfl
  · refine .trans ?_ (raiseOriginPid_keeps c _ _ _)
    exact .of_ctx rfl rfl

theorem guardReport_keeps (c : CtxId) (m : Dg) (d : CtxId) (q : Nat) : AccessKeeps c m (guardReport m d q) :=
  .trans (.of_ctx (report_ctx _ _ _ _ _ _) (report_easel _ _ _ _ _ _)) (fabEvt_keeps _ _ _ _ _ _ _)

/-! ### Stores -/

theorem storeClean_keeps (m : Dg) (wa n : Nat) : ReadKeeps m (storeClean m wa n) :=
  (((setErr_keeps _ _ _ _).trans (setErr_keeps _ _ _ _)).trans (setErr_keeps _ _ _ _)).trans (pokeWord_keeps _ _ _)

theorem writePalette_keeps (c : CtxId) (m : Dg) (a n : Nat) : AccessKeeps c m (writePalette m a n) := by
  unfold writePalette
  dsimp only
  split
  · exact .of_ctx (reportOpen_ctx _ _ _ _) (reportOpen_easel _ _ _ _)
  · exact .of_ctx rfl rfl

theorem writeWord_keeps (c : CtxId) (m : Dg) (v : Via) (a : Nat) (mask : BitVec 16) (d : Nat) :
    AccessKeeps c m (writeWord m v a mask d).1 := by
  have clean (n : Nat) : AccessKeeps c m (storeClean m (wordOf a) n) := .of_read (storeClean_keeps _ _ _)
  unfold writeWord
  dsimp only
  split
  · exact .of_read (pokeWord_keeps _ _ _)
  · split
    · exact .refl c m
    · split
      · exact clean _
      · have hr := AccessKeeps.of_read (c := c) (readCanvas_keeps m v false (wordOf a))
        split
        · rename_i e
          rw [e] at hr
          exact hr.trans (.of_read (storeClean_keeps _ _ _))
        · rename_i e
          rw [e] at hr
          exact hr
  · split
    · exact .refl c m
    · split
      · exact clean _
      · have hr := AccessKeeps.of_read (c := c) (readDram_keeps m (wordOf a))
        split
        · rename_i e
          rw [e] at hr
          exact hr.trans (.of_read (storeClean_keeps _ _ _))
        · rename_i e
          rw [e] at hr
          exact hr
  · split
    · exact clean _
    · exact .refl c m
  · split
    · exact writePalette_keeps c m a _
    · exact .refl c m
  · exact .refl c m

theorem cacheStore_keeps (c : CtxId) (m : Dg) (e : SbEntry) : AccessKeeps c m (cacheStore m c e) :=
  .of_updCtx c m c _ fun x => by split <;> exact ⟨rfl, rfl⟩

theorem writeBack_keeps (c : CtxId) (m : Dg) (k : Nat) : AccessKeeps c m (writeBack m c k) := by
  have h : AccessKeeps c m (updCtx m c fun x => { x with dirty := SMap.set x.dirty k false }) :=
    .of_updCtx c m c _ fun _ => ⟨rfl, rfl⟩
  unfold writeBack
  dsimp only
  split
  · exact .refl c m
  · split
    · exact h.trans (writeWord_keeps c _ _ _ _ _)
    · exact h

theorem evict_keeps (c : CtxId) (m : Dg) : AccessKeeps c m (evict m c) := by
  unfold evict
  dsimp only
  split
  · exact .refl c m
  · split
    · exact (draw_keeps c m).trans (.foldl (fun m _ => writeBack_keeps c m _) _ _)
    · exact draw_keeps c m

theorem fillData_keeps (c : CtxId) (m : Dg) (a : Nat) : AccessKeeps c m (fillData m c a) := by
  refine (evict_keeps c m).trans (.foldl (fun m i => ?_) _ _)
  dsimp only
  split
  · exact .refl c m
  · have hr := AccessKeeps.of_read (c := c) (readWord_keeps m (viaCtx c) (a / 128 * 128 + 16 * i))
    split
    · rename_i e
      rw [e] at hr
      exact hr.trans (.of_updCtx c _ c _ fun _ => ⟨rfl, rfl⟩)
    · rename_i e
      rw [e] at hr
      exact hr.trans (.of_updCtx c _ c _ fun _ => ⟨rfl, rfl⟩)

theorem cacheWrite_keeps (c : CtxId) (m : Dg) (e : SbEntry) : AccessKeeps c m (cacheWrite m c e) := by
  unfold cacheWrite
  dsimp only
  have hf : AccessKeeps c m (if (SMap.get (getCtx m c).dcache (e.addr / 16)).isNone then fillData m c e.addr else m) := by
    split
    · exact fillData_keeps c m _
    · exact .refl c m
  generalize (if (SMap.get (getCtx m c).dcache (e.addr / 16)).isNone then fillData m c e.addr else m) = n at hf ⊢
  split
  · exact hf.trans (writeWord_keeps c _ _ _ _ _)
  · have hw : AccessKeeps c n (updCtx (cacheStore n c e) c fun x => { x with dirty := SMap.set x.dirty (e.addr / 16) true }) :=
      (cacheStore_keeps c n e).trans (.of_updCtx c _ c _ fun _ => ⟨rfl, rfl⟩)
    split
    · exact ((hf.trans hw).trans (draw_keeps c _)).trans (writeBack_keeps c _ _)
    · exact (hf.trans hw).trans (draw_keeps c _)

theorem memStore_keeps (c : CtxId) (m : Dg) (e : SbEntry) : AccessKeeps c m (memStore m c e) := by
  unfold memStore
  split
  · exact .of_ctx (reportOpen_ctx _ _ _ _) (reportOpen_easel _ _ _ _)
  · dsimp only
    split
    · exact guardReport_keeps c m c _
    · split
      · exact cacheWrite_keeps c m e
      · have hw := writeWord_keeps c m (viaCtx c) e.addr e.mask e.data.toNat
        split
        · rename_i h
          rw [h] at hw
          exact hw.trans (cacheStore_keeps c _ e)
        · rename_i h
          rw [h] at hw
          exact hw

theorem drainOne_keeps (c : CtxId) (m : Dg) : AccessKeeps c m (drainOne m c) := by
  unfold drainOne
  split
  · exact .refl c m
  · split
    · exact .refl c m
    · refine .trans ?_ (memStore_keeps c _ _)
      exact .of_updCtx c m c _ fun _ => ⟨rfl, rfl⟩

theorem drainN_keeps (c : CtxId) (n : Nat) (m : Dg) : AccessKeeps c m (drainN m c n) := by
  induction n generalizing m with
  | zero => exact .refl c m
  | succ n ih => exact (drainOne_keeps c m).trans (ih _)

theorem bufferHalf_keeps (c : CtxId) (m : Dg) (a len v : Nat) : AccessKeeps c m (bufferHalf m c a len v) := by
  unfold bufferHalf
  dsimp only
  split
  · exact (drainN_keeps c _ m).trans (.of_updCtx c _ c _ fun _ => ⟨rfl, rfl⟩)
  · exact .of_updCtx c m c _ fun _ => ⟨rfl, rfl⟩

theorem bufferStore_keeps (c : CtxId) (m : Dg) (a len v : Nat) : AccessKeeps c m (bufferStore m c a len v) :=
  .foldl (fun m _ => bufferHalf_keeps c m _ _ _) _ _

/-! ### Checks that pass -/

theorem guardCheck_pass {m m' : Dg} {c : CtxId} {acc a len : Nat} (h : guardCheck m c acc a len = (m', none)) : m' = m := by
  unfold guardCheck at h
  split at h
  · exact (congrArg Prod.fst h).symm
  · split at h
    · exact (congrArg Prod.fst h).symm
    · split at h
      · exact (congrArg Prod.fst h).symm
      · cases congrArg Prod.snd h

/-- A check that finds nothing changes nothing. -/
theorem checkHalf_pass {m m' : Dg} {c : CtxId} {acc a len : Nat} (h : checkHalf m c acc a len = (m', none)) : m' = m := by
  have refused {P : Prop} (h : denied m c acc a = (m', none)) : P := by cases congrArg Prod.snd h
  unfold checkHalf at h
  dsimp only at h
  split at h
  case h_1 => exact (congrArg Prod.fst h).symm
  case h_2 =>
    split at h
    · exact refused h
    · split at h
      · exact (congrArg Prod.fst h).symm
      · split at h <;> exact (congrArg Prod.fst h).symm
  case h_3 => exact (congrArg Prod.fst h).symm
  case h_4 =>
    split at h
    · exact refused h
    · split at h <;> exact (congrArg Prod.fst h).symm
  case h_5 =>
    split at h
    · exact refused h
    · exact (congrArg Prod.fst h).symm
  case h_6 =>
    split at h
    · exact refused h
    · split at h
      · exact (congrArg Prod.fst h).symm
      · split at h <;> exact (congrArg Prod.fst h).symm
  case h_7 =>
    split at h
    · exact refused h
    · split at h
      · exact (congrArg Prod.fst h).symm
      · exact guardCheck_pass h

theorem checkSpan_pass {l : List (Nat × Nat)} {m m' : Dg} {c : CtxId} {acc : Nat} (h : checkSpan m c acc l = (m', none)) :
    m' = m := by
  induction l generalizing m with
  | nil => exact (congrArg Prod.fst h).symm
  | cons e r ih =>
    unfold checkSpan at h
    split at h
    · cases congrArg Prod.snd h
    · rename_i e1
      exact (ih h).trans (checkHalf_pass e1)

theorem checkAccess_pass {m m' : Dg} {c : CtxId} {acc a len : Nat} (h : checkAccess m c acc a len = (m', none)) : m' = m := by
  unfold checkAccess at h
  split at h
  · cases congrArg Prod.snd h
  · exact checkSpan_pass h

theorem checkAccesses_pass {l : List Nat} {m m' : Dg} {c : CtxId} {acc len : Nat}
    (h : checkAccesses m c acc len l = (m', none)) : m' = m := by
  induction l generalizing m with
  | nil => exact (congrArg Prod.fst h).symm
  | cons a r ih =>
    unfold checkAccesses at h
    split at h
    · cases congrArg Prod.snd h
    · rename_i e1
      exact (ih h).trans (checkAccess_pass e1)

/-- A frame that is stored leaves registers, load and debug unit. -/
theorem storeQuads_keeps {m m' : Dg} {c : CtxId} {a : Nat} {l : List Nat} (h : storeQuads m c a l = (m', none)) :
    AccessKeeps c m m' := by
  unfold storeQuads at h
  dsimp only at h
  split at h
  · cases congrArg Prod.snd h
  · rename_i m1 e1
    obtain rfl := checkAccesses_pass e1
    split at h
    · obtain rfl := congrArg Prod.fst h
      exact (drainN_keeps c _ m1).trans (.of_ctx (pcieWrote_ctx _ _) (pcieWrote_easel _ _))
    · obtain rfl := congrArg Prod.fst h
      exact .foldl (fun m _ => bufferStore_keeps c m _ _ _) _ _

/-! ### Loads -/

theorem settle_keeps (c : CtxId) (m : Dg) (a len : Nat) : AccessKeeps c m (settle m c a len) := by
  unfold settle
  dsimp only
  split
  · exact .refl c m
  · split
    · split
      · exact .refl c m
      · exact drainN_keeps c _ m
    · exact .refl c m

theorem readCached_keeps (c : CtxId) (m : Dg) (a : Nat) : AccessKeeps c m (readCached m c a).1 := by
  unfold readCached
  dsimp only
  split
  · dsimp only
    exact fillData_keeps c m a
  · split
    · exact .refl c m
    · split
      · exact draw_keeps c m
      · dsimp only
        exact (draw_keeps c m).trans (fillData_keeps c _ a)

theorem readHalf_keeps (c : CtxId) (m : Dg) (a len : Nat) : AccessKeeps c m (readHalf m c a len).1 := by
  have hs := settle_keeps c m a len
  unfold readHalf
  dsimp only
  generalize settle m c a len = n at hs ⊢
  have hr : AccessKeeps c n (if cached n c a len then readCached n c a else readWord n (viaCtx c) (busAddr n c a)).1 := by
    cases cached n c a len
    · exact .of_read (readWord_keeps _ _ _)
    · exact readCached_keeps c n a
  generalize (if cached n c a len then readCached n c a else readWord n (viaCtx c) (busAddr n c a)) = p at hr ⊢
  obtain ⟨m1, o⟩ := p
  split
  · exact hs
  · cases o <;> exact hs.trans hr

theorem readHalves_keeps {l : List (Nat × Nat)} {m m' : Dg} {c : CtxId} {v : Nat} (h : readHalves m c l = (m', .ok v)) :
    AccessKeeps c m m' := by
  induction l generalizing m v with
  | nil =>
    obtain rfl : m = m' := congrArg Prod.fst h
    exact .refl c m
  | cons e r ih =>
    obtain ⟨a, len⟩ := e
    unfold readHalves at h
    split at h
    · cases congrArg Prod.snd h
    · rename_i m1 e1
      obtain rfl := checkHalf_pass e1
      have hr := readHalf_keeps c m1 a len
      split at h
      · cases congrArg Prod.snd h
      · rename_i e2
        rw [e2] at hr
        split at h
        · cases congrArg Prod.snd h
        · rename_i e3
          obtain rfl : _ = m' := congrArg Prod.fst h
          exact hr.trans (ih e3)

/-- A load that is answered leaves registers, outstanding load and debug unit. -/
theorem loadPart_keeps {m m' : Dg} {c : CtxId} {a len v : Nat} (h : loadPart m c a len = (m', .ok v)) : AccessKeeps c m m' := by
  unfold loadPart at h
  split at h
  · split at h
    · cases congrArg Prod.snd h
    · rename_i m1 e1
      obtain rfl := checkAccess_pass e1
      obtain rfl : (draw (draw m1).1).1 = m' := congrArg Prod.fst h
      exact (draw_keeps c m1).trans (draw_keeps c _)
  · unfold loadMem at h
    split at h
    · cases congrArg Prod.snd h
    · exact readHalves_keeps h

/-- Answered loads made one after the other. -/
theorem loads_keep {c : CtxId} {m : Dg} {ms : Nat → Dg} {addr vs : Nat → Nat} {len n : Nat} (h0 : AccessKeeps c m (ms 0))
    (h : ∀ k, k < n → loadPart (ms k) c (addr k) len = (ms (k + 1), .ok (vs k))) : AccessKeeps c m (ms n) := by
  induction n with
  | zero => exact h0
  | succ n ih => exact (ih fun k hk => h k (by omega)).trans (loadPart_keeps (h n (by omega)))

/-! ### Address registers -/

/-- A write of an address register reaches A0 to A14 or a copy of A15. -/
theorem setA_eq (r : Regs) (i : Nat) (v : Word) : ∃ a s u, r.setA i v = { r with a := a, a15s := s, a15u := u } := by
  unfold Regs.setA
  split
  · split <;> exact ⟨_, _, _, rfl⟩
  · exact ⟨_, _, _, rfl⟩

@[simp] theorem getD_setA (r : Regs) (i : Nat) (v : Word) (j : Nat) : (r.setA i v).getD j = r.getD j := by
  obtain ⟨_, _, _, e⟩ := setA_eq r i v
  rw [e]
  rfl

@[simp] theorem getA_setA_self (r : Regs) (i : Nat) (v : Word) : (r.setA i v).getA i = v := by
  unfold Regs.setA Regs.getA
  by_cases hi : i = 15
  · by_cases hm : r.mode = .user <;> simp [hi, hm]
  · simp [hi]

theorem getA_setA_other (r : Regs) (i : Nat) (v : Word) {j : Nat} (h : j ≠ i) : (r.setA i v).getA j = r.getA j := by
  unfold Regs.setA Regs.getA
  by_cases hi : i = 15
  · have hj : j ≠ 15 := hi ▸ h
    by_cases hm : r.mode = .user <;> simp [hi, hm, hj]
  · simp [hi, SMap.get_set_other _ _ _ h]

/-! ### Restored data registers (R109) -/

/-- The registers with those of a list set, in order. -/
def Regs.setDs (r : Regs) (l : List (Nat × Nat)) : Regs := l.foldl (fun r e => r.setD e.1 (BitVec.ofNat 128 e.2)) r

theorem setDs_eq (l : List (Nat × Nat)) (r : Regs) : ∃ d, r.setDs l = { r with d := d } := by
  induction l generalizing r with
  | nil => exact ⟨_, rfl⟩
  | cons e l ih => exact (ih (r.setD e.1 _)).imp fun _ h => h

theorem getD_setDs_other (l : List (Nat × Nat)) (r : Regs) {j : Nat} (h : j ∉ l.map (·.1)) : (r.setDs l).getD j = r.getD j := by
  induction l generalizing r with
  | nil => rfl
  | cons e l ih =>
    rw [List.map_cons, List.mem_cons, not_or] at h
    exact (ih _ h.2).trans (getD_setD_other _ _ _ h.1)

theorem getD_setDs_of_mem (l : List (Nat × Nat)) (r : Regs) (hl : (l.map (·.1)).Nodup) {j v : Nat} (h : (j, v) ∈ l) :
    (r.setDs l).getD j = BitVec.ofNat 128 v := by
  induction l generalizing r with
  | nil => cases h
  | cons e l ih =>
    rw [List.map_cons, List.nodup_cons] at hl
    rcases List.mem_cons.mp h with rfl | h
    · exact (getD_setDs_other l _ hl.1).trans (getD_setD _ _ _)
    · exact ih _ hl.2 h

/-! ### Branches and jumps (R112, R139) -/

/-- A branch of a ready context whose work leaves the module `m'`, and changes no register but data and address registers. -/
theorem exec_branch {s : State} {c : CtxId} {len : Nat} {i : Instr} {body : Dg → Regs → Regs → IRes} {m' : Dg} {r : Regs}
    {next : Option Addr} {kind : BrKind} (h : ready s.dg c len = true) (hi : exec i s = run s fun m => instr m c len body)
    (hb : body (fetched s.dg c len) (regsOf s.dg c) (regsOf s.dg c) = .branch m' r next kind)
    (hk : AccessKeeps c (fetched s.dg c len) m')
    (hr : ∃ d a u v, r = { regsOf s.dg c with d := d, a := a, a15s := u, a15u := v }) :
    exec i s = .next { s with dg := branched m' c len r kind next } := by
  obtain ⟨_, _, _, _, rfl⟩ := hr
  have hq := ready_quiet h
  exact exec_of_instr hi (instr_branch_on hq hb rfl (hk.calm (calm_fetched hq)) (ready_pmctl h) (ready_ldepth h))

/-- A jump goes to an aligned target, and raises ALIGN at another. -/
theorem exec_jump {s : State} {c : CtxId} {len : Nat} {i : Instr} {body : Dg → Regs → Regs → IRes} {kind : BrKind} {t : Addr}
    (h : ready s.dg c len = true) (hi : exec i s = run s fun m => instr m c len body)
    (hb : ∀ m, body m (regsOf s.dg c) (regsOf s.dg c) = jumpTo m (regsOf s.dg c) kind t) :
    (t.toNat % 4 = 0 →
      exec i s = .next { s with dg := branched (fetched s.dg c len) c len (regsOf s.dg c) kind (some t) }) ∧
    (t.toNat % 4 ≠ 0 → Traps i s c len (exn 5 3)) :=
  ⟨fun ht => exec_branch h hi ((hb _).trans (if_neg (fun e => e ht))) (.refl c _) ⟨_, _, _, _, rfl⟩,
   fun ht => traps_of (ready_quiet h) hi ((hb _).trans (if_pos ht))⟩

theorem branchBody_taken {z : Bool} {f : Br} {m : Dg} {r : Regs} (h : (r.getD f.t.toNat == 0) = z) :
    branchBody z f m r r = jumpTo m r (if z then .bz else .bnz) (relWords r.pc (f.disp.signExtend 64)) :=
  if_pos (beq_iff_eq.mpr h)

theorem branchBody_passed {z : Bool} {f : Br} {m : Dg} {r : Regs} (h : (r.getD f.t.toNat == 0) = !z) :
    branchBody z f m r r = .branch m r none (if z then .bz else .bnz) :=
  if_neg (by rw [h]; cases z <;> decide)

/-- R112: BZ or BNZ where its condition holds, and where it does not. -/
theorem exec_branchBody {s : State} {c : CtxId} {f : Br} {i : Instr} {z : Bool} (h : ready s.dg c 4 = true)
    (hi : exec i s = run s fun m => instr m c 4 (branchBody z f)) :
    let r := regsOf s.dg c
    let kind : BrKind := if z then .bz else .bnz
    let t := relWords r.pc (f.disp.signExtend 64)
    ((r.getD f.t.toNat == 0) = z →
      (t.toNat % 4 = 0 → exec i s = .next { s with dg := branched (fetched s.dg c 4) c 4 r kind (some t) }) ∧
      (t.toNat % 4 ≠ 0 → Traps i s c 4 (exn 5 3))) ∧
    ((r.getD f.t.toNat == 0) = !z → exec i s = .next { s with dg := branched (fetched s.dg c 4) c 4 r kind none }) :=
  ⟨fun hz => exec_jump h hi fun _ => branchBody_taken hz,
   fun hz => exec_branch h hi (branchBody_passed hz) (.refl c _) ⟨_, _, _, _, rfl⟩⟩

/-! ### Calls and returns (R107 to R110) -/

/-- A call whose checks pass and whose frame is stored. -/
theorem callBody_stored {c : CtxId} {len : Nat} {mask : BitVec 16} {k : BrKind} {target : Addr} {m m' : Dg} {r : Regs} {sp : Nat}
    (hsp : (r.getA 15).toNat - frameSize mask = sp) (h16 : (r.getA 15).toNat % 16 = 0)
    (hsize : frameSize mask ≤ (r.getA 15).toNat) (h48 : sp < 2 ^ 48) (hlim : stackLimit r ≤ sp) (ht : target.toNat % 4 = 0)
    (hreg : regionOf m (isSup c) sp ≠ .regs)
    (hw : drainWaits m c = false ∨ regionOf m (isSup c) sp ≠ .pcie ∧ (getCtx m c).sb.length < 20)
    (hs : storeQuads m c sp (((r.getA 14).toNat + mask.toNat * 2 ^ 64) :: (maskRegs mask).map fun i => (r.getD i).toNat) =
      (m', none)) :
    callBody c len mask k target m r r =
      .branch m' ((r.setA 15 (BitVec.ofNat 64 sp)).setA 14 ((r.pc + BitVec.ofNat 48 len).setWidth 64)) (some target) k := by
  have hold : (drainWaits m c && (regionOf m (isSup c) sp == .pcie || 20 ≤ (getCtx m c).sb.length)) = false := by
    rcases hw with hw | ⟨hp, hl⟩
    · simp [hw]
    · simp [hp, hl]
  unfold callBody
  dsimp only
  rw [hsp, if_neg (by omega), if_neg (by omega), if_neg (by omega), if_neg (fun e => hreg e.2), if_neg (by omega), hold,
    if_neg Bool.false_ne_true, hs]

/-- A call of a ready context whose checks pass and whose frame is stored. -/
theorem exec_call {s : State} {c : CtxId} {len : Nat} {mask : BitVec 16} {i : Instr} {body : Dg → Regs → Regs → IRes}
    {kind : BrKind} {target : Addr} {m' : Dg} {sp : Nat} (h : ready s.dg c len = true)
    (hi : exec i s = run s fun m => instr m c len body)
    (hb : ∀ m, body m (regsOf s.dg c) (regsOf s.dg c) = callBody c len mask kind target m (regsOf s.dg c) (regsOf s.dg c)) :
    let r := regsOf s.dg c
    let m := fetched s.dg c len
    (r.getA 15).toNat - frameSize mask = sp → (r.getA 15).toNat % 16 = 0 → frameSize mask ≤ (r.getA 15).toNat → sp < 2 ^ 48 →
    stackLimit r ≤ sp → target.toNat % 4 = 0 → regionOf m (isSup c) sp ≠ .regs →
    (drainWaits m c = false ∨ regionOf m (isSup c) sp ≠ .pcie ∧ (getCtx m c).sb.length < 20) →
    storeQuads m c sp (((r.getA 14).toNat + mask.toNat * 2 ^ 64) :: (maskRegs mask).map fun i => (r.getD i).toNat) = (m', none) →
    let r' := (r.setA 15 (BitVec.ofNat 64 sp)).setA 14 ((r.pc + BitVec.ofNat 48 len).setWidth 64)
    exec i s = .next { s with dg := branched m' c len r' kind (some target) } := by
  intro r m hsp h16 hsize h48 hlim ht hreg hw hs
  refine exec_branch h hi ((hb m).trans (callBody_stored hsp h16 hsize h48 hlim ht hreg hw hs)) (storeQuads_keeps hs) ?_
  obtain ⟨_, _, _, e1⟩ := setA_eq r 15 (BitVec.ofNat 64 sp)
  obtain ⟨_, _, _, e2⟩ := setA_eq (r.setA 15 (BitVec.ofNat 64 sp)) 14 ((r.pc + BitVec.ofNat 48 len).setWidth 64)
  rw [e2, e1]
  exact ⟨_, _, _, _, rfl⟩

theorem mem_maskRegs {mask : BitVec 16} {j : Nat} : j ∈ maskRegs mask ↔ 16 ≤ j ∧ j < 32 ∧ mask.getLsbD (j - 16) = true := by
  simp only [maskRegs, List.mem_map, List.mem_filter, List.mem_range]
  constructor
  · rintro ⟨i, ⟨hi, hm⟩, rfl⟩
    exact ⟨by omega, by omega, by simpa using hm⟩
  · rintro ⟨h16, h32, hm⟩
    exact ⟨j - 16, ⟨by omega, hm⟩, by omega⟩

theorem maskRegs_nodup (mask : BitVec 16) : (maskRegs mask).Nodup :=
  List.Pairwise.map _ (fun _ _ h e => h (Nat.add_left_cancel e)) (List.Pairwise.filter _ List.nodup_range)

/-- What RET asks for before its first load: an address and a target in range, and no waking bank. -/
structure CanReturn (m : Dg) (c : CtxId) (mask : BitVec 16) (r : Regs) : Prop where
  addr : (r.getA 15).toNat + 8 < 2 ^ 48
  mem : regionOf m (isSup c) ((r.getA 15).toNat + 8) ≠ .regs
  target : (r.getA 14).toNat % 4 = 0
  head : waits m ((r.getA 15).toNat + 8) 8 = false
  tail : waits m ((r.getA 15).toNat + frameSize mask - 16) 16 = false

theorem CanReturn.proceeds {m : Dg} {c : CtxId} {mask : BitVec 16} {r : Regs} (h : CanReturn m c mask r) :
    (waits m ((r.getA 15).toNat + 8) 8 || waits m ((r.getA 15).toNat + frameSize mask - 16) 16) = false := by
  simp [h.head, h.tail]

/-- Loads made one after the other, each from the module that the one before left, collect their values. -/
theorem foldl_collects {f : Dg × Except Exn (List Nat) → Nat → Dg × Except Exn (List Nat)} {ms : Nat → Dg} {vs : Nat → Nat} {n : Nat}
    (h : ∀ k, k < n → ∀ l, f (ms k, .ok l) k = (ms (k + 1), .ok (l ++ [vs k]))) :
    (List.range n).foldl f (ms 0, .ok []) = (ms n, .ok ((List.range n).map vs)) := by
  induction n with
  | zero => rfl
  | succ n ih =>
    rw [List.range_succ, List.foldl_append, ih fun k hk => h k (by omega)]
    simpa using h n (by omega) _

theorem retTarget_aligned {a : Word} (h : a.toNat % 4 = 0) : (a.setWidth 48 : Addr).toNat % 4 = 0 := by
  rw [BitVec.toNat_setWidth]
  omega

/-- R109: the registers with those of the frame restored, then A14, and the frame freed. -/
def Regs.restored (r : Regs) (mask : BitVec 16) (vs : List Nat) (w0 : Nat) : Regs :=
  ((r.setDs ((maskRegs mask).zip vs)).setA 14 (BitVec.ofNat 64 w0)).setA 15
    (BitVec.ofNat 64 ((r.getA 15).toNat + frameSize mask))

/-- R109: the frame word is the mask, and every load of the frame is answered. -/
theorem retBody_restored {c : CtxId} {mask : BitVec 16} {m m' : Dg} {r : Regs} {w0 : Nat} {vs : Nat → Nat} {ms : Nat → Dg}
    (hc : CanReturn m c mask r) (hword : loadPart m c ((r.getA 15).toNat + 8) 8 = (ms 0, .ok mask.toNat))
    (hregs : ∀ k, k < (maskRegs mask).length →
      loadPart (ms k) c ((r.getA 15).toNat + 16 + 16 * k) 16 = (ms (k + 1), .ok (vs k)))
    (ha14 : loadPart (ms (maskRegs mask).length) c (r.getA 15).toNat 8 = (m', .ok w0)) :
    retBody c mask m r r =
      .branch m' (r.restored mask ((List.range (maskRegs mask).length).map vs) w0) (some ((r.getA 14).setWidth 48)) .ret := by
  unfold retBody
  dsimp only
  rw [if_neg (Nat.not_le.mpr hc.addr), if_neg hc.mem, if_neg (fun e => e (retTarget_aligned hc.target)), hc.proceeds,
    if_neg Bool.false_ne_true, hword]
  dsimp only
  rw [if_neg (fun e => e rfl), foldl_collects (ms := ms) (vs := vs) fun k hk l => by dsimp only; rw [hregs k hk]]
  dsimp only
  rw [ha14]
  rfl

/-- R109: another frame word. -/
theorem retBody_mismatch {c : CtxId} {mask : BitVec 16} {m m' : Dg} {r : Regs} {word : Nat} (hc : CanReturn m c mask r)
    (hword : loadPart m c ((r.getA 15).toNat + 8) 8 = (m', .ok word)) (hne : word ≠ mask.toNat) :
    retBody c mask m r r = .trap m' (exn 8 0) := by
  unfold retBody
  dsimp only
  rw [if_neg (Nat.not_le.mpr hc.addr), if_neg hc.mem, if_neg (fun e => e (retTarget_aligned hc.target)), hc.proceeds,
    if_neg Bool.false_ne_true, hword]
  exact if_pos hne

/-! ### The registers behind a return -/

/-- A return changes data and address registers only. -/
theorem restored_eq (r : Regs) (mask : BitVec 16) (vs : List Nat) (w0 : Nat) :
    ∃ d a s u, r.restored mask vs w0 = { r with d := d, a := a, a15s := s, a15u := u } := by
  unfold Regs.restored
  obtain ⟨d, e⟩ := setDs_eq ((maskRegs mask).zip vs) r
  obtain ⟨_, _, _, e1⟩ := setA_eq { r with d := d } 14 (BitVec.ofNat 64 w0)
  obtain ⟨_, _, _, e2⟩ := setA_eq ({ r with d := d }.setA 14 (BitVec.ofNat 64 w0)) 15
    (BitVec.ofNat 64 ((r.getA 15).toNat + frameSize mask))
  rw [e, e2, e1]
  exact ⟨_, _, _, _, rfl⟩

theorem restored_getA14 (r : Regs) (mask : BitVec 16) (vs : List Nat) (w0 : Nat) :
    (r.restored mask vs w0).getA 14 = BitVec.ofNat 64 w0 :=
  (getA_setA_other _ 15 _ (by decide)).trans (getA_setA_self _ _ _)

theorem restored_getA15 (r : Regs) (mask : BitVec 16) (vs : List Nat) (w0 : Nat) :
    (r.restored mask vs w0).getA 15 = BitVec.ofNat 64 ((r.getA 15).toNat + frameSize mask) := getA_setA_self _ _ _

theorem restored_getA_other (r : Regs) (mask : BitVec 16) (vs : List Nat) (w0 : Nat) {j : Nat} (h : j < 14) :
    (r.restored mask vs w0).getA j = r.getA j := by
  obtain ⟨d, e⟩ := setDs_eq ((maskRegs mask).zip vs) r
  unfold Regs.restored
  rw [getA_setA_other _ _ _ (by omega), getA_setA_other _ _ _ (by omega), e]
  rfl

theorem restored_getD_other (r : Regs) (mask : BitVec 16) (vs : List Nat) (w0 : Nat) {j : Nat} (h : j ∉ maskRegs mask) :
    (r.restored mask vs w0).getD j = r.getD j := by
  unfold Regs.restored
  rw [getD_setA, getD_setA]
  refine getD_setDs_other _ _ fun hj => h ?_
  obtain ⟨e, he, rfl⟩ := List.mem_map.mp hj
  exact (List.of_mem_zip he).1

/-- The k-th register of the frame takes its k-th value. -/
theorem restored_getD (r : Regs) (mask : BitVec 16) (vs : Nat → Nat) (w0 : Nat) {k j : Nat} (h : (maskRegs mask)[k]? = some j) :
    (r.restored mask ((List.range (maskRegs mask).length).map vs) w0).getD j = BitVec.ofNat 128 (vs k) := by
  have hk : k < (maskRegs mask).length := (List.getElem?_eq_some_iff.mp h).1
  unfold Regs.restored
  rw [getD_setA, getD_setA]
  refine getD_setDs_of_mem _ _ ?_ (List.mem_of_getElem? (i := k) ?_)
  · rw [List.map_fst_zip (by simp)]
    exact maskRegs_nodup mask
  · rw [List.getElem?_zip_eq_some]
    exact ⟨h, by simp [hk]⟩

/-- RET with a legal encoding is a return. -/
theorem retBody_legal {c : CtxId} {f : CallR} {m : Dg} {r : Regs} (han : f.an = 0) (hrsv : f.rsv = 0) :
    (if f.an ≠ 0 ∨ f.rsv ≠ 0 then .trap m (illegal 3) else retBody c f.mask m r r) = retBody c f.mask m r r :=
  if_neg (by simp [han, hrsv])

/-- R109: a RET whose frame holds its mask and whose loads are answered. -/
theorem exec_ret_restored {s : State} {c : CtxId} {f : CallR} {m' : Dg} {w0 : Nat} {vs : Nat → Nat} {ms : Nat → Dg}
    (h : ready s.dg c 4 = true) (han : f.an = 0) (hrsv : f.rsv = 0) :
    let r := regsOf s.dg c
    let m := fetched s.dg c 4
    let n := (maskRegs f.mask).length
    CanReturn m c f.mask r → loadPart m c ((r.getA 15).toNat + 8) 8 = (ms 0, .ok f.mask.toNat) →
    (∀ k, k < n → loadPart (ms k) c ((r.getA 15).toNat + 16 + 16 * k) 16 = (ms (k + 1), .ok (vs k))) →
    loadPart (ms n) c (r.getA 15).toNat 8 = (m', .ok w0) →
    let r' := r.restored f.mask ((List.range n).map vs) w0
    exec (.ret c f) s = .next { s with dg := branched m' c 4 r' .ret (some ((r.getA 14).setWidth 48)) } := by
  intro r m n hc hword hregs ha14
  have hk : AccessKeeps c m m' := (loads_keep (loadPart_keeps hword) hregs).trans (loadPart_keeps ha14)
  exact exec_branch h rfl ((retBody_legal han hrsv).trans (retBody_restored hc hword hregs ha14)) hk (restored_eq _ _ _ _)

theorem frameSize_eq (mask : BitVec 16) :
    frameSize mask = 16 + 16 * ((List.range 16).filter fun i => mask.getLsbD i).length := by
  simp [frameSize, maskRegs]

/-- Settles O12: jumps by their targets, calls and returns by the stores and loads of their frames. -/
theorem branchesCallsReturns : Obligations.BranchesCallsReturns := by
  unfold Obligations.BranchesCallsReturns
  refine ⟨fun s c h => ⟨fun f => ⟨fun hz => ?_, fun hz => ?_⟩, fun d => exec_jump h rfl fun _ => rfl, fun f hhi hlo => ?_,
    fun h8 f hx => ?_⟩, ?_⟩
  · have hz : ((regsOf s.dg c).getD f.t.toNat == 0) = true := beq_iff_eq.mpr hz
    exact ⟨(exec_branchBody (z := true) h rfl).1 hz, (exec_branchBody (z := false) h rfl).2 hz⟩
  · have hz : ((regsOf s.dg c).getD f.t.toNat == 0) = false := beq_eq_false_iff_ne.mpr hz
    exact ⟨(exec_branchBody (z := false) h rfl).1 hz, (exec_branchBody (z := true) h rfl).2 hz⟩
  · exact exec_jump h rfl fun _ => if_neg (by simp [hhi, hlo])
  · exact exec_jump h8 rfl fun _ => if_neg (fun e => e hx)
  intro s c mask r saved size a15 sp limit calls
  have hsaved : maskRegs mask = saved.map (16 + ·) := rfl
  have hlen : (maskRegs mask).length = saved.length := List.length_map _
  have hsize : frameSize mask = size := frameSize_eq mask
  have call {i : Instr} {len : Nat} {kind : BrKind} {target : Addr} {body : Dg → Regs → Regs → IRes}
      (h : ready s.dg c len = true) (hi : exec i s = run s fun m => instr m c len body)
      (hb : ∀ m, body m r r = callBody c len mask kind target m r r) : calls i len kind target := by
    intro m' h16 hle h48 hlim ht hreg hw hs
    refine exec_call h hi hb (by rw [hsize]) h16 (hsize ▸ hle) h48 hlim ht hreg hw ?_
    rw [hsaved, List.map_map]
    exact hs
  refine ⟨fun h f hf => call h rfl fun m => ?_, fun h f hf hrsv => ?_⟩
  · rw [hf]
    rfl
  subst hf
  refine ⟨call h rfl fun m => if_neg (fun e => e hrsv), fun han haddr hmem ht hhead htail => ?_⟩
  have hc : CanReturn (fetched s.dg c 4) c f.mask r := ⟨haddr, hmem, ht, hhead, hsize ▸ htail⟩
  refine ⟨fun word w0 vs ms m' hword hmask hregs ha14 => ?_, fun word m' hword hne => ?_⟩
  · subst hmask
    rw [← hlen] at hregs ha14
    refine ⟨r.restored f.mask ((List.range (maskRegs f.mask).length).map vs) w0,
      exec_ret_restored h han hrsv hc hword hregs ha14, fun k i hi => ?_, fun j hj => ?_,
      restored_getA14 _ _ _ _, hsize ▸ restored_getA15 _ _ _ _, fun j hj => restored_getA_other _ _ _ _ hj, ?_⟩
    · exact restored_getD _ _ _ _ (by rw [hsaved, List.getElem?_map, hi]; rfl)
    · refine restored_getD_other _ _ _ _ fun hm => ?_
      obtain ⟨h16, h32, hbit⟩ := mem_maskRegs.mp hm
      rcases hj with hj | hj | hj
      · omega
      · exact Bool.noConfusion (hbit.symm.trans hj)
      · omega
    · obtain ⟨_, _, _, _, e⟩ := restored_eq r f.mask ((List.range (maskRegs f.mask).length).map vs) w0
      rw [e]
  · exact exec_trap (ready_quiet h) rfl ((retBody_legal han hrsv).trans (retBody_mismatch hc hword hne)) (by decide)

end Sys2Proof.Machine
end

section
/-! SUPPORT. Multiply-accumulate, division and packed decimal of spec/03 in the terms of the rules: what `macExact`, `divStep`,
`diveSlot` and `decOp` compute, and how their instructions retire. -/
namespace Sys2Proof.Machine

/-! ### Fields of an instruction word -/

theorem intWidth_code_lt {k : BitVec 3} {w : Nat} (h : intWidth k = some w) (hw : w < 128) : k.toNat < 4 := by
  obtain ⟨-, rfl⟩ : k.toNat ≤ 4 ∧ 8 * 2 ^ k.toNat = w := by simpa [intWidth] using h
  exact (Nat.pow_lt_pow_iff_right (by decide : 1 < 2)).mp (by omega : 2 ^ k.toNat < 2 ^ 4)

/-- FN[6:2], the second register that DIVE and DEC write. -/
theorem bits_fn_reg (fn : BitVec 7) : bits fn.toNat 2 5 = fn.toNat / 4 := by
  have := fn.isLt
  unfold bits
  omega

/-! ### Multiply-accumulate (R161, R162) -/

theorem macSum_eq (w : Nat) (signed : Bool) (a b : Quad) :
    macSum w signed a b = ((List.range (128 / w)).map fun i => asInt w signed (elem w a i) * asInt w signed (elem w b i)).sum := by
  rw [List.sum_eq_foldl, List.foldl_map]
  rfl

theorem clampInt_eq {lo hi : Int} (h : lo ≤ hi) (i : Int) : clampInt lo hi i = max lo (min i hi) := by
  unfold clampInt
  split
  · omega
  · split <;> omega

/-- MAC and MACS with legal codes retire with the exact result, or with that result clamped, in the accumulator. -/
theorem mac_retires {s : State} {c : CtxId} {f : Rrr} {w : Nat} {sat : Bool} {i : Instr} {e v : Int} (h : ready s.dg c 4 = true)
    (hw : intWidth f.w = some w) (hd : f.d.toNat < 4) (hf : f.fn.toNat < 4)
    (hi : exec i s = run s fun m => instr m c 4 (macBody sat f))
    (he : macExact f.fn.toNat w (SMap.get (regsOf s.dg c).acc f.d.toNat) ((regsOf s.dg c).getD f.s1.toNat)
      ((regsOf s.dg c).getD f.s2.toNat) = e)
    (hv : (if sat then clampInt (-(2 ^ 255)) (2 ^ 255 - 1) e else e) = v) :
    Retires i s c 4 { regsOf s.dg c with acc := SMap.set (regsOf s.dg c).acc f.d.toNat (BitVec.ofInt 272 v) } := by
  refine retires_of (evs := []) h hi ?_ rfl rfl
  rw [macBody, checked_pass (by simp [hw, hd, hf])]
  simp only [hw, Option.getD_some, he, hv, regs]

/-! ### Restoring division (R165, R166) -/

theorem toInt_natAbs_lt {w x : Nat} (hw : 0 < w) (hx : x < 2 ^ w) : (toInt w x).natAbs < 2 ^ w := by
  rcases toInt_cases hw hx with ⟨e, -⟩ | ⟨e, hle⟩
  · rwa [e, Int.natAbs_natCast]
  · have := Nat.two_pow_pos (w - 1)
    rw [e]
    omega

theorem absElem_eq {w x : Nat} (hw : 0 < w) (hx : x < 2 ^ w) : absElem w x = (toInt w x).natAbs :=
  ofInt_of_lt (toInt_natAbs_lt hw hx)

/-- R166: the divisor that the FN code of DIVS takes, as it is or by its magnitude. -/
theorem divisor_eq {fn : BitVec 7} {w y : Nat} (hf : fn.toNat < 2) (hw : 0 < w) (hy : y < 2 ^ w) :
    (if (fn.toNat == 1) = true then absElem w y else y) = if fn = 0 then y else (toInt w y).natAbs := by
  by_cases e : fn = 0
  · simp [e]
  · have : fn.toNat = 1 := by bv_omega
    rw [if_pos (beq_iff_eq.mpr this), if_neg e, absElem_eq hw hy]

theorem bits_top {w n : Nat} (hw : 0 < w) (hn : n < 2 ^ w) : bits n (w - 1) 1 = n / 2 ^ (w - 1) := by
  have := Nat.two_pow_pred_mul_two hw
  exact Nat.mod_eq_of_lt ((Nat.div_lt_iff_lt_mul (Nat.two_pow_pos _)).mpr (by omega))

/-- R166: a step compares the divisor with the remainder doubled, the quotient's top bit shifted in. -/
theorem divStep_eq {w q r : Nat} (hw : 0 < w) (hq : q < 2 ^ w) (hr : r < 2 ^ w) (v : Nat) :
    divStep w q r v =
      if v ≤ r * 2 + q / 2 ^ (w - 1) then (q * 2 % 2 ^ w + 1, (r * 2 + q / 2 ^ (w - 1) - v) % 2 ^ w)
      else (q * 2 % 2 ^ w, (r * 2 + q / 2 ^ (w - 1)) % 2 ^ w) := by
  have h2 := Nat.two_pow_pred_mul_two hw
  have hpos := Nat.two_pow_pos (w - 1)
  have hb : q / 2 ^ (w - 1) < 2 := (Nat.div_lt_iff_lt_mul hpos).mpr (by omega)
  have hc : r / 2 ^ (w - 1) * 2 ^ w + r * 2 % 2 ^ w = r * 2 := by
    rw [← h2, Nat.mul_mod_mul_right, ← Nat.mul_assoc, ← Nat.add_mul, Nat.mul_comm (r / _), Nat.div_add_mod]
  have hlow : r * 2 % 2 ^ w + q / 2 ^ (w - 1) < 2 ^ w := by
    rw [← h2, Nat.mul_mod_mul_right]
    have := Nat.mod_lt r hpos
    omega
  have hmod : (r * 2 + q / 2 ^ (w - 1)) % 2 ^ w = r * 2 % 2 ^ w + q / 2 ^ (w - 1) := by
    rw [← Nat.mod_add_mod, Nat.mod_eq_of_lt hlow]
  simp only [divStep, bits_top hw hq, bits_top hw hr, ← Nat.add_assoc, hc, hmod]

/-- From a remainder below the divisor, a step shifts the next quotient bit in and leaves the remainder of what it divided. -/
theorem divStep_of_lt {w q r v : Nat} (hw : 0 < w) (hq : q < 2 ^ w) (hr : r < v) (hv : v < 2 ^ w) :
    divStep w q r v = (q * 2 % 2 ^ w + (r * 2 + q / 2 ^ (w - 1)) / v, (r * 2 + q / 2 ^ (w - 1)) % v) := by
  have h2 := Nat.two_pow_pred_mul_two hw
  have hb : q / 2 ^ (w - 1) < 2 := (Nat.div_lt_iff_lt_mul (Nat.two_pow_pos _)).mpr (by omega)
  rw [divStep_eq hw hq (Nat.lt_trans hr hv)]
  generalize q / 2 ^ (w - 1) = b at hb
  split
  · rename_i hle
    have hone : (r * 2 + b) / v = 1 := Nat.div_eq_of_lt_le (by omega) (by omega)
    have hrem : (r * 2 + b - v) % 2 ^ w = r * 2 + b - v := Nat.mod_eq_of_lt (by omega)
    rw [hone, hrem, Nat.mod_eq_sub_mod hle, Nat.mod_eq_of_lt (show r * 2 + b - v < v by omega)]
  · rename_i hlt
    have hlt : r * 2 + b < v := Nat.lt_of_not_le hlt
    rw [Nat.div_eq_of_lt hlt, Nat.mod_eq_of_lt hlt, Nat.mod_eq_of_lt (Nat.lt_trans hlt hv), Nat.add_zero]

/-- The doubled quotient in two parts: its top bit, which a step shifts out, and the rest. -/
theorem double_top {w q rest b : Nat} (hw : 0 < w) (h : q * 2 = rest + 2 ^ w * b) (hrest : rest < 2 ^ w) (hb : b < 2) :
    q < 2 ^ w ∧ q / 2 ^ (w - 1) = b ∧ q * 2 % 2 ^ w = rest := by
  have hle := Nat.mul_le_mul_left (2 ^ w) (Nat.le_of_lt_succ hb)
  refine ⟨by omega, ?_, ?_⟩
  · rw [← Nat.mul_div_mul_right _ _ Nat.two_pos, Nat.two_pow_pred_mul_two hw, h,
      Nat.add_mul_div_left _ _ (Nat.two_pow_pos w), Nat.div_eq_of_lt hrest, Nat.zero_add]
  · rw [h, Nat.add_mul_mod_self_left, Nat.mod_eq_of_lt hrest]

/-- One step of dividing `x`: `k` of its bits have been divided, and `m + 1` of them are still to divide. -/
theorem divStep_dividing {m k x v : Nat} (hx : x < 2 ^ (m + 1 + k)) (hv0 : 0 < v) (hv : v < 2 ^ (m + 1 + k)) :
    divStep (m + 1 + k) (x % 2 ^ (m + 1) * 2 ^ k + x / 2 ^ (m + 1) / v) (x / 2 ^ (m + 1) % v) v =
      (x % 2 ^ m * 2 ^ (k + 1) + x / 2 ^ m / v, x / 2 ^ m % v) := by
  have hmk : 2 ^ (m + 1 + k) = 2 ^ m * 2 ^ (k + 1) := by rw [← Nat.pow_add, Nat.add_assoc, Nat.add_comm 1 k]
  have hlow := Nat.mod_lt x (Nat.two_pow_pos m)
  have hhigh : x / 2 ^ m < 2 ^ (k + 1) := Nat.div_lt_of_lt_mul (hmk ▸ hx)
  rw [Nat.pow_succ 2 m, Nat.mod_mul, ← Nat.div_div_eq_div_mul]
  generalize x % 2 ^ m = low at hlow
  generalize x / 2 ^ m = high at hhigh
  have hdouble : ((low + 2 ^ m * (high % 2)) * 2 ^ k + high / 2 / v) * 2 =
      low * 2 ^ (k + 1) + high / 2 / v * 2 + 2 ^ (m + 1 + k) * (high % 2) := by
    rw [hmk, Nat.pow_succ 2 k, Nat.add_mul, Nat.mul_assoc _ _ 2, Nat.add_mul low, Nat.mul_right_comm (2 ^ m)]
    omega
  have hrest : low * 2 ^ (k + 1) + high / 2 / v * 2 < 2 ^ (m + 1 + k) := by
    have hle := Nat.mul_le_mul_right (2 ^ (k + 1)) (Nat.succ_le_of_lt hlow)
    have hdiv : high / 2 / v ≤ high / 2 := Nat.div_le_self _ _
    rw [Nat.succ_mul, ← hmk] at hle
    omega
  obtain ⟨hq, htop, hshift⟩ := double_top (by omega) hdouble hrest (Nat.mod_lt _ Nat.two_pos)
  have hhigh2 : high = high / 2 % v * 2 + high % 2 + v * (high / 2 / v * 2) := by
    have hdm := Nat.div_add_mod (high / 2) v
    rw [← Nat.mul_assoc]
    omega
  rw [divStep_of_lt (by omega) hq (Nat.mod_lt _ hv0) hv, htop, hshift]
  generalize high / 2 % v * 2 + high % 2 = t at hhigh2 ⊢
  generalize high / 2 / v = z at hhigh2 ⊢
  rw [hhigh2, Nat.add_mul_div_left _ _ hv0, Nat.add_mul_mod_self_left, Nat.add_assoc, Nat.add_comm (z * 2)]

/-- The state after `k` steps: the low bits of `x` still to divide above the quotient of its high bits, and their remainder. -/
theorem divStep_iterate {w x v : Nat} (hx : x < 2 ^ w) (hv0 : 0 < v) (hv : v < 2 ^ w) (k : Nat) (hk : k ≤ w) :
    (List.range k).foldl (fun st _ => divStep w st.1 st.2 v) (x, 0) =
      (x % 2 ^ (w - k) * 2 ^ k + x / 2 ^ (w - k) / v, x / 2 ^ (w - k) % v) := by
  induction k with
  | zero => simp [Nat.mod_eq_of_lt hx, Nat.div_eq_of_lt hx]
  | succ k ih =>
    obtain ⟨m, rfl⟩ : ∃ m, w = m + 1 + k := ⟨w - (k + 1), by omega⟩
    rw [List.range_succ, List.foldl_append, ih (by omega), Nat.add_sub_cancel, show m + 1 + k - (k + 1) = m by omega]
    exact divStep_dividing hx hv0 hv

/-- R166: `w` steps divide. -/
theorem divSteps_divide {w x v : Nat} (hx : x < 2 ^ w) (hv0 : 0 < v) (hv : v < 2 ^ w) :
    (List.range w).foldl (fun st _ => divStep w st.1 st.2 v) (x, 0) = (x / v, x % v) := by
  rw [divStep_iterate hx hv0 hv w (Nat.le_refl w)]
  simp [Nat.mod_one]

/-! ### The end of a division (R167, R168) -/

/-- DIVE with legal codes retires with the quotients, remainders and statuses of its slots. -/
theorem dive_retires {s : State} {c : CtxId} {f : Rrr} {w : Nat} {res : Nat → Nat × Nat × Nat} (h : ready s.dg c 4 = true)
    (hw : intWidth f.w = some w) (hlt : w < 128) (hf : f.fn.toNat / 2 % 2 = 0) (hst : f.fn.toNat / 4 ≠ f.d.toNat)
    (hres : ∀ j, diveAt (f.fn.toNat % 2 == 1) w ((regsOf s.dg c).getD f.d.toNat) ((regsOf s.dg c).getD f.s1.toNat)
      ((regsOf s.dg c).getD f.s2.toNat) j = res j) :
    Retires (.dive c f) s c 4
      (((regsOf s.dg c).setD f.d.toNat (ofSlots w fun j => ((res j).1, (res j).2.1))).setD (f.fn.toNat / 4)
        (ofSlots w fun j => ((res j).2.2, 0))) := by
  refine retires_of (evs := []) h rfl ?_ rfl rfl
  have hk := intWidth_code_lt hw hlt
  have h0 : bit f.fn.toNat 0 = (f.fn.toNat % 2 == 1) := by simp [bit, bits]
  have h1 : bit f.fn.toNat 1 = false := by simp [bit, bits, hf]
  rw [diveBody, checked_pass (by simp [h1, bits_fn_reg, hst, hk])]
  simp only [h0, bits_fn_reg, hw, Option.getD_some, dive, diveStatus, hres, regs]

/-- Table 03.2 with the negations modulo 2^w written out. -/
theorem diveSlot_eq (signed : Bool) {w q r : Nat} (hq : q < 2 ^ w) (hr : r < 2 ^ w) (a b : Nat) :
    diveSlot signed w q r a b =
      if b = 0 then (a, a, 1)
      else if signed = true ∧ toInt w a = -(2 ^ (w - 1)) ∧ toInt w b = -1 then (a, 0, 1)
      else if signed = true then
        (if (toInt w a < 0) = (toInt w b < 0) then q else (2 ^ w - q) % 2 ^ w,
         if toInt w a < 0 then (2 ^ w - r) % 2 ^ w else r, 0)
      else (q, r, 0) := by
  simp [diveSlot, ofInt_neg hq, ofInt_neg hr, and_assoc]

/-- Settles O3: slot by slot through `divStep_eq` and `diveSlot_eq`, and the quotient by `divStep_iterate`. -/
theorem accumulatorAndDivisionResults : Obligations.AccumulatorAndDivisionResults := by
  unfold Obligations.AccumulatorAndDivisionResults
  refine ⟨fun s c f w h hw => ?_, fun w x v _ hx hv0 hv => divSteps_divide hx hv0 hv⟩
  intro r d x y st slots
  have hpos := intWidth_pos hw
  have hx (i : Nat) : x i < 2 ^ w := elem_lt w _ i
  have hy (i : Nat) : y i < 2 ^ w := elem_lt w _ i
  have hst (i : Nat) : st i < 2 ^ w := elem_lt w _ i
  have unary {n : BitVec 7} {i : Instr} {v : Quad} (hs : f.s2 = 0) (hf : f.fn = n)
      (hi : exec i s = run s fun m => instr m c 4 (rrrBody 0x0F true f))
      (hv : rrrValue 0x0F n.toNat w (r.getD f.s1.toNat) (r.getD f.s2.toNat) = some v) : Retires i s c 4 (r.setD d v) :=
    rrr_retires h hw (fun _ => hs) hi (by rw [hf]; exact hv)
  refine ⟨fun hd hf => ?mac, fun hlt hs hf => unary hs hf rfl (if_pos hlt),
    fun hlt hs hf => unary hs hf rfl ((if_pos hlt).trans ?initS), fun hlt hf => ?divs, fun hlt hf hne => ?dive⟩
  case mac =>
    intro val sum exact'
    have hval (n : Nat) : asInt w (f.fn.toNat < 2) n = val n := by simp [asInt, val]
    have he : macExact f.fn.toNat w (SMap.get r.acc d) (r.getD f.s1.toNat) (r.getD f.s2.toNat) = exact' := by
      simp only [macExact, macSum_eq, hval]
      rfl
    exact ⟨mac_retires h hw hd hf rfl he (if_neg Bool.false_ne_true),
      mac_retires h hw hd hf rfl he ((if_pos rfl).trans (clampInt_eq (by decide) _))⟩
  case initS => exact congrArg (fun g => some (ofSlots w g)) (funext fun j => congrArg (·, 0) (absElem_eq hpos (hx _)))
  case divs =>
    have hlegal : (decide (f.fn.toNat ≤ 1) && decide (w < 128)) = true := by simpa [hlt] using Nat.le_of_lt_succ hf
    refine rrr_retires (op := 0x1C) h hw (fun e => Bool.noConfusion e) rfl ((if_pos hlegal).trans ?_)
    exact congrArg (fun g => some (ofSlots w g)) (funext fun j =>
      (congrArg (divStep w _ _) (divisor_eq hf hpos (hy _))).trans (divStep_eq hpos (hx _) (hx _) _))
  case dive =>
    intro signed res
    refine dive_retires h hw hlt hf hne fun j => (diveSlot_eq _ (hst _) (hst _) _ _).trans ?_
    simp only [beq_iff_eq]
    rfl

/-! ### Packed decimal (R170 to R174) -/

/-- A DEC instruction with legal codes retires with its value and 1, or with 0 in both registers. -/
theorem dec_retires {s : State} {c : CtxId} {f : Rrr} {i : Instr} {o : Option Quad} (h : ready s.dg c 4 = true) (hw : f.w = 4)
    (hne : f.fn.toNat / 4 ≠ f.d.toNat) (hs : 2 ≤ f.fn.toNat % 4 → f.s2 = 0)
    (hi : exec i s = run s fun m => instr m c 4 (decBody f))
    (ho : decOp (f.fn.toNat % 4) ((regsOf s.dg c).getD f.s1.toNat) ((regsOf s.dg c).getD f.s2.toNat) = o) :
    Retires i s c 4
      (((regsOf s.dg c).setD f.d.toNat (o.getD 0)).setD (f.fn.toNat / 4) (if o.isSome then 1 else 0)) := by
  refine retires_of (evs := []) h hi ?_ rfl rfl
  rw [decBody, checked_pass (by simpa [hw, bits_fn_reg, hne] using hs), ho, bits_fn_reg]
  cases o with
  | none => rfl
  | some v => rfl

/-- The operation that FN[1:0] selects is an addition or a subtraction. -/
def DecSum (n : Nat) (op : Int → Int → Int) : Prop := n = 0 ∧ op = (· + ·) ∨ n = 1 ∧ op = (· - ·)

/-- R174: both operands carry the sign nibble 0xF. -/
theorem bothUnsigned_eq (p q : Quad) :
    (p.toNat % 16 == 15 && q.toNat % 16 == 15) = decide (p.toNat % 16 = 15 ∧ q.toNat % 16 = 15) :=
  (Bool.decide_and _ _).symm

theorem decOp_sum_valid {n : Nat} {op : Int → Int → Int} (h : DecSum n op) {p q : Quad} {a b : Int} (ha : decVal p = some a)
    (hb : decVal q = some b) :
    decOp n p q = if (op a b).natAbs < 10 ^ 31 then
      some (decPack (decide (p.toNat % 16 = 15 ∧ q.toNat % 16 = 15)) (op a b)) else none := by
  obtain ⟨rfl, rfl⟩ | ⟨rfl, rfl⟩ := h
  · simp only [decOp, ha, hb, bothUnsigned_eq]
  · simp only [decOp, ha, hb, bothUnsigned_eq]

/-- R173: one invalid operand is enough. -/
theorem decOp_sum_invalid {n : Nat} {op : Int → Int → Int} (h : DecSum n op) {p q : Quad}
    (hpq : decVal p = none ∨ decVal q = none) : decOp n p q = none := by
  obtain ⟨rfl, rfl⟩ | ⟨rfl, rfl⟩ := h
  all_goals
    rcases hpq with e | e
    · simp only [decOp, e]
    · cases ha : decVal p with
      | none => simp only [decOp, ha]
      | some a => simp only [decOp, ha, e]

/-- Settles O4: `decOp` gives the value of each operation. -/
theorem decimalResults : Obligations.DecimalResults := by
  unfold Obligations.DecimalResults
  intro s c f h hw hne r p q bothF gives sum
  have dec {i : Instr} {o : Option Quad} {n : Nat} (hf : f.fn.toNat % 4 = n) (hs : 2 ≤ n → f.s2 = 0)
      (hi : exec i s = run s fun m => instr m c 4 (decBody f)) (ho : decOp n p q = o) : gives i o :=
    dec_retires h hw hne (hf ▸ hs) hi (hf ▸ ho)
  have sums {n : Nat} {i : Instr} {op : Int → Int → Int} (hf : f.fn.toNat % 4 = n) (hop : DecSum n op) (hn : n < 2)
      (hi : exec i s = run s fun m => instr m c 4 (decBody f)) : sum i op := by
    have value {o : Option Quad} (ho : decOp n p q = o) : gives i o := dec hf (fun h2 => by omega) hi ho
    exact ⟨fun a b ha hb hlt => value ((decOp_sum_valid hop ha hb).trans (if_pos hlt)),
      fun a b ha hb hle => value ((decOp_sum_valid hop ha hb).trans (if_neg (Nat.not_lt.mpr hle))),
      fun hpq => value (decOp_sum_invalid hop hpq)⟩
  exact ⟨fun hf => sums hf (.inl ⟨rfl, rfl⟩) (by decide) rfl, fun hf => sums hf (.inr ⟨rfl, rfl⟩) (by decide) rfl,
    fun hf hs => dec hf (fun _ => hs) rfl rfl, fun hf hs => dec hf (fun _ => hs) rfl rfl⟩

end Sys2Proof.Machine
end

section
/-! SUPPORT. Flags and overrun counters of event registers (R18, R80): what a set and a clear of one flag leave in every flag and
counter, and the two in sequence as a write in the cycle of new events. -/
namespace Sys2Proof.Machine

theorem bit_eq_testBit (n i : Nat) : bit n i = n.testBit i := by
  rw [bit, bits, Nat.pow_one, Nat.testBit_eq_decide_div_mod_eq]
  rfl

theorem bit_setBits_one (n i v j : Nat) : bit (setBits n i 1 v) j = if j = i then bit v 0 else bit n j := by
  have hlow : n % 2 ^ i < 2 ^ i := Nat.mod_lt _ (Nat.two_pow_pos i)
  have hparts : setBits n i 1 v = 2 ^ i * (2 * (n / 2 ^ (i + 1)) + v % 2) + n % 2 ^ i := by
    have hhigh (q : Nat) : q * 2 ^ (i + 1) = 2 ^ i * (2 * q) := by rw [Nat.pow_succ, Nat.mul_comm, Nat.mul_assoc]
    rw [setBits, Nat.pow_one, hhigh, Nat.mul_add, Nat.mul_comm (2 ^ i) (v % 2)]
    omega
  simp only [bit_eq_testBit, hparts, Nat.testBit_two_pow_mul_add _ hlow]
  obtain hj | rfl | hj := Nat.lt_trichotomy j i
  · rw [if_pos hj, if_neg (Nat.ne_of_lt hj), Nat.testBit_mod_two_pow, decide_eq_true hj, Bool.true_and]
  · simp [Nat.testBit_zero]
  · obtain ⟨d, rfl⟩ := Nat.exists_eq_add_of_lt hj
    rw [if_neg (by omega), if_neg (by omega), show i + d + 1 - i = d + 1 by omega, Nat.testBit_succ,
      show (2 * (n / 2 ^ (i + 1)) + v % 2) / 2 = n / 2 ^ (i + 1) by omega, Nat.testBit_div_two_pow]
    congr 1
    omega

namespace Evt

theorem set_flag (e : Evt) (i j : Nat) : bit (e.set i).flags j = (decide (j = i) || bit e.flags j) := by
  unfold set setW
  split
  · rename_i hi
    by_cases hj : j = i <;> simp [hj, hi]
  · rw [bit_setBits_one]
    by_cases hj : j = i
    · simp only [hj, if_pos, decide_true, Bool.true_or]
      rfl
    · simp [hj]

theorem set_ovr (e : Evt) (i j : Nat) :
    SMap.get (e.set i).ovr j = if j = i ∧ bit e.flags i = true then satInc 8 (SMap.get e.ovr j) else SMap.get e.ovr j := by
  unfold set setW
  split
  · rename_i hi
    simp only [SMap.upd, SMap.get_set, hi, and_true]
    split
    · rename_i hj
      rw [hj]
    · rfl
  · rename_i hi
    simp [hi]

theorem clear_flag (e : Evt) (i j : Nat) : bit (e.clear i).flags j = (decide (j ≠ i) && bit e.flags j) := by
  rw [clear, bit_setBits_one]
  by_cases hj : j = i
  · simp only [hj, if_pos, ne_eq, not_true_eq_false, decide_false, Bool.false_and]
    rfl
  · simp [hj]

theorem clear_ovr (e : Evt) (i j : Nat) : SMap.get (e.clear i).ovr j = if j = i then 0 else SMap.get e.ovr j := by
  simp only [clear, SMap.get_set]

/-- The flags of a list are set, one after the other. -/
def sets (e : Evt) (l : List Nat) : Evt := l.foldl set e

theorem sets_flag (e : Evt) (l : List Nat) (j : Nat) : bit (e.sets l).flags j = (decide (j ∈ l) || bit e.flags j) := by
  induction l generalizing e with
  | nil => simp [sets]
  | cons i r ih =>
    have h : e.sets (i :: r) = (e.set i).sets r := rfl
    simp only [h, ih, set_flag, List.mem_cons, Bool.decide_or]
    ac_rfl

theorem sets_ovr (e : Evt) {l : List Nat} (hl : l.Nodup) (j : Nat) :
    SMap.get (e.sets l).ovr j = if j ∈ l ∧ bit e.flags j = true then satInc 8 (SMap.get e.ovr j) else SMap.get e.ovr j := by
  induction l generalizing e with
  | nil => simp [sets]
  | cons i r ih =>
    obtain ⟨hi, hr⟩ := List.nodup_cons.mp hl
    have h : e.sets (i :: r) = (e.set i).sets r := rfl
    rw [h, ih (e.set i) hr, set_flag, set_ovr]
    by_cases hj : j = i
    · subst hj
      simp [hi]
    · simp [hj]

end Evt

theorem w1cEvt_flag_ovr (e : Evt) (v hw : Nat) (l : List Nat) (j : Nat) :
    let e' := l.foldl (fun e i => if bit v i && !bit hw i then e.clear i else e) e
    let clears := j ∈ l ∧ (bit v j && !bit hw j) = true
    bit e'.flags j = (!decide clears && bit e.flags j) ∧ SMap.get e'.ovr j = if clears then 0 else SMap.get e.ovr j := by
  induction l generalizing e with
  | nil => simp
  | cons i r ih =>
    obtain ⟨hf, ho⟩ := ih (if bit v i && !bit hw i then e.clear i else e)
    simp only [List.foldl_cons, hf, ho]
    by_cases hj : j = i
    · subst hj
      by_cases hp : (bit v j && !bit hw j) = true
      · simp [hp, Evt.clear_flag, Evt.clear_ovr]
      · simp [hp]
    · split
      · simp [hj, Evt.clear_flag, Evt.clear_ovr]
      · simp [hj]

/-- R18: a write clears the flags that hardware does not set in its cycle, and hardware then sets its own: each flag and its
counter end as both together have it. -/
theorem w1cEvt_sets (e : Evt) (n v hw : Nat) : W1cOutcome 8 n e ((w1cEvt e n v hw).sets ((List.range n).filter (bit hw))) v hw := by
  intro i hi
  obtain ⟨hf, ho⟩ := w1cEvt_flag_ovr e v hw (List.range n) i
  rw [Evt.sets_flag, Evt.sets_ovr _ (List.nodup_range.filter _), w1cEvt, hf, ho]
  cases hh : bit hw i <;> cases hv : bit v i <;> simp [hi, hh]

end Sys2Proof.Machine
end

section
/-! SUPPORT. What interrupts raised change, and what the drains of a context leave of all that a watchdog's command looks at. -/
namespace Sys2Proof.Machine

/-! ### Interrupts raised -/

/-- Nothing but contexts differs, and they hold the partitions that they held. -/
structure IrqKeeps (m m' : Dg) : Prop where
  rest : { m' with ctx := m.ctx } = m
  pid : ∀ c, (getCtx m' c).pid = (getCtx m c).pid

theorem IrqKeeps.refl (m : Dg) : IrqKeeps m m := ⟨rfl, fun _ => rfl⟩

theorem IrqKeeps.trans {m n o : Dg} (h : IrqKeeps m n) (k : IrqKeeps n o) : IrqKeeps m o where
  rest := calc
    { o with ctx := m.ctx } = { { o with ctx := n.ctx } with ctx := m.ctx } := rfl
    _ = { n with ctx := m.ctx } := by rw [k.rest]
    _ = m := h.rest
  pid c := (k.pid c).trans (h.pid c)

theorem raiseIrq_irqKeeps (m : Dg) (c : CtxId) (src : Nat) : IrqKeeps m (raiseIrq m c src) := by
  unfold raiseIrq
  dsimp only
  split
  · refine ⟨rfl, fun d => ?_⟩
    by_cases h : d = c
    · rw [h, getCtx_setCtx]
    · rw [getCtx_setCtx_other m c _ h]
  · exact .refl m

theorem raisePid_irqKeeps (m : Dg) (pid src : Nat) : IrqKeeps m (raisePid m pid src) := by
  unfold raisePid
  split
  · exact .refl m
  · split
    · exact raiseIrq_irqKeeps m _ src
    · exact .refl m

theorem raiseOrigin_irqKeeps (m : Dg) (origin unit : Nat) : IrqKeeps m (raiseOrigin m origin unit) :=
  List.foldlRecOn (motive := IrqKeeps m) _ _ (.refl m) fun _ h _ _ => h.trans (raisePid_irqKeeps _ _ _)

theorem raiseOriginPid_irqKeeps (m : Dg) (origin pid : Nat) : IrqKeeps m (raiseOriginPid m origin pid) :=
  List.foldlRecOn (motive := IrqKeeps m) _ _ (.refl m) fun _ h _ _ => h.trans (raisePid_irqKeeps _ _ _)

/-! ### Stores drained -/

/-- What a command of a watchdog finds outside its context: the watchdogs, the time that they count, and the studios, which tell
what set a context uses. -/
def wdgView (m : Dg) : SMap Wdg × Nat × Stu := (m.wdg, m.now, m.stu)

theorem ReadKeeps.wdgView_eq {m m' : Dg} (h : ReadKeeps m m') : wdgView m' = wdgView m := by
  rw [wdgView, h.wdg, h.now, h.stu, wdgView]

theorem IrqKeeps.wdgView_eq {m m' : Dg} (h : IrqKeeps m m') : wdgView m' = wdgView m :=
  (congrArg wdgView h.rest :)

/-- A step that is made for each of a list leaves what each single one leaves. -/
theorem wdgView_foldl {α : Type} {f : Dg → α → Dg} (hf : ∀ m a, wdgView (f m a) = wdgView m) (l : List α) (m : Dg) :
    wdgView (l.foldl f m) = wdgView m :=
  List.foldlRecOn (motive := fun n => wdgView n = wdgView m) _ _ rfl fun _ h _ _ => (hf _ _).trans h

theorem wdgView_updCtx (m : Dg) (c : CtxId) (f : Ctx → Ctx) : wdgView (updCtx m c f) = wdgView m := rfl
theorem wdgView_draw (m : Dg) : wdgView (draw m).1 = wdgView m := rfl
theorem wdgView_reportOpen (m : Dg) (src kind a : Nat) : wdgView (reportOpen m src kind a) = wdgView m := rfl

theorem wdgView_fabEvt (m : Dg) (pid flag qid handle code : Nat) :
    wdgView (fabEvt m pid flag qid handle code) = wdgView m := by
  unfold fabEvt
  dsimp only
  split
  · rfl
  · exact (raiseOriginPid_irqKeeps _ _ _).wdgView_eq

theorem wdgView_guardReport (m : Dg) (c : CtxId) (q : Nat) : wdgView (guardReport m c q) = wdgView m :=
  wdgView_fabEvt _ _ _ _ _ _

theorem wdgView_storeClean (m : Dg) (wa n : Nat) : wdgView (storeClean m wa n) = wdgView m :=
  (storeClean_keeps m wa n).wdgView_eq

theorem wdgView_writePalette (m : Dg) (a n : Nat) : wdgView (writePalette m a n) = wdgView m := by
  unfold writePalette
  dsimp only
  split
  · exact wdgView_reportOpen _ _ _ _
  · rfl

/-- A write of some bytes of a word begins with a read. -/
theorem wdgView_of_read {m m' : Dg} {p : Dg × Option Nat} {o : Option Nat} (h : ReadKeeps m p.1) (e : p = (m', o)) :
    wdgView m' = wdgView m := by
  subst e
  exact h.wdgView_eq

theorem wdgView_writeWord (m : Dg) (v : Via) (a : Nat) (mask : BitVec 16) (d : Nat) :
    wdgView (writeWord m v a mask d).1 = wdgView m := by
  unfold writeWord
  dsimp only
  split
  case h_1 => exact (pokeWord_keeps _ _ _).wdgView_eq
  case h_2 =>
    split
    · rfl
    · split
      · exact wdgView_storeClean _ _ _
      · split <;> rename_i e
        · exact (wdgView_storeClean _ _ _).trans (wdgView_of_read (readCanvas_keeps _ _ _ _) e)
        · exact wdgView_of_read (readCanvas_keeps _ _ _ _) e
  case h_3 =>
    split
    · rfl
    · split
      · exact wdgView_storeClean _ _ _
      · split <;> rename_i e
        · exact (wdgView_storeClean _ _ _).trans (wdgView_of_read (readDram_keeps _ _) e)
        · exact wdgView_of_read (readDram_keeps _ _) e
  case h_4 =>
    split
    · exact wdgView_storeClean _ _ _
    · rfl
  case h_5 =>
    split
    · exact wdgView_writePalette _ _ _
    · rfl
  case h_6 => rfl

theorem wdgView_cacheStore (m : Dg) (c : CtxId) (e : SbEntry) : wdgView (cacheStore m c e) = wdgView m := rfl

theorem wdgView_writeBack (m : Dg) (c : CtxId) (k : Nat) : wdgView (writeBack m c k) = wdgView m := by
  unfold writeBack
  dsimp only
  split
  · rfl
  · split
    · exact wdgView_writeWord _ _ _ _ _
    · rfl

theorem wdgView_evict (m : Dg) (c : CtxId) : wdgView (evict m c) = wdgView m := by
  unfold evict
  dsimp only
  split
  · rfl
  · split
    · exact (wdgView_foldl (fun m _ => wdgView_writeBack m c _) _ _).trans (wdgView_draw m)
    · exact wdgView_draw m

theorem wdgView_fillData (m : Dg) (c : CtxId) (a : Nat) : wdgView (fillData m c a) = wdgView m := by
  refine (wdgView_foldl (fun m i => ?_) _ _).trans (wdgView_evict m c)
  dsimp only
  split
  · rfl
  · split <;> exact (wdgView_updCtx _ _ _).trans (wdgView_of_read (readWord_keeps _ _ _) ‹_›)

theorem wdgView_cacheWrite (m : Dg) (c : CtxId) (e : SbEntry) : wdgView (cacheWrite m c e) = wdgView m := by
  have hf : wdgView (if (SMap.get (getCtx m c).dcache (e.addr / 16)).isNone then fillData m c e.addr else m) = wdgView m := by
    split
    · exact wdgView_fillData m c _
    · rfl
  unfold cacheWrite
  dsimp only
  rw [← hf]
  generalize (if (SMap.get (getCtx m c).dcache (e.addr / 16)).isNone then fillData m c e.addr else m) = n
  split
  · exact wdgView_writeWord _ _ _ _ _
  · split
    · exact wdgView_writeBack _ _ _
    · rfl

theorem wdgView_memStore (m : Dg) (c : CtxId) (e : SbEntry) : wdgView (memStore m c e) = wdgView m := by
  unfold memStore
  dsimp only
  split
  · exact wdgView_reportOpen _ _ _ _
  · split
    · exact wdgView_guardReport _ _ _
    · split
      · exact wdgView_cacheWrite _ _ _
      · have hw := wdgView_writeWord m (viaCtx c) e.addr e.mask e.data.toNat
        split
        · rename_i h
          rw [h] at hw
          exact hw
        · rename_i h
          rw [h] at hw
          exact hw

theorem wdgView_drainOne (m : Dg) (c : CtxId) : wdgView (drainOne m c) = wdgView m := by
  unfold drainOne
  split
  · rfl
  · split
    · rfl
    · exact wdgView_memStore _ _ _

theorem wdgView_drainN (c : CtxId) (n : Nat) (m : Dg) : wdgView (drainN m c n) = wdgView m := by
  induction n generalizing m with
  | zero => rfl
  | succ n ih => exact (ih _).trans (wdgView_drainOne m c)

theorem wdgView_drainAll (m : Dg) (c : CtxId) : wdgView (drainAll m c) = wdgView m := wdgView_drainN c _ m

end Sys2Proof.Machine
end

section
/-! SUPPORT. What faults of a watchdog, the end of its frame, its services and its check-ins leave (spec/09 R483 to R493), and
how a write to a watchdog's register ends. -/
namespace Sys2Proof.Machine

/-! ### Messages of a watchdog -/

/-- R489: watchdog `n` with the record `w` reports. -/
def tellWdg (w : Wdg) (n : Nat) (m : Dg) (kind cp : Nat) : Dg :=
  reportI m (w.suppressed && kind != kTsmUnknown) w.source kind cp n (0x400 + w.owner)

/-- R491: the checkpoints of the set that a frame leaves unmarked, in ascending order. -/
def Wdg.unmarked (w : Wdg) : List Nat := (List.range 32).filter fun k => w.cpmask.getLsbD k && !w.run.seen.getLsbD k

/-- R491: each unmarked checkpoint is reported. -/
def tellMissing (w : Wdg) (n : Nat) (m : Dg) : Dg := w.unmarked.foldl (fun m k => tellWdg w n m kTsmMissing k) m

/-- Only the sources of messages differ. -/
def Told (m r : Dg) : Prop := { r with srcs := m.srcs } = m

theorem Told.refl (m : Dg) : Told m m := rfl

theorem Told.now {m r : Dg} (h : Told m r) : r.now = m.now := (congrArg Dg.now h :)

theorem Told.tellWdg {m r : Dg} (h : Told m r) (w : Wdg) (n kind cp : Nat) : Told m (tellWdg w n r kind cp) := h

theorem Told.tellMissing {m r : Dg} (h : Told m r) (w : Wdg) (n : Nat) : Told m (tellMissing w n r) :=
  List.foldlRecOn (motive := Told m) _ _ h fun _ h _ _ => h.tellWdg w n _ _

theorem unmarked_eq_nil (w : Wdg) : w.unmarked = [] ↔ w.cpmask &&& ~~~w.run.seen = 0 := by
  simp only [Wdg.unmarked, List.filter_eq_nil_iff, List.mem_range]
  refine ⟨fun h => BitVec.eq_of_getLsbD_eq fun k hk => ?_, fun h k hk => ?_⟩
  · simpa [hk] using h k hk
  · simpa [hk] using congrArg (BitVec.getLsbD · k) h

/-- R491: the end of a frame sets TSM for each unmarked checkpoint. -/
def Wdg.endFlags (w : Wdg) (e : Evt) : Evt := w.unmarked.foldl (fun e _ => e.set 3) e

theorem Wdg.endFlags_flag (w : Wdg) (e : Evt) (j : Nat) :
    bit (w.endFlags e).flags j = (decide (j = 3 ∧ w.unmarked ≠ []) || bit e.flags j) := by
  have hs : w.endFlags e = e.sets (w.unmarked.map fun _ => 3) := by rw [Evt.sets, List.foldl_map, Wdg.endFlags]
  have hm : j ∈ w.unmarked.map (fun _ => 3) ↔ j = 3 ∧ w.unmarked ≠ [] := by
    rw [List.map_const', List.mem_replicate, ne_eq, List.length_eq_zero_iff, and_comm]
  simp only [hs, Evt.sets_flag, hm]

/-! ### Marks in a watchdog's record -/

/-- `m` is the module `r` but for interrupts raised and for watchdog `n`, which has become `w` with the flags `e`. -/
structure Marks (n : Nat) (w : Wdg) (r m : Dg) (e : Evt) : Prop where
  rest : { m with wdg := r.wdg, ctx := r.ctx } = r
  others : ∀ k, k ≠ n → getWdg m k = getWdg r k
  own : getWdg m n = { w with evt := e }
  pid : ∀ c, (getCtx m c).pid = (getCtx r c).pid

namespace Marks
variable {n : Nat} {w : Wdg} {r m m' : Dg} {e : Evt}

theorem refl (n : Nat) (m : Dg) : Marks n (getWdg m n) m m (getWdg m n).evt := ⟨rfl, fun _ _ => rfl, rfl, fun _ => rfl⟩

theorem now (h : Marks n w r m e) : m.now = r.now := (congrArg Dg.now h.rest :)

theorem of_irqKeeps (h : Marks n w r m e) (k : IrqKeeps m m') : Marks n w r m' e where
  rest := calc
    { m' with wdg := r.wdg, ctx := r.ctx } = { { m' with ctx := m.ctx } with wdg := r.wdg, ctx := r.ctx } := rfl
    _ = { m with wdg := r.wdg, ctx := r.ctx } := by rw [k.rest]
    _ = r := h.rest
  others j hj := (congrArg (getWdg · j) k.rest :).trans (h.others j hj)
  own := (congrArg (getWdg · n) k.rest :).trans h.own
  pid c := (k.pid c).trans (h.pid c)

/-- The watchdog's record changes. -/
theorem updWdg {w' : Wdg} {e' : Evt} (h : Marks n w r m e) (f : Wdg → Wdg) (hf : f { w with evt := e } = { w' with evt := e' }) :
    Marks n w' r (updWdg m n f) e' where
  rest := h.rest
  others k hk := (SMap.get_upd_other m.wdg n f hk).trans (h.others k hk)
  own := by
    rw [← hf, ← h.own]
    exact SMap.get_upd_self _ _ _
  pid := h.pid

/-- R493: a flag is set, and its interrupt raised when it was clear. -/
theorem wdgEvt (h : Marks n w r m e) (flag : Nat) : Marks n w r (wdgEvt m n flag false) (e.set flag) := by
  have hu := h.updWdg (w' := w) (e' := e.set flag) (fun w => { w with evt := w.evt.set flag }) rfl
  unfold Machine.wdgEvt
  simp only [Bool.false_eq_true, if_false]
  split
  · exact hu
  · exact hu.of_irqKeeps (raiseOrigin_irqKeeps _ _ _)

/-- A message reaches its source the same way whatever the watchdog holds and whatever interrupts are pending. -/
theorem reportI (h : Marks n w r m e) (j : Bool) (src kind detail addr subject : Nat) :
    Marks n w (reportI r j src kind detail addr subject) (reportI m j src kind detail addr subject) e where
  rest := (congrArg (Machine.reportI · j src kind detail addr subject) h.rest :)
  others := h.others
  own := h.own
  pid := h.pid

/-- R489, R493: a fault is a message and a flag. -/
theorem wdgFault (h : Marks n w r m e) (kind cp flag : Nat) :
    Marks n w (tellWdg w n r kind cp) (wdgFault m n false kind cp flag) (e.set flag) := by
  have hr : wdgReport m n false kind cp = tellWdg w n m kind cp := by
    rw [wdgReport, h.own]
    rfl
  rw [Machine.wdgFault, hr]
  exact (h.reportI _ _ _ _ _ _).wdgEvt flag

/-- A change made for each of a list. -/
theorem foldl {f g : Dg → Nat → Dg} {s : Evt → Nat → Evt}
    (hs : ∀ {r m e} a, Marks n w r m e → Marks n w (g r a) (f m a) (s e a)) (h : Marks n w r m e) (l : List Nat) :
    Marks n w (l.foldl g r) (l.foldl f m) (l.foldl s e) := by
  induction l generalizing r m e with
  | nil => exact h
  | cons a l ih => exact ih (hs a h)

/-- R18: the flags that hardware sets in the cycle of a write. -/
theorem wdgSets (h : Marks n w r m e) (hw : Nat) : Marks n w r (wdgSets n hw m) (e.sets ((List.range 4).filter (bit hw))) := by
  have hl := foldl (g := fun r _ => r) (fun a h => wdgEvt h a) h ((List.range 4).filter (bit hw))
  have hr : ((List.range 4).filter (bit hw)).foldl (fun r _ => r) r = r :=
    List.foldlRecOn (motive := (· = r)) _ _ rfl fun _ h _ _ => h
  rw [hr] at hl
  exact hl

theorem endFrame (h : Marks n w r m e) : Marks n w (tellMissing w n r) (endFrame m n false) (w.endFlags e) := by
  have hw : Machine.endFrame m n false = w.unmarked.foldl (fun m k => Machine.wdgFault m n false kTsmMissing k 3) m := by
    rw [Machine.endFrame, h.own]
    rfl
  rw [hw]
  exact foldl (fun a h => wdgFault h kTsmMissing a 3) h w.unmarked

/-- What remains of the module beside the watchdog's record, messages and interrupts. -/
theorem told {m₀ : Dg} (h : Marks n w r m e) (hr : Told m₀ r) :
    m.srcs = r.srcs ∧ { m with wdg := m₀.wdg, srcs := m₀.srcs, ctx := m₀.ctx } = m₀ ∧
      ∀ k, k ≠ n → getWdg m k = getWdg m₀ k := by
  refine ⟨(congrArg Dg.srcs h.rest :), ?_, fun k hk => (h.others k hk).trans (congrArg (getWdg · k) hr :)⟩
  calc { m with wdg := m₀.wdg, srcs := m₀.srcs, ctx := m₀.ctx }
      = { { { m with wdg := r.wdg, ctx := r.ctx } with srcs := m₀.srcs } with wdg := m₀.wdg, ctx := m₀.ctx } := rfl
    _ = { { r with srcs := m₀.srcs } with wdg := m₀.wdg, ctx := m₀.ctx } := by rw [h.rest]
    _ = m₀ := by rw [show { r with srcs := m₀.srcs } = m₀ from hr]

end Marks

/-! ### Expiry, services and check-ins -/

/-- R484, R491: COUNT reaches CLOSE: the timeout, the end of the frame, and a new window with the same key. -/
theorem Marks.wdgExpire {n : Nat} {w : Wdg} {r m : Dg} {e : Evt} (h : Marks n w r m e) :
    Marks n { w with run := w.run.restart r.now w.run.nextKey } (Machine.tellMissing w n (Machine.tellWdg w n r kWdgTimeout 0))
      (wdgExpire m n false) (w.endFlags (e.set 0)) := by
  have hend := (h.wdgFault kWdgTimeout 0 0).endFrame
  have htold : Told r (Machine.tellMissing w n (Machine.tellWdg w n r kWdgTimeout 0)) :=
    ((Told.refl r).tellWdg w n kWdgTimeout 0).tellMissing w n
  have hnow : (Machine.endFrame (Machine.wdgFault m n false kWdgTimeout 0 0) n false).now = r.now := hend.now.trans htold.now
  refine hend.updWdg _ ?_
  rw [hnow]
  rfl

section
variable {m : Dg} {n key : Nat} (hs : (getWdg m n).suppressed = false)
include hs

/-- R484: a wrong key before CLOSE. -/
theorem wdgService_badKey (hk : key ≠ (getWdg m n).run.nextKey)
    (hc : (getWdg m n).run.count (getWdg m n) m.now < (getWdg m n).run.closes (getWdg m n)) :
    wdgService m n false key = wdgFault m n false kWdgBadKey 0 2 := by
  simp [wdgService, hs, Wdg.get, hk, Nat.not_le.mpr hc, shadowFault]

/-- R484: the right key at or after CLOSE. -/
theorem wdgService_late (hk : key = (getWdg m n).run.nextKey)
    (hc : (getWdg m n).run.closes (getWdg m n) ≤ (getWdg m n).run.count (getWdg m n) m.now) :
    wdgService m n false key = wdgExpire m n false := by
  simp [wdgService, hs, Wdg.get, hk, hc]

/-- R484: the right key before OPEN. -/
theorem wdgService_early (hk : key = (getWdg m n).run.nextKey)
    (ho : (getWdg m n).run.count (getWdg m n) m.now < (getWdg m n).run.opens (getWdg m n))
    (hc : (getWdg m n).run.count (getWdg m n) m.now < (getWdg m n).run.closes (getWdg m n)) :
    wdgService m n false key = wdgFault m n false kWdgEarly 0 1 := by
  simp [wdgService, hs, Wdg.get, hk, ho, Nat.not_le.mpr hc, shadowFault]

/-- R484, R485: the right key in the window. -/
theorem wdgService_inWindow (hk : key = (getWdg m n).run.nextKey)
    (ho : (getWdg m n).run.opens (getWdg m n) ≤ (getWdg m n).run.count (getWdg m n) m.now)
    (hc : (getWdg m n).run.count (getWdg m n) m.now < (getWdg m n).run.closes (getWdg m n)) :
    wdgService m n false key = updWdg (endFrame m n false) n fun w =>
      w.put false ((getWdg m n).run.restart m.now (nextKey (getWdg m n).run.nextKey)) := by
  simp [wdgService, hs, Wdg.get, hk, Nat.not_le.mpr hc, Nat.not_lt.mpr ho, shadowFault]

end

/-- R484, R485, R491: a service in the window ends the frame, steps the key and opens a new window. -/
theorem served_marks (m : Dg) (n : Nat) (x : WdgRun) :
    Marks n { getWdg m n with run := x } (tellMissing (getWdg m n) n m) (updWdg (endFrame m n false) n fun w => w.put false x)
      ((getWdg m n).endFlags (getWdg m n).evt) :=
  (Marks.refl n m).endFrame.updWdg _ rfl

/-- A frame with every checkpoint marked ends without a report. -/
theorem endFrame_complete {m : Dg} {n : Nat} (h : (getWdg m n).unmarked = []) : endFrame m n false = m := by
  have hw : endFrame m n false = (getWdg m n).unmarked.foldl (fun m k => wdgFault m n false kTsmMissing k 3) m := rfl
  rw [hw, h, List.foldl_nil]

/-- R490: the checkpoint is one of the set's and not marked yet. -/
def Wdg.marks (w : Wdg) (k : Nat) : Bool := w.cpmask.getLsbD k && !w.run.seen.getLsbD k

/-- R490: the running set with the checkpoint marked. -/
def Wdg.checked (w : Wdg) (k : Nat) : WdgRun :=
  { w.run with
    seen := w.run.seen ||| BitVec.ofNat 32 (2 ^ k), pos := if w.seqMode then (w.order.findIdx fun x => x == k) + 1 else w.run.pos }

/-- R490: the module with the checkpoint marked, if the check-in marks it. -/
def markCheckin (m : Dg) (n k : Nat) : Dg :=
  if (getWdg m n).marks k then updWdg m n fun w => w.put false ((getWdg m n).checked k) else m

theorem markCheckin_marks (m : Dg) (n k : Nat) :
    Marks n { getWdg m n with run := if (getWdg m n).marks k then (getWdg m n).checked k else (getWdg m n).run } m
      (markCheckin m n k) (getWdg m n).evt := by
  unfold markCheckin
  split
  · exact (Marks.refl n m).updWdg _ rfl
  · exact Marks.refl n m

/-- R490: the first kind that applies to a check-in. -/
def checkinKind (w : Wdg) (now k : Nat) : Option Nat :=
  if w.cpmask.getLsbD k = false then some kTsmUnknown
  else if w.run.seen.getLsbD k = true then some kTsmDuplicate
  else if w.seqMode = true ∧ w.order[w.run.pos]? ≠ some k then some kTsmOrder
  else if (SMap.get w.late k).any (fun d => decide (d ≤ w.run.count w now)) = true then some kTsmLate else none

theorem checkinFault_eq (w : Wdg) (now k : Nat) : checkinFault w w.run now k = (checkinKind w now k, w.marks k) := by
  unfold checkinFault checkinKind Wdg.marks
  cases hm : w.cpmask.getLsbD k
  · rfl
  · cases hs : w.run.seen.getLsbD k
    · by_cases ho : w.seqMode = true ∧ w.order[w.run.pos]? ≠ some k
      · simp [ho]
      · cases hl : SMap.get w.late k <;> simp [ho]
    · rfl

/-- R490: a check-in without a fault marks its checkpoint. -/
theorem wdgCheckin_none {m : Dg} {n k : Nat} (h : checkinKind (getWdg m n) m.now k = none) :
    wdgCheckin m n false k = markCheckin m n k := by
  have hf := checkinFault_eq (getWdg m n) m.now k
  rw [h] at hf
  simp only [wdgCheckin, Wdg.get, Bool.false_eq_true, if_false, hf]
  rfl

/-- R490: a check-in with a fault is reported, and TSM set. -/
theorem wdgCheckin_some {m : Dg} {n k y : Nat} (h : checkinKind (getWdg m n) m.now k = some y) :
    wdgCheckin m n false k = wdgFault (markCheckin m n k) n false y k 3 := by
  have hf := checkinFault_eq (getWdg m n) m.now k
  rw [h] at hf
  simp only [wdgCheckin, Wdg.get, Bool.false_eq_true, if_false, hf]
  rfl

/-! ### Writes to a watchdog's registers -/

/-- The context runs, takes no interrupt first, and waits for no waking bank. -/
def LetsWrite (m : Dg) (c : CtxId) : Prop :=
  runnable m c = true ∧ ¬ (irqDue (getCtx m c) = true ∧ stepping m c = false) ∧
    ¬ (drainWaits m c = true ∨ entryWaits m c 4 = true)

section
variable {m : Dg} {c : CtxId} {a : Nat} {hw : Dg → Dg} {w : Dg → RegW}

/-- R42, R51, R325: a write that does not come about leaves the events of its cycle. -/
theorem regCommand_held (h : ¬ runnable m c = true ∨
    ¬ (irqDue (getCtx m c) = true ∧ stepping m c = false) ∧ (drainWaits m c = true ∨ entryWaits m c 4 = true)) :
    regCommand m c a hw w = hw m := by
  unfold regCommand
  obtain hr | ⟨hd, hh⟩ := h
  · simp [hr]
  · simp only [Bool.and_eq_true, Bool.not_eq_true', Bool.or_eq_true, hd, hh, if_false, if_true, ite_self]

/-- R52, R144: the interrupt that is due comes first. -/
theorem regCommand_due (hr : runnable m c = true) (hd : irqDue (getCtx m c) = true ∧ stepping m c = false) :
    regCommand m c a hw w = takeIrq (hw m) c := by
  simp [regCommand, hr, hd]

/-- R303: an address in the block WDG. -/
def InWdgBlock (a : Nat) : Prop := 0x47000000 ≤ a ∧ a < 0x48000000

/-- The block of the watchdogs is never dark. -/
theorem regDark_wdg (m : Dg) (ha : InWdgBlock a) : regDark m a = false := by
  obtain ⟨hlow, hhigh⟩ := ha
  have hb : regBlock a = 7 := by
    unfold regBlock regBase
    omega
  simp [regDark, hb]

/-- R211: an accepted write follows the older stores of its context. -/
theorem regCommand_done {m' : Dg} (h : LetsWrite m c) (ha : InWdgBlock a) (hm : w (drainAll m c) = .done m') :
    regCommand m c a hw w = hw m' := by
  obtain ⟨hr, hd, hh⟩ := h
  simp only [regCommand, Bool.and_eq_true, Bool.not_eq_true', Bool.or_eq_true, hr, hd, hh, regDark_wdg _ ha, hm, if_false,
    Bool.true_eq_false, Bool.false_eq_true, false_and]

/-- R78, R487: a write by another partition than the owner is denied. -/
theorem regCommand_notYours (h : LetsWrite m c) (hc : c < 56) (ha : InWdgBlock a) (hm : w (drainAll m c) = .notYours) :
    regCommand m c a hw w =
      let m' := hw (drainAll m c)
      let pid := (getCtx m' c).pid
      takeExn (report m' (0x06A + studioOf c) kAccessDenied (pid + 256) a (0x400 + pid)) c ⟨4, 1, some a, false, none⟩ := by
  obtain ⟨hr, hd, hh⟩ := h
  have hsup : isSup c = false := by simp [isSup, supCtx, Nat.ne_of_lt hc]
  have ha' : a < 2 ^ 48 := Nat.lt_trans ha.2 (by decide)
  simp only [regCommand, Bool.and_eq_true, Bool.not_eq_true', Bool.or_eq_true, hr, hd, hh, regDark_wdg _ ha, hm, if_false,
    Bool.true_eq_false, Bool.false_eq_true, false_and, regOutcome, regRefuse, hsup, ifaceReport, ifaceSrc, hc, if_true, exnAt,
    Nat.mod_eq_of_lt ha', tagPid, Nat.mul_one]

end

end Sys2Proof.Machine
end

section
/-! SUPPORT. The commands of a partition watchdog (spec/09 Tables 09.8, 09.9). -/
namespace Sys2Proof.Machine

section
variable {s : State} {c : CtxId} {n : Nat}

/-! ### The commands as writes -/

theorem exec_wdgWnService (h : n < 64) (v : Word) : exec (.wdgWnService c n v) s =
    .next { s with dg := regCommand s.dg c (0x47000120 + 0x80 * n) id fun m => writeService m c n v.toNat } := by
  have he : exec (.wdgWnService c n v) s = execWdgWnService c n v s := rfl
  simp only [he, execWdgWnService, run, Nat.not_le.mpr h, if_false, regBase, Nat.reduceAdd]

theorem exec_wdgWnCheckin (h : n < 64) (v : Word) : exec (.wdgWnCheckin c n v) s =
    .next { s with dg := regCommand s.dg c (0x47000128 + 0x80 * n) id fun m => writeCheckin m c n v.toNat } := by
  have he : exec (.wdgWnCheckin c n v) s = execWdgWnCheckin c n v s := rfl
  simp only [he, execWdgWnCheckin, run, Nat.not_le.mpr h, if_false, regBase, Nat.reduceAdd]

theorem exec_wdgWnEvt (h : n < 64) (v : Word) (hw : BitVec 4) : exec (.wdgWnEvt c n v hw) s =
    .next { s with
      dg := regCommand s.dg c (0x47000138 + 0x80 * n) (wdgSets n hw.toNat) fun m => writeWdgEvt m c n v.toNat hw.toNat } := by
  have he : exec (.wdgWnEvt c n v hw) s = execWdgWnEvt c n v hw s := rfl
  simp only [he, execWdgWnEvt, run, Nat.not_le.mpr h, if_false, regBase, Nat.reduceAdd]

/-- R483, R484: the count of a watchdog that runs reaches CLOSE, or nothing happens. -/
theorem exec_wdgTimeout (n : Nat) (s : State) : exec (.wdgTimeout n false) s = .next { s with
    dg :=
      if wdgRuns s.dg n = true ∧
        (getWdg s.dg n).run.closes (getWdg s.dg n) ≤ (getWdg s.dg n).run.count (getWdg s.dg n) s.dg.now
      then wdgExpire s.dg n false else s.dg } := by
  have he : exec (.wdgTimeout n false) s = execWdgTimeout n false s := rfl
  simp only [he, execWdgTimeout, run, Wdg.get, Bool.false_and, Bool.or_false, Bool.false_eq_true, if_false]
  cases wdgRuns s.dg n <;> simp

/-! ### Owner and set -/

theorem ownsWdg_eq_true {m : Dg} (hc : c < 56) (hconf : (getWdg m n).configured = true)
    (hown : (getWdg m n).owner = (getCtx m c).pid) : ownsWdg m c n = true := by
  have hsup : isSup c = false := by simp [isSup, supCtx, Nat.ne_of_lt hc]
  simp [ownsWdg, hsup, hconf, hown]

theorem ownsWdg_eq_false {m : Dg} (h : (getWdg m n).configured = false ∨ (getWdg m n).owner ≠ (getCtx m c).pid) :
    ownsWdg m c n = false := by
  unfold ownsWdg
  obtain h | h := h <;> simp [h]

/-- R488: a context outside an underpainting uses the first set. -/
theorem usesSecond_drainAll (h : isShadowCtx s.dg c = false) : usesSecond (drainAll s.dg c) c n = false := by
  have hstu : (drainAll s.dg c).stu = s.dg.stu := (congrArg (·.2.2) (wdgView_drainAll s.dg c) :)
  have hshadow : isShadowCtx (drainAll s.dg c) c = isShadowCtx s.dg c := by rw [isShadowCtx, hstu, isShadowCtx]
  rw [usesSecond, hshadow, h, Bool.false_and]

theorem getWdg_drainAll (m : Dg) (c : CtxId) (n : Nat) : getWdg (drainAll m c) n = getWdg m n :=
  (congrArg (fun v => SMap.get v.1 n) (wdgView_drainAll m c) :)

theorem now_drainAll (m : Dg) (c : CtxId) : (drainAll m c).now = m.now := (congrArg (·.2.1) (wdgView_drainAll m c) :)

/-! ### How a write ends -/

section
variable {i : Instr} {a : Nat} {hw : Dg → Dg} {w : Dg → RegW}
  (hi : exec i s = .next { s with dg := regCommand s.dg c a hw w })
include hi

theorem exec_write_later :
    (¬ runnable s.dg c = true ∨
      ¬ (irqDue (getCtx s.dg c) = true ∧ stepping s.dg c = false) ∧
        (drainWaits s.dg c = true ∨ entryWaits s.dg c 4 = true) →
        exec i s = .next { s with dg := hw s.dg }) ∧
    (runnable s.dg c = true → irqDue (getCtx s.dg c) = true ∧ stepping s.dg c = false →
      exec i s = .next { s with dg := takeIrq (hw s.dg) c }) :=
  ⟨fun h => by rw [hi, regCommand_held h], fun hr hd => by rw [hi, regCommand_due hr hd]⟩

theorem exec_write_done (ha : InWdgBlock a) (h : LetsWrite s.dg c) {m' : Dg} (hm : w (drainAll s.dg c) = .done m') :
    exec i s = .next { s with dg := hw m' } := by
  rw [hi, regCommand_done h ha hm]

theorem exec_write_notYours (ha : InWdgBlock a) (hc : c < 56) (h : LetsWrite s.dg c)
    (hm : w (drainAll s.dg c) = .notYours)
    (hp : (getCtx (hw (drainAll s.dg c)) c).pid = (getCtx (drainAll s.dg c) c).pid) :
    let pid := (getCtx (drainAll s.dg c) c).pid
    exec i s = .next { s with
      dg := takeExn (report (hw (drainAll s.dg c)) (0x06A + studioOf c) kAccessDenied (pid + 256)
        a (0x400 + pid)) c ⟨4, 1, some a, false, none⟩ } := by
  rw [hi, regCommand_notYours h hc ha hm]
  simp only [hp]

end

/-! ### Writes of the owner and of others -/

section
variable {m : Dg} (ho : ownsWdg m c n = false)
include ho

theorem writeService_notYours (v : Word) : writeService m c n v.toNat = .notYours := by
  simp [writeService, ho]

theorem writeCheckin_notYours (v : Word) : writeCheckin m c n v.toNat = .notYours := by
  simp [writeCheckin, ho]

theorem writeWdgEvt_notYours (v : Word) (hw : Nat) : writeWdgEvt m c n v.toNat hw = .notYours := by
  simp [writeWdgEvt, ho]

end

section
variable (hs : isShadowCtx s.dg c = false) (ho : ownsWdg (drainAll s.dg c) c n = true)
include hs ho

theorem writeService_owner (v : Word) : writeService (drainAll s.dg c) c n v.toNat =
    .done (if wdgRuns (drainAll s.dg c) n then wdgService (drainAll s.dg c) n false (v.toNat % 2 ^ 16) else drainAll s.dg c) := by
  simp [writeService, ho, usesSecond_drainAll hs, bits]

theorem writeCheckin_owner (v : Word) : writeCheckin (drainAll s.dg c) c n v.toNat =
    .done (if wdgRuns (drainAll s.dg c) n then wdgCheckin (drainAll s.dg c) n false (v.toNat % 32) else drainAll s.dg c) := by
  simp [writeCheckin, ho, usesSecond_drainAll hs, bits]

theorem writeWdgEvt_owner (v hw : Nat) : writeWdgEvt (drainAll s.dg c) c n v hw =
    .done (updWdg (drainAll s.dg c) n fun w => { w with evt := w1cEvt w.evt 4 v hw }) := by
  simp [writeWdgEvt, ho, usesSecond_drainAll hs]

end

end

/-! ### What each command leaves -/

section
variable {s : State} {n : Nat}

/-- R484, R491: the count of a watchdog that runs has reached CLOSE. -/
theorem exec_wdgTimeout_expires (hr : wdgRuns s.dg n = true)
    (hc : (getWdg s.dg n).run.closes (getWdg s.dg n) ≤ (getWdg s.dg n).run.count (getWdg s.dg n) s.dg.now) :
    exec (.wdgTimeout n false) s = .next { s with dg := wdgExpire s.dg n false } := by
  rw [exec_wdgTimeout, if_pos ⟨hr, hc⟩]

theorem exec_wdgTimeout_early (h : wdgRuns s.dg n = false ∨
    (getWdg s.dg n).run.count (getWdg s.dg n) s.dg.now < (getWdg s.dg n).run.closes (getWdg s.dg n)) :
    exec (.wdgTimeout n false) s = .next s := by
  rw [exec_wdgTimeout, if_neg]
  rintro ⟨hr, hc⟩
  obtain h | h := h
  · exact Bool.noConfusion (h.symm.trans hr)
  · exact Nat.not_lt.mpr hc h

end

section
variable (m : Dg) (n : Nat)

/-- R484, R491: the flag TIMEOUT stands after an expiry, whatever the end of the frame adds. -/
theorem wdgExpire_timeoutFlag : bit (getWdg (wdgExpire m n false) n).evt.flags 0 = true := by
  rw [(Marks.refl n m).wdgExpire.own, Wdg.endFlags_flag, Evt.set_flag]
  simp

/-- R491: a frame with every checkpoint marked ends without a flag. -/
theorem served_complete (x : WdgRun) (h : (getWdg m n).unmarked = []) :
    (getWdg (updWdg (endFrame m n false) n fun w => w.put false x) n).evt = (getWdg m n).evt ∧
      (updWdg (endFrame m n false) n fun w => w.put false x).ctx = m.ctx := by
  refine ⟨?_, (congrArg Dg.ctx (endFrame_complete h) :)⟩
  rw [(served_marks m n x).own, Wdg.endFlags, h, List.foldl_nil]

/-- R491, R493: a frame that leaves a checkpoint unmarked ends with TSM. -/
theorem served_tsmFlag (x : WdgRun) (h : (getWdg m n).unmarked ≠ []) :
    bit (getWdg (updWdg (endFrame m n false) n fun w => w.put false x) n).evt.flags 3 = true := by
  rw [(served_marks m n x).own, Wdg.endFlags_flag]
  simp [h]

/-- R490: a check-in without a fault. -/
theorem wdgCheckin_clean {k : Nat} (h : checkinKind (getWdg m n) m.now k = none) :
    Marks n { getWdg m n with run := if (getWdg m n).marks k then (getWdg m n).checked k else (getWdg m n).run } m
      (wdgCheckin m n false k) (getWdg m n).evt ∧ (wdgCheckin m n false k).ctx = m.ctx := by
  rw [wdgCheckin_none h]
  refine ⟨markCheckin_marks m n k, ?_⟩
  unfold markCheckin
  split <;> rfl

/-- R490: a check-in with a fault. -/
theorem wdgCheckin_faulty {k y : Nat} (h : checkinKind (getWdg m n) m.now k = some y) :
    Marks n { getWdg m n with run := if (getWdg m n).marks k then (getWdg m n).checked k else (getWdg m n).run }
      (tellWdg (getWdg m n) n m y k) (wdgCheckin m n false k) ((getWdg m n).evt.set 3) := by
  rw [wdgCheckin_some h]
  exact (markCheckin_marks m n k).wdgFault y k 3

/-- R490: a check-in marks its checkpoint unless the set does not have it or it is marked already. -/
theorem wdgCheckin_run (k : Nat) : (getWdg (wdgCheckin m n false k) n).run =
    if (getWdg m n).cpmask.getLsbD k = false ∨ (getWdg m n).run.seen.getLsbD k = true then (getWdg m n).run
    else (getWdg m n).checked k := by
  have hrun : (getWdg (wdgCheckin m n false k) n).run =
      if (getWdg m n).marks k then (getWdg m n).checked k else (getWdg m n).run := by
    cases h : checkinKind (getWdg m n) m.now k with
    | none => exact (congrArg Wdg.run (wdgCheckin_clean m n h).1.own :)
    | some y => exact (congrArg Wdg.run (wdgCheckin_faulty m n h).own :)
  rw [hrun, Wdg.marks]
  cases (getWdg m n).cpmask.getLsbD k
  · rfl
  · cases (getWdg m n).run.seen.getLsbD k <;> rfl

/-- R18, R80, R493: a write to the flags leaves what write and hardware together make of them. -/
theorem wdgEvt_write_marks (v hw : Nat) :
    Marks n (getWdg m n) m (wdgSets n hw (updWdg m n fun w => { w with evt := w1cEvt w.evt 4 v hw }))
      ((w1cEvt (getWdg m n).evt 4 v hw).sets ((List.range 4).filter (bit hw))) :=
  ((Marks.refl n m).updWdg _ rfl).wdgSets hw

theorem wdgEvt_write_outcome (v hw : Nat) : W1cOutcome 8 4 (getWdg m n).evt
    (getWdg (wdgSets n hw (updWdg m n fun w => { w with evt := w1cEvt w.evt 4 v hw })) n).evt v hw := by
  rw [(wdgEvt_write_marks m n v hw).own]
  exact w1cEvt_sets _ _ _ _

end

/-- Settles O47: each command is a write that follows the drains (`exec_write_later`, `exec_write_done`,
`exec_write_notYours`), and what it writes changes the module in its messages, its flags and its own record alone (`Marks`). -/
theorem watchdogs : Obligations.Watchdogs := by
  unfold Obligations.Watchdogs
  intro s c n v hn hc hshadow m runs due held acts later w r cnt opens closes pid tells missing ends again
  have hwdg : getWdg s.dg n = w := (getWdg_drainAll s.dg c n).symm
  have hnow : s.dg.now = m.now := (now_drainAll s.dg c).symm
  have hservice := exec_wdgWnService (s := s) (c := c) hn
  have hcheckin := exec_wdgWnCheckin (s := s) (c := c) hn
  have hevt := exec_wdgWnEvt (s := s) (c := c) hn
  have hserviceAt : InWdgBlock (0x47000120 + 0x80 * n) := ⟨by omega, by omega⟩
  have hcheckinAt : InWdgBlock (0x47000128 + 0x80 * n) := ⟨by omega, by omega⟩
  have hevtAt : InWdgBlock (0x47000138 + 0x80 * n) := ⟨by omega, by omega⟩
  refine ⟨exec_write_later (hservice v), exec_write_later (hcheckin v), fun hw => exec_write_later (hevt v hw), ?_, ?_, ?_⟩
  · intro v hw hnot hacts refused
    have hown : ownsWdg (drainAll s.dg c) c n = false := ownsWdg_eq_false hnot
    have hdeniedService := exec_write_notYours (hservice v) hserviceAt hc hacts (writeService_notYours hown v) rfl
    have hdeniedCheckin := exec_write_notYours (hcheckin v) hcheckinAt hc hacts (writeCheckin_notYours hown v) rfl
    have hdeniedEvt := exec_write_notYours (hevt v hw) hevtAt hc hacts (writeWdgEvt_notYours hown v hw.toNat)
        (((Marks.refl n (drainAll s.dg c)).wdgSets hw.toNat).pid c)
    exact ⟨hdeniedService, hdeniedCheckin, hdeniedEvt⟩
  · intro hconf hsup
    refine ⟨fun h => exec_wdgTimeout_early (by rw [hwdg, hnow]; exact h), fun hr hlate => ?_⟩
    have hx : Marks n { w with run := again r.nextKey } (tellMissing w n (tellWdg w n s.dg kWdgTimeout 0))
        (wdgExpire s.dg n false) (w.endFlags (w.evt.set 0)) := by
      have hx := (Marks.refl n s.dg).wdgExpire
      rw [hwdg, hnow] at hx
      exact hx
    exact ⟨_, exec_wdgTimeout_expires hr (by rw [hwdg, hnow]; exact hlate), (congrArg Wdg.run hx.own :),
      wdgExpire_timeoutFlag s.dg n, hx.told (((Told.refl s.dg).tellWdg w n _ _).tellMissing w n)⟩
  · intro hconf howner hacts
    have hown : ownsWdg (drainAll s.dg c) c n = true := ownsWdg_eq_true hc hconf howner
    have hservice := exec_write_done (hservice v) hserviceAt hacts (writeService_owner hshadow hown v)
    have hcheckin := exec_write_done (hcheckin v) hcheckinAt hacts (writeCheckin_owner hshadow hown v)
    refine ⟨fun hr => ?_, fun hw => ?_, fun hr hsup => ?_, fun hr => ?_⟩
    · have hr : ¬ wdgRuns (drainAll s.dg c) n = true := Bool.eq_false_iff.mp hr
      rw [if_neg hr] at hservice hcheckin
      exact ⟨hservice, hcheckin⟩
    · have hx := wdgEvt_write_marks m n v.toNat hw.toNat
      exact ⟨_, exec_write_done (hevt v hw) hevtAt hacts (writeWdgEvt_owner hshadow hown _ _),
        wdgEvt_write_outcome m n v.toNat hw.toNat, (congrArg Wdg.run hx.own :), hx.told (.refl m)⟩
    · rw [if_pos hr] at hservice
      intro key
      refine ⟨fun hk hopen hclose => ?_, fun hk hclose => ?_, fun hk hearly hclose => ?_, fun hk hlate => ?_⟩
      · have hx := served_marks m n (again (nextKey r.nextKey))
        rw [wdgService_inWindow hsup hk hopen hclose] at hservice
        exact ⟨_, hservice, (congrArg Wdg.run hx.own :), fun hseen => served_complete m n _ ((unmarked_eq_nil w).mpr hseen),
          fun hseen => served_tsmFlag m n _ (mt (unmarked_eq_nil w).mp hseen), hx.told ((Told.refl m).tellMissing w n)⟩
      · have hx := (Marks.refl n m).wdgFault kWdgBadKey 0 2
        rw [wdgService_badKey hsup hk hclose] at hservice
        exact ⟨_, hservice, hx.own, hx.told ((Told.refl m).tellWdg w n _ _)⟩
      · have hx := (Marks.refl n m).wdgFault kWdgEarly 0 1
        rw [wdgService_early hsup hk hearly hclose] at hservice
        exact ⟨_, hservice, hx.own, hx.told ((Told.refl m).tellWdg w n _ _)⟩
      · rw [wdgService_late hsup hk hlate] at hservice
        exact hservice.trans (exec_wdgTimeout_expires (s := { s with dg := m }) hr hlate).symm
    · rw [if_pos hr] at hcheckin
      intro k marked kind
      refine ⟨_, hcheckin, wdgCheckin_run m n k, fun hk => ?_, fun y hk => ?_⟩
      · obtain ⟨hx, hctx⟩ := wdgCheckin_clean m n hk
        exact ⟨(congrArg Wdg.evt hx.own :), hctx, hx.told (.refl m)⟩
      · have hx := wdgCheckin_faulty m n hk
        exact ⟨(congrArg Wdg.evt hx.own :), hx.told ((Told.refl m).tellWdg w n _ _)⟩

end Sys2Proof.Machine
end
